-- ==== Sys2Proof/Word.lean ====
section
/-! DEFINITION. The word types of the device and their plainest arithmetic (R5, R9). -/

namespace Sys2Proof

/-- A register word: all registers are 32 bits wide (R5). -/
abbrev Word := BitVec 32

/-- A byte of a memory, a frame or a record. -/
abbrev Byte := BitVec 8

end Sys2Proof
end

