-- ==== Sys2Proof/Machine/Bits.lean ====
section
/-! DEFINITION. Bit fields, two's complement, saturation and byte order: the plain arithmetic that the
operations share (R9, R10). -/

namespace Sys2Proof.Machine

/-- The `w`-bit value `v` read as a two's complement number (R9). -/
def toS (w v : Nat) : Int :=
  let u := v % 2 ^ w
  if 2 * u < 2 ^ w then (u : Int) else (u : Int) - (2 ^ w : Nat)

/-- The `w`-bit two's complement pattern of `x`. -/
def ofS (w : Nat) (x : Int) : Nat := (x % ((2 ^ w : Nat) : Int)).toNat

/-- `x` held between `lo` and `hi`. -/
def clampI (lo hi x : Int) : Int := if x < lo then lo else if hi < x then hi else x

/-- The largest signed value of `w` bits. -/
def maxS (w : Nat) : Int := (2 ^ (w - 1) : Nat) - 1

/-- The smallest signed value of `w` bits. -/
def minS (w : Nat) : Int := - (2 ^ (w - 1) : Nat)

/-- `x` saturated to `w` signed bits. -/
def satS (w : Nat) (x : Int) : Int := clampI (minS w) (maxS w) x

/-- Whether `x` is representable in `w` signed bits. -/
def fitsS (w : Nat) (x : Int) : Bool := decide (minS w ≤ x ∧ x ≤ maxS w)

/-- The floor of `x / 2^n`. -/
def asr (x : Int) (n : Nat) : Int := x / ((2 ^ n : Nat) : Int)

/-- The signed 32-bit difference of two short times, `a - b` (R3). -/
def diff32 (a b : Nat) : Int := toS 32 (ofS 32 ((a : Int) - (b : Int)))

/-- A target time is reached when the signed 32-bit difference `target - now` is zero or negative (R3). -/
def reached (target now : Nat) : Bool := decide (diff32 target now ≤ 0)

/-- The field of `width` bits at bit `lo`. -/
def bits (v lo width : Nat) : Nat := (v >>> lo) % 2 ^ width

/-- `v` with the field of `width` bits at bit `lo` replaced by `x`. -/
def putBits (v lo width x : Nat) : Nat :=
  v - (bits v lo width) * 2 ^ lo + (x % 2 ^ width) * 2 ^ lo

/-- A count in a field of `w` bits that saturates. -/
def satInc (w n : Nat) : Nat := min (n + 1) (2 ^ w - 1)

/-- A bit as a number. -/
def b2n (b : Bool) : Nat := if b then 1 else 0

/-- The number that little-endian bytes spell (R10). -/
def leNat : List Byte → Nat
  | [] => 0
  | b :: bs => b.toNat + 256 * leNat bs

/-- The `n` little-endian bytes of `v` (R10). -/
def leBytes : Nat → Nat → List Byte
  | 0, _ => []
  | n + 1, v => BitVec.ofNat 8 v :: leBytes n (v / 256)

/-- The number that big-endian bytes spell. -/
def beNat (bs : List Byte) : Nat := bs.foldl (fun a b => a * 256 + b.toNat) 0

/-- The `n` big-endian bytes of `v`. -/
def beBytes (n v : Nat) : List Byte := (leBytes n v).reverse

/-- `n` bytes of `bs` from offset `o`, zeros past the end. -/
def sliceB (bs : List Byte) (o n : Nat) : List Byte :=
  let t := (bs.drop o).take n
  t ++ List.replicate (n - t.length) 0

/-- The little-endian number of `n` bytes at offset `o`. -/
def leAt (bs : List Byte) (o n : Nat) : Nat := leNat (sliceB bs o n)

/-- The big-endian number of `n` bytes at offset `o`. -/
def beAt (bs : List Byte) (o n : Nat) : Nat := beNat (sliceB bs o n)

/-- One step of the integer square root: bit `k` of the root is kept when its square fits. -/
def isqrtBits : Nat → Nat → Nat → Nat
  | 0, _, r => r
  | k + 1, n, r =>
    let r' := r + 2 ^ k
    isqrtBits k n (if r' * r' ≤ n then r' else r)

/-- The floor of the square root. -/
def isqrt (n : Nat) : Nat := isqrtBits (n.log2 / 2 + 1) n 0

/-- The ceiling of the square root. -/
def isqrtUp (n : Nat) : Nat := let r := isqrt n; if r * r = n then r else r + 1

/-- The ceiling of `a / b`. -/
def ceilDiv (a b : Nat) : Nat := (a + b - 1) / b

/-- Rounding of the rational `n / d` to the nearest integer, halves upward. -/
def roundDiv (n : Int) (d : Nat) : Int := (2 * n + d) / (2 * d : Nat)

/-- The median of an odd list of numbers, the lower middle of an even one. -/
def insertI (x : Int) : List Int → List Int
  | [] => [x]
  | y :: ys => if x ≤ y then x :: y :: ys else y :: insertI x ys

/-- A list in rising order. -/
def sortI : List Int → List Int
  | [] => []
  | x :: xs => insertI x (sortI xs)

end Sys2Proof.Machine
end

