-- ==== Sys2Proof/Operand.lean ====
section
/-! DEFINITION. The operand types of the commands: who sends an access, which context of a servo engine
runs an instruction, the fields of an engine instruction, and the records that arrive from outside. -/

namespace Sys2Proof

/-- The initiators of an access: AC0 to AC3, SC0, SC1 and the PCIe host, which is also the host datagram
service (R38, R358). -/
inductive Initiator where
  | ac (c : Fin 4)
  | sc (c : Fin 2)
  | host
  deriving DecidableEq, Repr

/-- The initiator's number in a log entry: 0 to 3 AC, 4 and 5 SC, 6 host (R373). -/
def Initiator.num : Initiator → Nat
  | .ac c => c.val
  | .sc c => 4 + c.val
  | .host => 6

/-- The operations of an atomic memory operation (R263). -/
inductive AmoOp where
  | swap
  | add
  | xor
  | and
  | or
  | min
  | max
  | minu
  | maxu
  deriving DecidableEq, Repr

/-- The kinds of a core's store: an ordinary one, a store-conditional, an atomic memory operation with its operand as data (R263). -/
inductive StoreOp where
  | plain
  | cond
  | amo (f : AmoOp)
  deriving DecidableEq, Repr

/-- A read: its size in bytes, and whether it is an LR, which reserves the word (R263). -/
structure LoadKind where
  size : Nat
  reserve : Bool
  deriving DecidableEq, Repr

/-- A store: its bytes and its kind. -/
structure StoreData where
  data : List Byte
  op : StoreOp
  deriving DecidableEq, Repr

/-- The two contexts of a servo engine (R84). -/
inductive Ctx where
  | fg
  | bg
  deriving DecidableEq, Repr

/-- The optional loads of an instruction of format M: load A from the main bank through `pa`, load B from
the coefficient bank through `pb` (R89, format M). -/
structure MLoads where
  laen : Bool
  la : Fin 8
  pa : Fin 8
  ua : Bool
  lben : Bool
  lb : Fin 8
  pb : Fin 8
  ub : Bool
  deriving DecidableEq, Repr

/-- The address form of format L: pointer register, signed word offset, post-update flag. -/
structure LAddr where
  p : Fin 8
  off : BitVec 12
  u : Bool
  deriving DecidableEq, Repr

/-- One servo engine instruction (R89, the instruction set table). The shift fields keep every value that
their encoding admits. -/
inductive SeInstr where
  | mpy (a : Fin 4) (dm dn : Fin 8) (l : MLoads)
  | mac (a : Fin 4) (dm dn : Fin 8) (l : MLoads)
  | msu (a : Fin 4) (dm dn : Fin 8) (l : MLoads)
  | clr (a : Fin 4) (l : MLoads)
  | movl (l : MLoads)
  | add (ad as : Fin 4)
  | sub (ad as : Fin 4)
  | addd (ad : Fin 4) (dx : Fin 8) (sh : Fin 64)
  | sha (ad : Fin 4) (sh : BitVec 6)
  | she (ad : Fin 4) (ej ek : Fin 8) (c : BitVec 6)
  | neg (ad : Fin 4)
  | abs (ad : Fin 4)
  | clmp (ad : Fin 4) (dx dy : Fin 8) (sh : Fin 64)
  | cls (dx : Fin 8) (as : Fin 4)
  | mvd (dx : Fin 8) (as : Fin 4) (sh : Fin 64)
  | mva (ad : Fin 4) (dx : Fin 8) (sh : Fin 64)
  | ld (dk : Fin 8) (m : LAddr)
  | st (dk : Fin 8) (m : LAddr)
  | lda (ak : Fin 4) (m : LAddr)
  | sta (ak : Fin 4) (m : LAddr)
  | lde (ek : Fin 8) (m : LAddr)
  | ldp (pk : Fin 8) (m : LAddr)
  | mvr (dst src : BitVec 6)
  | ldi (dst : BitVec 6) (imm : BitVec 16)
  | clrs
  | br (cond : Fin 16) (tgt : BitVec 14)
  | call (tgt : BitVec 14)
  | ret
  | dbnz (dd : Fin 8) (tgt : BitVec 14)
  | rep (creg : Bool) (dd : Fin 8) (count : Fin 512)
  | cend
  | bend
  | nop
  | trap (code : BitVec 16)
  deriving DecidableEq, Repr

/-- An instant on a delay line (R40): short time and fraction UQ0.16 of the counter at the last tick before it, and the
delay-line taps passed since. A timestamp as the registers hold it has no taps left. -/
structure Stamp where
  ns : Word
  frac : BitVec 16
  taps : Fin 32
  deriving DecidableEq, Repr

/-- A presence datagram: its UDP payload, and the SFD timestamp of its frame (R150, R151). -/
structure Datagram where
  payload : List Byte
  sfd : Stamp
  deriving DecidableEq, Repr

/-- The partner's measurement of a cycle: the cycle's number and m, signed 2⁻¹⁶ ns (R209). -/
structure PairMeas where
  cycle : Word
  m : Word
  deriving DecidableEq, Repr

/-- The partner's means for the nodes of a line: whether they are those of a joiner's first cycles (R216), and node and mean in 1/8 ns. -/
structure DelayMeans where
  join : Bool
  means : List (Nat × BitVec 16)
  deriving DecidableEq, Repr

/-- A frame that arrives at an end of a line: whether its FCS holds, whether it carries a VLAN tag, its EtherType, the payload
after it, and the SFD timestamp (R175, R176). -/
structure LineFrame where
  endB : Bool
  fcsOk : Bool
  vlan : Bool
  etherType : BitVec 16
  payload : List Byte
  sfd : Stamp
  deriving DecidableEq, Repr

/-- The contents of a partner heartbeat: PAIR_ID, role, epoch, first 8 digest bytes, PSYNC and the commanded
states of the parallel-wired outputs (R220, R234, R316). -/
structure HeartbeatMsg where
  pairId : Bool
  role : Fin 5
  epoch : Word
  digest : BitVec 64
  psync : Bool
  doStates : BitVec 16
  deriving DecidableEq, Repr

/-- The cycle message of a line (R227, R229, R235): what takes effect in the cycle, the CRC of the previous
output block, and the local-mode input words of the active module. -/
structure CycleMsg where
  armCmd : Nat
  jointCmds : List (Nat × Nat × Word)
  hpend : Bool
  haddr : BitVec 18
  tlive : Bool
  mbank : Bool
  apply : Bool
  outCrc : Word
  localWords : List (Nat × Word)
  deriving DecidableEq, Repr

/-- The phases of a homing step axis (R302). -/
inductive StPhase where
  | none | search | turn | abort | found | final
  deriving DecidableEq, Repr

/-- A step axis beside its registers: fraction of a step in 1 / (256 · 10¹²), velocity in 1 / (256 · 10⁶) steps/s, the command that
starts at the next tick boundary (R297), the last tick boundary handled (ns), whether the speed fell at the last update (R298), homing
phase, reversal, home switch seen, captured position, positions at which the limits latched (R301), filtered limit levels seen, the
place at which this update's travel ends if it reaches it (R297, R299), the steps made since the last boundary that the compare unit
has seen (R293), the start of the last step (2⁻¹⁶ ns), the level of DIR before DIRPOL and its last change in ns (R295), and whether the
outputs have left high impedance (R238). -/
structure StAxis where
  f : Int
  v : Int
  pend : Option Nat
  at_ : Nat
  falling : Bool
  phase : StPhase
  rev : Bool
  seen : Bool
  cap : Option Int
  latP : Int
  latN : Int
  inP : Bool
  inN : Bool
  inH : Bool
  goal : Option Int
  crossed : Int
  stepAt : Option Int
  dir : Bool
  dirAt : Nat
  open_ : Bool
  deriving DecidableEq, Repr

/-- The complete state of a step axis as the stay link carries it (R303): the axis, and of its registers the profile state, POS, VEL, TGT,
the limit latches, HOMED, the DLIM in effect and whether one is deferred. -/
structure AxisMsg where
  axis : StAxis
  state : Fin 5
  pos : Word
  vel : Word
  tgt : Word
  limP : Bool
  limN : Bool
  homed : Bool
  dlim : Word
  deferred : Bool
  deriving DecidableEq, Repr

/-- A received or transmitted CAN frame (R329, R330): identifier in the form of R329, flags and data. -/
structure CanFrame where
  id : BitVec 29
  ide : Bool
  rtr : Bool
  dlc : Fin 16
  fdf : Bool
  brs : Bool
  esi : Bool
  data : List Byte
  deriving DecidableEq, Repr

/-- A ticket as the stay link carries it (R134, R230): number, arm, KIND, NSHAPE, shape words, SEQ. -/
structure TicketRec where
  ticket : Nat
  arm : Fin 8
  bricks : Bool
  nshape : Nat
  shape : List Word
  seq : BitVec 16
  deriving DecidableEq, Repr

/-- One outcome of a canvas step as the stay link carries it (R230): voxel bytes by offset, tickets granted and freed. -/
structure CanvasRec where
  voxels : List (Nat × Byte)
  grants : List TicketRec
  frees : List Nat
  deriving DecidableEq, Repr

/-- A register of a context as resynchronisation sends it (R242): engine, context, selector of format V, value. -/
structure SeReg where
  engine : Fin 8
  ctx : Ctx
  sel : BitVec 6
  value : Int
  deriving DecidableEq, Repr

/-- A submission record or a result record of the spar array on the stay link (R230). -/
inductive SparRec where
  | submission (desc : List Word) (entries : List Word)
  | result (inst : Fin 128) (words : List Word)
  deriving DecidableEq, Repr

/-- Which compare unit a write of a compare position addresses (R293). -/
inductive CmpUnit where
  | fb (p : Fin 8)
  | st (s : Fin 8)
  deriving DecidableEq, Repr

/-- The memories that carry ECC (R98, R120, R148, R371). -/
inductive EccMem where
  | gsram
  | dram
  | tcmAc (c : Fin 4)
  | tcmSc (c : Fin 2)
  | engine (e : Fin 8)
  | lane (k : Fin 32)
  | canvas
  | tickets
  deriving DecidableEq, Repr

/-- A memory error: where, and whether it is of a single bit, which is corrected (R371). -/
structure MemErr where
  mem : EccMem
  single : Bool
  deriving DecidableEq, Repr

/-- The reader of a word with an uncorrectable error (R371). -/
inductive EccReader where
  | core (i : Initiator)
  | fetch (i : Initiator)
  | host
  | spar (lane : Fin 32)
  | canvas
  deriving DecidableEq, Repr

end Sys2Proof
end

