-- ==== Sys2Proof/Syntax.lean ====
section
/-! DEFINITION. The commands of the block: one constructor per row of spec/opcode_table.json. The table gives
its rows no operand fields; the operands are those that the rules of each row need. -/

namespace Sys2Proof

/-- A command: one step of the part, in the order of spec/opcode_table.json. -/
inductive Instr where
  -- cell and rates
  | servoCycleStart (n : Fin 8)
  | shroudCycleStart
  | planCycleStart
  | halyardTick
  | commandLatchPoint (n : Fin 8)
  | staleFault (n : Fin 8)
  -- cell time
  | ctIncriWrite (i : Initiator) (v : Word)
  | ctIncrWrite (i : Initiator) (v : Word)
  | ctSlewWrite (i : Initiator) (v : Word)
  | ctSlewCtlWrite (i : Initiator) (v : Word)
  | slewEnd
  | step (i : Initiator) (v : Word)
  | ctNowLoRead (i : Initiator)
  | por
  | timerArm (i : Initiator) (n : Fin 16) (v : Word)
  | timerTargetWrite (i : Initiator) (n : Fin 16) (v : Word)
  | timerFire (n : Fin 16)
  | windowArm (i : Initiator) (n : Fin 8) (v : Word)
  | windowOpen (n : Fin 8)
  | windowClose (n : Fin 8)
  | latchCapture (n : Fin 32) (falling : Bool) (ts : Stamp)
  | latchFracRead (i : Initiator) (n : Fin 32)
  | launchTime (p : Fin 2) (q : Fin 8)
  -- joint control
  | enable (i : Initiator) (k : Fin 64)
  | disable (i : Initiator) (k : Fin 64)
  | jointHome (i : Initiator) (k : Fin 64)
  | jointClear (i : Initiator) (k : Fin 64)
  | hold (i : Initiator) (n : Fin 8)
  | traj (i : Initiator) (n : Fin 8)
  | jog (i : Initiator) (n : Fin 8)
  | armMove (i : Initiator) (n : Fin 8)
  | armStop (i : Initiator) (n : Fin 8)
  | resume (i : Initiator) (n : Fin 8)
  | enableAll (i : Initiator) (n : Fin 8)
  | disableAll (i : Initiator) (n : Fin 8)
  | clearAll (i : Initiator) (n : Fin 8)
  | horizonCommit (i : Initiator) (n : Fin 8)
  | armApply (i : Initiator) (n : Fin 8) (t : Word)
  | enableTimeout (k : Fin 64)
  | nofbFault (n : Fin 8)
  | ferrFault (k : Fin 64)
  | homeHardstopDetect (k : Fin 64)
  | engineWake (n : Fin 8)
  -- servo engine instructions
  | mpy (e : Fin 8) (c : Ctx) (a : Fin 4) (dm dn : Fin 8) (l : MLoads)
  | mac (e : Fin 8) (c : Ctx) (a : Fin 4) (dm dn : Fin 8) (l : MLoads)
  | msu (e : Fin 8) (c : Ctx) (a : Fin 4) (dm dn : Fin 8) (l : MLoads)
  | clr (e : Fin 8) (c : Ctx) (a : Fin 4) (l : MLoads)
  | movl (e : Fin 8) (c : Ctx) (l : MLoads)
  | add (e : Fin 8) (c : Ctx) (ad as : Fin 4)
  | sub (e : Fin 8) (c : Ctx) (ad as : Fin 4)
  | addd (e : Fin 8) (c : Ctx) (ad : Fin 4) (dx : Fin 8) (sh : Fin 64)
  | sha (e : Fin 8) (c : Ctx) (ad : Fin 4) (sh : BitVec 6)
  | she (e : Fin 8) (c : Ctx) (ad : Fin 4) (ej ek : Fin 8) (sh : BitVec 6)
  | neg (e : Fin 8) (c : Ctx) (ad : Fin 4)
  | abs (e : Fin 8) (c : Ctx) (ad : Fin 4)
  | clmp (e : Fin 8) (c : Ctx) (ad : Fin 4) (dx dy : Fin 8) (sh : Fin 64)
  | cls (e : Fin 8) (c : Ctx) (dx : Fin 8) (as : Fin 4)
  | mvd (e : Fin 8) (c : Ctx) (dx : Fin 8) (as : Fin 4) (sh : Fin 64)
  | mva (e : Fin 8) (c : Ctx) (ad : Fin 4) (dx : Fin 8) (sh : Fin 64)
  | ld (e : Fin 8) (c : Ctx) (dk : Fin 8) (m : LAddr)
  | st (e : Fin 8) (c : Ctx) (dk : Fin 8) (m : LAddr)
  | lda (e : Fin 8) (c : Ctx) (ak : Fin 4) (m : LAddr)
  | sta (e : Fin 8) (c : Ctx) (ak : Fin 4) (m : LAddr)
  | lde (e : Fin 8) (c : Ctx) (ek : Fin 8) (m : LAddr)
  | ldp (e : Fin 8) (c : Ctx) (pk : Fin 8) (m : LAddr)
  | mvr (e : Fin 8) (c : Ctx) (dst src : BitVec 6)
  | ldi (e : Fin 8) (c : Ctx) (dst : BitVec 6) (imm : BitVec 16)
  | clrs (e : Fin 8) (c : Ctx)
  | br (e : Fin 8) (c : Ctx) (cond : Fin 16) (tgt : BitVec 14)
  | call (e : Fin 8) (c : Ctx) (tgt : BitVec 14)
  | ret (e : Fin 8) (c : Ctx)
  | dbnz (e : Fin 8) (c : Ctx) (dd : Fin 8) (tgt : BitVec 14)
  | rep (e : Fin 8) (c : Ctx) (creg : Bool) (dd : Fin 8) (count : Fin 512)
  | cend (e : Fin 8) (c : Ctx)
  | bend (e : Fin 8) (c : Ctx)
  | nop (e : Fin 8) (c : Ctx)
  | trap (e : Fin 8) (c : Ctx) (code : BitVec 16)
  -- servo engine debug
  | haltreq (i : Initiator) (e : Fin 8)
  | debugResume (i : Initiator) (e : Fin 8)
  | debugStep (i : Initiator) (e : Fin 8)
  | debugDataWrite (i : Initiator) (e : Fin 8) (v : Word)
  | monclr (i : Initiator) (e : Fin 8) (v : Word)
  -- spar array
  | submit (i : Initiator) (addr : Word)
  | dispatch
  | solveEnd (k : Fin 32)
  | stopInstant (k : Fin 32)
  | expired (inst : Fin 128)
  | laneFault (k : Fin 32)
  -- canvas map
  | claim (i : Initiator) (desc : Word)
  | release (i : Initiator) (desc : Word)
  | relall (i : Initiator) (desc : Word)
  | cancel (i : Initiator) (desc : Word)
  | probe (i : Initiator) (desc : Word)
  | setstatic (i : Initiator) (desc : Word)
  | clrstatic (i : Initiator) (desc : Word)
  | claimTimeout
  -- shroud monitor
  | presenceSegment (s : Fin 8) (fragmented : Bool) (d : Datagram)
  | channel1Result
  | channel2Result
  | shApply (i : Initiator) (t : Word)
  | forcedRelease (i : Initiator) (n : Fin 8)
  | soClear (i : Initiator) (m : Fin 2) (rbA rbB : Bool)
  | safeOutputReadback (m : Fin 2) (rbA rbB : Bool)
  | testPulse (m : Fin 2) (wireB : Bool) (rb : Bool)
  -- Tuitra lines
  | reply (n : Fin 8) (f : LineFrame)
  | mbRead (i : Initiator) (n : Fin 8) (v : Word)
  | mbWrite (i : Initiator) (n : Fin 8) (v : Word)
  | mbIdent (i : Initiator) (n : Fin 8) (v : Word)
  | mbreq (n : Fin 8)
  | mbrsp (n : Fin 8) (f : LineFrame)
  | partnerCycleFrame (n : Fin 8) (f : LineFrame)
  | coldFrame (n : Fin 8) (f : LineFrame)
  | collisionWaitEnd (n : Fin 8)
  | lineRun (i : Initiator) (n : Fin 8) (v : Word)
  | lineStop (i : Initiator) (n : Fin 8) (v : Word)
  | listenEnd (n : Fin 8)
  | coldCycleStart (n : Fin 8)
  | coldMbrsp (n : Fin 8) (f : LineFrame)
  | verifyTimeout (n : Fin 8)
  | integTimeout (n : Fin 8)
  | ftaRound
  | linkUp (q : Fin 16) (master : Bool)
  | linkDown (q : Fin 16)
  -- redundant pair
  | heartbeatSend
  | heartbeat (m : HeartbeatMsg)
  | heartbeatLoss
  | stayLinkUp (lane : Fin 2) (digest : BitVec 64)
  | stayLinkDown (lane : Fin 2)
  | partnerMask (n : Fin 8) (mask : BitVec 10) (crcs : List (Nat × Word))
  | cycleMessage (n : Fin 8) (m : CycleMsg)
  | forwardedWrite (addr : Word) (v : Word)
  | forwardQueueRoom
  | checkpointPage (page : Nat) (data : List Byte) (last : Bool)
  | backlogTimeout
  | handover (i : Initiator)
  | handoverInstant
  | pairHalt (i : Initiator)
  | unhalt (i : Initiator)
  | join (i : Initiator)
  | resyncStart
  | resyncPassEnd (same : List Nat)
  | staySparRecord (r : SparRec)
  | stayCanvasRecord (r : CanvasRec)
  | stayShroudOutputs (outs : List (Fin 8 × BitVec 16 × Bool)) (apply : Option Word)
  | axisStateSend
  | stayAxisState (s : Fin 8) (m : AxisMsg)
  -- halyard
  | postNow (i : Initiator) (v : Word)
  | postDelay (i : Initiator) (v : Word)
  | postWait (i : Initiator) (v : Word)
  | signal (i : Initiator) (v : Word)
  | delayExpiry
  | waitTimeout
  | delivery
  | done (i : Initiator) (c : Fin 4)
  | itemAcknowledge (i : Initiator) (c : Fin 4)
  | serviceOverrun (c : Fin 4)
  | eventPost (c : Fin 64) (ts : Word)
  | eventSignal (c : Fin 64)
  | heldItemSlot
  -- cores
  | timeCsrRead (c : Fin 4)
  | cacheLineWriteback (c : Fin 4) (addr : Word)
  | cacheLineDiscard (c : Fin 4) (addr : Word)
  | cacheFlush (c : Fin 4)
  | lockstepError (c : Fin 2) (pc : Word)
  -- PWM and sampling
  | groupEnable (i : Initiator) (g : Fin 8) (v : Word)
  | periodBoundary (g : Fin 8)
  | carrierPeak (g : Fin 8)
  | commit (i : Initiator) (g : Fin 8)
  | pwClear (i : Initiator) (g : Fin 8)
  | strip (i : Initiator) (g : Fin 8)
  | trip (input : Fin 10) (short : Bool)
  | dllLock
  | dllLost (d : Fin 128)
  | adcHold (net : Fin 512)
  | conversionEnd (c : Fin 24) (raw : BitVec 16)
  | resRead (i : Initiator) (c : Fin 24)
  -- feedback ports and compare units
  | feedbackEdge (p : Fin 8) (a b z : Bool) (ts : Stamp)
  | indexEdge (p : Fin 8) (a b : Bool) (ts : Stamp)
  | ssiTrigger (p : Fin 8) (dataHigh : Bool) (ts : Stamp)
  | ssiFrameEnd (p : Fin 8) (bits : Word) (err : Bool)
  | lineflt (p : Fin 8) (pair : Fin 3)
  | fbPosWrite (i : Initiator) (p : Fin 8) (v : Word)
  | compareWrite (i : Initiator) (u : CmpUnit) (v : Word)
  | eisTzero (p : Fin 8)
  -- step axes
  | axisMove (i : Initiator) (s : Fin 8)
  | vel (i : Initiator) (s : Fin 8)
  | axisStop (i : Initiator) (s : Fin 8)
  | axisHome (i : Initiator) (s : Fin 8)
  | hardstop (i : Initiator) (s : Fin 8)
  | stopnetEdge (s : Fin 8)
  | dlimWrite (i : Initiator) (s : Fin 8) (v : Word)
  -- field inputs and outputs
  | inputChange (k : Fin 32)
  | rawEdge (k : Fin 32) (level : Bool) (ts : Stamp)
  | cos0Read (i : Initiator)
  | cos1Read (i : Initiator)
  | doSet (i : Initiator) (v : Word)
  | doRes (i : Initiator) (v : Word)
  | outputOverload (j : Fin 16) (thermal : Bool)
  | openLoad (j : Fin 16)
  | vfieldLow (mv : BitVec 16)
  | vfieldCut (mv : BitVec 16)
  | vfok (mv : BitVec 16)
  | vfrearm (i : Initiator)
  -- CAN
  | req (i : Initiator) (k : Fin 4) (b : Fin 3)
  | abort (i : Initiator) (k : Fin 4) (b : Fin 3)
  | canLaunch (k : Fin 4) (b : Fin 3) (busIdle : Bool)
  | canTxEnd (k : Fin 4) (b : Fin 3) (ok : Bool) (err : Fin 8) (sof : Word)
  | recover (i : Initiator) (k : Fin 4)
  | recoveryEnd (k : Fin 4)
  | canFrameRx (k : Fin 4) (f : CanFrame) (sof : Word)
  | rxwRead (i : Initiator) (k : Fin 4) (w : Fin 19)
  | rxLockTimeout (k : Fin 4)
  | rxunlock (i : Initiator) (k : Fin 4)
  -- rig, flash and fuses
  | flashRead (i : Initiator)
  | flashProgram (i : Initiator)
  | flashErase (i : Initiator)
  | flashOpEnd (fail : Bool)
  | rigApply (i : Initiator) (v : Word)
  | rollup (i : Initiator) (v : Word)
  | calwrite (i : Initiator) (v : Word)
  | keyprog (i : Initiator) (v : Word)
  | keyrev (i : Initiator) (v : Word)
  | keylock (i : Initiator) (v : Word)
  -- host access
  | pcieRequest (write : Bool) (addr : Word) (beOk : Bool) (len : Nat) (data : List Byte)
  | msixUnmask (v : Fin 32)
  | doorbell (i : Initiator) (v : Word)
  | peFrameRx (p : Fin 2) (fcsOk : Bool) (frame : List Byte) (ts : Stamp)
  | rxBufferPush (i : Initiator) (p : Fin 2) (v : Word)
  | rxBufferPop (i : Initiator) (p : Fin 2)
  | txDescriptorPush (i : Initiator) (p : Fin 2) (q : Fin 8) (v : Word)
  | txDescriptorPop (i : Initiator) (p : Fin 2) (q : Fin 8)
  | hdsRead (p : Fin 2) (src : Word) (payload : List Byte)
  | hdsWrite (p : Fin 2) (src : Word) (payload : List Byte)
  -- faults, power and resets
  | eccError (e : MemErr) (addr : Word) (r : EccReader)
  | underWay (i : Initiator)
  | reef (i : Initiator)
  | furl (i : Initiator)
  | powerFail (vbak : BitVec 16)
  | feedFail (feedB : Bool) (mv : BitVec 16)
  | feedGood (feedB : Bool) (mv : BitVec 16)
  | wakePin
  | alarmArm (i : Initiator) (v : Word)
  | wakeAlarm
  | powerGood (pairEn pairId : Bool)
  | resetPin
  | softwareReset (i : Initiator) (v : Word)
  | perst
  | watchdogKick (i : Initiator) (v : Word)
  | watchdogExpiry
  | temperatureReading (t : BitVec 16)
  | thermalFurl
  -- generic accesses
  | registerWrite (i : Initiator) (addr : Word) (size : Nat) (v : Word)
  | registerRead (i : Initiator) (addr : Word) (k : LoadKind)
  | memoryWrite (i : Initiator) (addr : Word) (d : StoreData)
  -- ends of conditions
  | tripRelease (input : Fin 10)
  | linefltEnd (p : Fin 8) (pair : Fin 3)
  | vflowEnd (mv : BitVec 16)
  | vfokLoss (mv : BitVec 16)
  | peLinkUp (p : Fin 2) (speed : Fin 4) (fullDuplex : Bool)
  | peLinkDown (p : Fin 2)
  | canReceiveError (k : Fin 4) (err : Fin 8)
  | arbitrationLost (k : Fin 4) (b : Fin 3)
  | canBusIntegration (k : Fin 4)
  | ownFrameAtFarEnd (n : Fin 8) (f : LineFrame)
  | rigApplyEnd (flashError : Bool)
  | calwriteEnd (fail : Bool)
  | perstRelease
  | pdAoLoss
  | frameTransmitted (p : Fin 2) (ts : Stamp)
  | checkpointPageSent
  | resyncGranules (adopt : Bool) (data : List (Nat × Byte)) (sets : List SeReg)
  | stayPairMeasurement (n : Fin 8) (x : PairMeas)
  | stayNodeDelayMeans (n : Fin 8) (x : DelayMeans)
  deriving DecidableEq, Repr

end Sys2Proof
end

