-- ==== Sys2Proof/Decode.lean ====
section
/-! DEFINITION. Decoding: the opcode table gives its rows no bits, so no word spells a command; and the decoder and
encoder of the servo engines' instruction words, written from their formats (R89). -/

namespace Sys2Proof

open Sys2Proof.Machine

/-- The command that a word spells by the bits of the opcode table: the table gives no row any bits. -/
def decodeTableWord (_nbits _w : Nat) : Option Instr := none

/-- A field of `n` values from a word, its width being that of `n`. -/
def fin8 (w lo : Nat) : Fin 8 := ⟨bits w lo 3, Nat.mod_lt _ (by decide)⟩
def fin4 (w lo : Nat) : Fin 4 := ⟨bits w lo 2, Nat.mod_lt _ (by decide)⟩
def fin16 (w lo : Nat) : Fin 16 := ⟨bits w lo 4, Nat.mod_lt _ (by decide)⟩
def fin64 (w lo : Nat) : Fin 64 := ⟨bits w lo 6, Nat.mod_lt _ (by decide)⟩
def fin512 (w lo : Nat) : Fin 512 := ⟨bits w lo 9, Nat.mod_lt _ (by decide)⟩

/-- The optional loads of format M. -/
def decodeLoads (w : Nat) : MLoads :=
  ⟨w.testBit 3, fin8 w 15, fin8 w 12, w.testBit 11, w.testBit 2, fin8 w 8, fin8 w 5, w.testBit 4⟩

/-- The address form of format L. -/
def decodeAddr (w : Nat) : LAddr := ⟨fin8 w 20, BitVec.ofNat 12 w, w.testBit 19⟩

/-- An accumulator number in the REG field of format L: values 4 to 7 name none. -/
def decodeAcc (w : Nat) : Option (Fin 4) := if w.testBit 25 then none else some (fin4 w 23)

/-- A servo engine instruction word decoded (R89): none for an undefined OP. -/
def decodeSe (word : Word) : Option SeInstr :=
  let w := word.toNat
  match bits w 26 6 with
  | 0x01 => some (.mpy (fin4 w 24) (fin8 w 21) (fin8 w 18) (decodeLoads w))
  | 0x02 => some (.mac (fin4 w 24) (fin8 w 21) (fin8 w 18) (decodeLoads w))
  | 0x03 => some (.msu (fin4 w 24) (fin8 w 21) (fin8 w 18) (decodeLoads w))
  | 0x04 => some (.clr (fin4 w 24) (decodeLoads w))
  | 0x05 => some (.movl (decodeLoads w))
  | 0x08 => some (.add (fin4 w 24) (fin4 w 22))
  | 0x09 => some (.sub (fin4 w 24) (fin4 w 22))
  | 0x0A => some (.addd (fin4 w 24) (fin8 w 19) (fin64 w 7))
  | 0x0B => some (.sha (fin4 w 24) (BitVec.ofNat 6 (w >>> 7)))
  | 0x0C => some (.she (fin4 w 24) (fin8 w 16) (fin8 w 13) (BitVec.ofNat 6 (w >>> 7)))
  | 0x0D => some (.neg (fin4 w 24))
  | 0x0E => some (.abs (fin4 w 24))
  | 0x0F => some (.clmp (fin4 w 24) (fin8 w 19) (fin8 w 16) (fin64 w 7))
  | 0x10 => some (.cls (fin8 w 19) (fin4 w 22))
  | 0x11 => some (.mvd (fin8 w 19) (fin4 w 22) (fin64 w 7))
  | 0x12 => some (.mva (fin4 w 24) (fin8 w 19) (fin64 w 7))
  | 0x18 => some (.ld (fin8 w 23) (decodeAddr w))
  | 0x19 => some (.st (fin8 w 23) (decodeAddr w))
  | 0x1A => (decodeAcc w).map (fun k => .lda k (decodeAddr w))
  | 0x1B => (decodeAcc w).map (fun k => .sta k (decodeAddr w))
  | 0x1C => some (.lde (fin8 w 23) (decodeAddr w))
  | 0x1D => some (.ldp (fin8 w 23) (decodeAddr w))
  | 0x20 => some (.mvr (BitVec.ofNat 6 (w >>> 20)) (BitVec.ofNat 6 (w >>> 14)))
  | 0x21 => some (.ldi (BitVec.ofNat 6 (w >>> 20)) (BitVec.ofNat 16 w))
  | 0x22 => some .clrs
  | 0x30 => some (.br (fin16 w 22) (BitVec.ofNat 14 w))
  | 0x31 => some (.call (BitVec.ofNat 14 w))
  | 0x32 => some .ret
  | 0x33 => some (.dbnz (fin8 w 19) (BitVec.ofNat 14 w))
  | 0x34 => some (.rep (w.testBit 25) (fin8 w 22) (fin512 w 0))
  | 0x38 => some .cend
  | 0x39 => some .bend
  | 0x3C => some .nop
  | 0x3D => some (.trap (BitVec.ofNat 16 w))
  | _ => none

/-- The bits of the optional loads. -/
def encodeLoads (l : MLoads) : Nat :=
  l.la.val * 2 ^ 15 + l.pa.val * 2 ^ 12 + b2n l.ua * 2 ^ 11 + l.lb.val * 2 ^ 8 + l.pb.val * 2 ^ 5 +
    b2n l.ub * 2 ^ 4 + b2n l.laen * 2 ^ 3 + b2n l.lben * 2 ^ 2

/-- The bits of the address form. -/
def encodeAddr (m : LAddr) : Nat := m.p.val * 2 ^ 20 + b2n m.u * 2 ^ 19 + m.off.toNat

/-- A servo engine instruction encoded (R89); fields that an instruction does not use are 0. -/
def encodeSe (i : SeInstr) : Word :=
  BitVec.ofNat 32 (match i with
  | .mpy a dm dn l => 0x01 * 2 ^ 26 + a.val * 2 ^ 24 + dm.val * 2 ^ 21 + dn.val * 2 ^ 18 + encodeLoads l
  | .mac a dm dn l => 0x02 * 2 ^ 26 + a.val * 2 ^ 24 + dm.val * 2 ^ 21 + dn.val * 2 ^ 18 + encodeLoads l
  | .msu a dm dn l => 0x03 * 2 ^ 26 + a.val * 2 ^ 24 + dm.val * 2 ^ 21 + dn.val * 2 ^ 18 + encodeLoads l
  | .clr a l => 0x04 * 2 ^ 26 + a.val * 2 ^ 24 + encodeLoads l
  | .movl l => 0x05 * 2 ^ 26 + encodeLoads l
  | .add ad as => 0x08 * 2 ^ 26 + ad.val * 2 ^ 24 + as.val * 2 ^ 22
  | .sub ad as => 0x09 * 2 ^ 26 + ad.val * 2 ^ 24 + as.val * 2 ^ 22
  | .addd ad dx sh => 0x0A * 2 ^ 26 + ad.val * 2 ^ 24 + dx.val * 2 ^ 19 + sh.val * 2 ^ 7
  | .sha ad sh => 0x0B * 2 ^ 26 + ad.val * 2 ^ 24 + sh.toNat * 2 ^ 7
  | .she ad ej ek c => 0x0C * 2 ^ 26 + ad.val * 2 ^ 24 + ej.val * 2 ^ 16 + ek.val * 2 ^ 13 + c.toNat * 2 ^ 7
  | .neg ad => 0x0D * 2 ^ 26 + ad.val * 2 ^ 24
  | .abs ad => 0x0E * 2 ^ 26 + ad.val * 2 ^ 24
  | .clmp ad dx dy sh => 0x0F * 2 ^ 26 + ad.val * 2 ^ 24 + dx.val * 2 ^ 19 + dy.val * 2 ^ 16 + sh.val * 2 ^ 7
  | .cls dx as => 0x10 * 2 ^ 26 + as.val * 2 ^ 22 + dx.val * 2 ^ 19
  | .mvd dx as sh => 0x11 * 2 ^ 26 + as.val * 2 ^ 22 + dx.val * 2 ^ 19 + sh.val * 2 ^ 7
  | .mva ad dx sh => 0x12 * 2 ^ 26 + ad.val * 2 ^ 24 + dx.val * 2 ^ 19 + sh.val * 2 ^ 7
  | .ld dk m => 0x18 * 2 ^ 26 + dk.val * 2 ^ 23 + encodeAddr m
  | .st dk m => 0x19 * 2 ^ 26 + dk.val * 2 ^ 23 + encodeAddr m
  | .lda ak m => 0x1A * 2 ^ 26 + ak.val * 2 ^ 23 + encodeAddr m
  | .sta ak m => 0x1B * 2 ^ 26 + ak.val * 2 ^ 23 + encodeAddr m
  | .lde ek m => 0x1C * 2 ^ 26 + ek.val * 2 ^ 23 + encodeAddr m
  | .ldp pk m => 0x1D * 2 ^ 26 + pk.val * 2 ^ 23 + encodeAddr m
  | .mvr dst src => 0x20 * 2 ^ 26 + dst.toNat * 2 ^ 20 + src.toNat * 2 ^ 14
  | .ldi dst imm => 0x21 * 2 ^ 26 + dst.toNat * 2 ^ 20 + imm.toNat
  | .clrs => 0x22 * 2 ^ 26
  | .br cond tgt => 0x30 * 2 ^ 26 + cond.val * 2 ^ 22 + tgt.toNat
  | .call tgt => 0x31 * 2 ^ 26 + tgt.toNat
  | .ret => 0x32 * 2 ^ 26
  | .dbnz dd tgt => 0x33 * 2 ^ 26 + dd.val * 2 ^ 19 + tgt.toNat
  | .rep creg dd count => 0x34 * 2 ^ 26 + b2n creg * 2 ^ 25 + dd.val * 2 ^ 22 + count.val
  | .cend => 0x38 * 2 ^ 26
  | .bend => 0x39 * 2 ^ 26
  | .nop => 0x3C * 2 ^ 26
  | .trap code => 0x3D * 2 ^ 26 + code.toNat)

end Sys2Proof
end

