-- ==== Sys2Proof/Machine/SinTab.lean ====
section
/-! DEFINITION. The default microstep table: T[k] = ⌊65 535 × sin((k + ½) × π / 512)⌋ (chapter Local Axes: Feedback and Step
Generation, Microstepping through a PWM group). -/

namespace Sys2Proof.Machine

/-- Entries 0 to 31. -/
def sinTab0 : List Nat :=
  [201, 603, 1005, 1407, 1809, 2211, 2613, 3014, 3416, 3817, 4219, 4620, 5021, 5422, 5823, 6223,
   6623, 7023, 7423, 7822, 8221, 8620, 9018, 9417, 9814, 10212, 10609, 11005, 11402, 11797, 12193, 12587]

/-- Entries 32 to 63. -/
def sinTab1 : List Nat :=
  [12982, 13376, 13769, 14162, 14554, 14946, 15337, 15728, 16118, 16508, 16896, 17285, 17672, 18059, 18445, 18831,
   19216, 19600, 19983, 20366, 20747, 21128, 21509, 21888, 22267, 22645, 23021, 23398, 23773, 24147, 24520, 24893]

/-- Entries 64 to 95. -/
def sinTab2 : List Nat :=
  [25264, 25635, 26004, 26373, 26741, 27107, 27473, 27837, 28201, 28563, 28925, 29285, 29644, 30002, 30359, 30715,
   31070, 31423, 31775, 32126, 32476, 32825, 33172, 33519, 33864, 34207, 34549, 34891, 35230, 35569, 35906, 36241]

/-- Entries 96 to 127. -/
def sinTab3 : List Nat :=
  [36576, 36909, 37240, 37571, 37899, 38227, 38553, 38877, 39200, 39521, 39841, 40160, 40477, 40792, 41106, 41419,
   41730, 42039, 42347, 42653, 42957, 43260, 43561, 43861, 44159, 44455, 44750, 45043, 45334, 45623, 45911, 46197]

/-- Entries 128 to 159. -/
def sinTab4 : List Nat :=
  [46482, 46764, 47045, 47324, 47601, 47877, 48151, 48422, 48693, 48961, 49227, 49492, 49754, 50015, 50274, 50531,
   50786, 51039, 51291, 51540, 51787, 52033, 52276, 52518, 52757, 52995, 53230, 53464, 53695, 53925, 54152, 54378]

/-- Entries 160 to 191. -/
def sinTab5 : List Nat :=
  [54601, 54823, 55042, 55259, 55474, 55687, 55898, 56107, 56314, 56518, 56721, 56921, 57119, 57316, 57509, 57701,
   57891, 58078, 58263, 58446, 58627, 58806, 58982, 59156, 59328, 59498, 59665, 59830, 59993, 60154, 60313, 60469]

/-- Entries 192 to 223. -/
def sinTab6 : List Nat :=
  [60623, 60774, 60924, 61071, 61215, 61358, 61498, 61636, 61771, 61904, 62035, 62163, 62290, 62413, 62535, 62654,
   62771, 62885, 62997, 63107, 63214, 63319, 63421, 63521, 63619, 63714, 63807, 63898, 63986, 64072, 64155, 64236]

/-- Entries 224 to 255. -/
def sinTab7 : List Nat :=
  [64314, 64390, 64464, 64535, 64604, 64670, 64734, 64795, 64854, 64911, 64965, 65017, 65066, 65113, 65157, 65199,
   65238, 65275, 65310, 65342, 65371, 65399, 65423, 65445, 65465, 65482, 65497, 65510, 65519, 65527, 65532, 65534]

/-- The default entry `k`. -/
def sinTab (k : Nat) : Nat :=
  match k / 32 with
  | 0 => sinTab0.getD (k % 32) 0
  | 1 => sinTab1.getD (k % 32) 0
  | 2 => sinTab2.getD (k % 32) 0
  | 3 => sinTab3.getD (k % 32) 0
  | 4 => sinTab4.getD (k % 32) 0
  | 5 => sinTab5.getD (k % 32) 0
  | 6 => sinTab6.getD (k % 32) 0
  | _ => sinTab7.getD (k % 32) 0

end Sys2Proof.Machine
end

