-- ==== Sys2Proof/RigData.lean ====
section
/-! DEFINITION. What the sections of a rig image say whose byte formats the spec leaves to the composing tool, as plain data. -/

namespace Sys2Proof

/-- A box of presence cells: lower and upper indices, inclusive (R150). -/
structure Box where
  x0 : Nat
  y0 : Nat
  z0 : Nat
  x1 : Nat
  y1 : Nat
  z1 : Nat
  deriving DecidableEq, Repr

/-- A segment's end points in µm of the cell frame: AX, AY, AZ, BX, BY, BZ. -/
abbrev Ends := List Int

/-- A capsule of the rig: arm, group (R153), radius in µm. -/
structure SafeCap where
  arm : Nat
  group : Nat
  r : Nat
  deriving DecidableEq, Repr

/-- The CELL section: EtherType (R10), ENDAMAP (R221), the arm base poses (R13). -/
structure CellCfg where
  etherType : Nat
  endaMap : Nat
  bases : List Byte
  deriving DecidableEq, Repr

/-- A SEPROG section: engine, program words, data segments as (engine byte address, bytes). -/
structure SeProgCfg where
  engine : Nat
  words : List Nat
  data : List (Nat × List Byte)
  deriving DecidableEq, Repr

/-- The COREIMG section: segments as (device address, bytes), entry addresses of AC0 to AC3. -/
structure CoreImgCfg where
  segs : List (Nat × List Byte)
  entries : List Nat
  deriving DecidableEq, Repr

/-- A static shape of the CANVAS section: owner, KIND, NSHAPE, words of the shape list. -/
structure StaticCfg where
  owner : Nat
  kind : Nat
  nshape : Nat
  shape : List Nat
  deriving DecidableEq, Repr

/-- The SAFETY section (chapter The Rig Image and Calibration Set): its bytes, the safety-core program as (device address, bytes)
with its entry address, capsules by number, envelope capsules as end
points and radius by arm (R156), field-of-view boxes by sensor (R152), nominal offsets and tolerances by joint (R155), stopping
points (V, TS, SS) by arm (R158). -/
structure SafetyCfg where
  bytes : List Byte
  prog : List (Nat × List Byte)
  entry : Nat
  caps : List SafeCap
  env : List (Nat × Ends × Nat)
  fov : List (Nat × List Box)
  ofs : List (Nat × Int × Nat)
  stops : List (Nat × List (Nat × Nat × Nat))
  deriving DecidableEq, Repr

def SafetyCfg.none : SafetyCfg := ⟨[], [], 0, [], [], [], [], []⟩

end Sys2Proof
end

