-- ==== Sys2Proof/Config.lean ====
section
/-! DEFINITION. What an implementation fixes and the values that the spec leaves open: constants without a body,
so that no proof can see what they are. -/

namespace Sys2Proof

/-- A value the spec leaves open: `w` bits, the `k`-th that the machine draws. -/
opaque Config.free (w k : Nat) : BitVec w

/-- The grade fuses (GLB_ID.GRADE). -/
opaque Config.gradeFuse : Nat

/-- The serial number in the factory sector, low and high word (GLB_SERIAL_LO, GLB_SERIAL_HI). -/
opaque Config.serialLo : Nat
opaque Config.serialHi : Nat

/-- The factory calibration set's CT_AOINCR, fraction and integer part (R36). -/
opaque Config.factoryAoIncrFrac : Nat
opaque Config.factoryAoIncrInt : Nat

/-- The bytes of the calibration and factory sectors as the factory wrote them (R335, R352). -/
opaque Config.factoryByte : Nat → Byte

/-- The sections of a rig image whose byte formats are the composing tool's: none where the contents break the format. -/
opaque Config.cellOf : List Byte → Option CellCfg
opaque Config.seProgOf : List Byte → Option SeProgCfg
opaque Config.coreImgOf : List Byte → Option CoreImgCfg
opaque Config.safetyOf : List Byte → Option SafetyCfg
opaque Config.sparStrOf : List Byte → Option (Nat × List Byte)
opaque Config.canvasOf : List Byte → Option (List StaticCfg)

/-- The nets to which a rig routes the event outputs of the CAN controllers and the event FIFO's level (R308, R332), by the key of
`RiggingSt.routes`: the image's bytes. -/
opaque Config.routesOf : List Byte → List (Nat × Nat)

/-- A byte of the staging area that nothing has written since the last apply (R346), by address. -/
opaque Config.stageByte : Nat → Byte

/-- A flash byte left by a failed or interrupted operation, or by programming an area that is not erased (R336): the draw that names
it, its address. -/
opaque Config.flashByte (k a : Nat) : Byte

/-- Which of EMPTY, FORMAT and SIGNATURE a slot fails at whose sector a power loss cut off, by the sector's address (R345); modulo 3. -/
opaque Config.tornSlot : Nat → Nat

/-- Which check a calibration set fails that a power loss cut off (R353); modulo 5. -/
opaque Config.tornCal : Nat

/-- The pattern arrays of a structure image, whose layout is Bruntieb's (chapter The Spar Array Solver): the permutation, then
the (row, column) of each P, A and K value, then the rows of each column of L below the diagonal. -/
opaque Config.sparPattern : List Byte → List Nat × List (Nat × Nat) × List (Nat × Nat) × List (Nat × Nat) × List (List Nat)

/-- The scale exponent of the group in which a lane holds the right-hand side and the partial results of a solve, by stage, which the
spec does not name: image, stage. -/
opaque Config.sparWorkExp : List Byte → Nat → Int

/-- A value of an instance that a rebind leaves undefined (R111): the draw that names it, its place. -/
opaque Config.sparUndef (k place : Nat) : BitVec 32

/-- The design values that stand in for a calibration set's PINDLY and PHY bytes (R352), by offset. -/
opaque Config.designByte : Nat → Byte

/-- Channel 2's end points of a capsule of an arm, from the SAFETY section's link table, the capsule's number and, by joint slot,
the raw position count and the offset (R155), whose formula the safety library carries. -/
opaque Config.shPose : List Byte → Nat → List (Nat × Int) → Ends

/-- The revision ID of the PCI Express endpoint, which R356 does not give. -/
opaque Config.pciRevision : Nat

end Sys2Proof
end

