-- ==== Sys2Proof/Machine/Regs.lean ====
section
/-! DEFINITION. Every register of the register blocks (R5, R6, R355 and the register tables of the chapters):
its address, its fields, their access types and their reset values. -/

namespace Sys2Proof.Machine

/-- The access types of register fields (R6). -/
inductive Acc where
  | ro | rw | rws | w1c | w1s | rc | wo
  deriving DecidableEq, Repr

/-- A field of a register: the register's address, the lowest bit and the width. -/
structure Fld where
  addr : Nat
  lo : Nat
  width : Nat
  deriving DecidableEq, Repr

/-- A field as the register tables give it: place, access type, reset value. -/
structure FieldRow where
  lo : Nat
  width : Nat
  acc : Acc
  reset : Nat
  deriving DecidableEq, Repr

/-- A register of the tables, replicated over its indexes: each index has a count and a step. -/
structure RegRow where
  base : Nat
  idx : List (Nat × Nat)
  fields : List FieldRow
  deriving DecidableEq, Repr

/-- GLB_ID (R1). -/
def GLB_ID : Nat := 0x0
def GLB_ID_STEPPING : Fld := ⟨GLB_ID, 0, 8⟩
def GLB_ID_GRADE : Fld := ⟨GLB_ID, 8, 4⟩
def GLB_ID_DEVICE : Fld := ⟨GLB_ID, 16, 16⟩

/-- GLB_SERIAL_LO (R352). -/
def GLB_SERIAL_LO : Nat := 0x4
def GLB_SERIAL_LO_SERIAL : Fld := ⟨GLB_SERIAL_LO, 0, 32⟩

/-- GLB_SERIAL_HI (R352). -/
def GLB_SERIAL_HI : Nat := 0x8
def GLB_SERIAL_HI_SERIAL : Fld := ⟨GLB_SERIAL_HI, 0, 32⟩

/-- GLB_PWR_REQ (R388). -/
def GLB_PWR_REQ : Nat := 0x100
def GLB_PWR_REQ_REQ : Fld := ⟨GLB_PWR_REQ, 0, 2⟩

/-- GLB_PWR_STAT (R388). -/
def GLB_PWR_STAT : Nat := 0x104
def GLB_PWR_STAT_STATE : Fld := ⟨GLB_PWR_STAT, 0, 2⟩
def GLB_PWR_STAT_REFUSED : Fld := ⟨GLB_PWR_STAT, 2, 1⟩
def GLB_PWR_STAT_REASON : Fld := ⟨GLB_PWR_STAT, 3, 4⟩
def GLB_PWR_STAT_WAKESRC : Fld := ⟨GLB_PWR_STAT, 8, 4⟩
def GLB_PWR_STAT_FURLCAUSE : Fld := ⟨GLB_PWR_STAT, 12, 4⟩

/-- GLB_PWR_CFG (R387). -/
def GLB_PWR_CFG : Nat := 0x108
def GLB_PWR_CFG_SPAROFF : Fld := ⟨GLB_PWR_CFG, 0, 2⟩

/-- GLB_WAKE_CFG (R392). -/
def GLB_WAKE_CFG : Nat := 0x10c
def GLB_WAKE_CFG_PIN : Fld := ⟨GLB_WAKE_CFG, 0, 1⟩
def GLB_WAKE_CFG_ALARM : Fld := ⟨GLB_WAKE_CFG, 1, 1⟩
def GLB_WAKE_CFG_FEED : Fld := ⟨GLB_WAKE_CFG, 2, 1⟩
def GLB_WAKE_CFG_DI : Fld := ⟨GLB_WAKE_CFG, 3, 1⟩
def GLB_WAKE_CFG_UW : Fld := ⟨GLB_WAKE_CFG, 8, 1⟩

/-- GLB_WAKE_AT_LO (R393). -/
def GLB_WAKE_AT_LO : Nat := 0x110
def GLB_WAKE_AT_LO_AT : Fld := ⟨GLB_WAKE_AT_LO, 0, 32⟩

/-- GLB_WAKE_AT_HI (R393). -/
def GLB_WAKE_AT_HI : Nat := 0x114
def GLB_WAKE_AT_HI_AT : Fld := ⟨GLB_WAKE_AT_HI, 0, 32⟩

/-- GLB_WAKE_STAT (R393). -/
def GLB_WAKE_STAT : Nat := 0x118
def GLB_WAKE_STAT_ARMED : Fld := ⟨GLB_WAKE_STAT, 0, 1⟩

/-- GLB_FEED_STAT (R384). -/
def GLB_FEED_STAT : Nat := 0x11c
def GLB_FEED_STAT_VA : Fld := ⟨GLB_FEED_STAT, 0, 16⟩
def GLB_FEED_STAT_VB : Fld := ⟨GLB_FEED_STAT, 16, 16⟩

/-- GLB_VBAK (R384). -/
def GLB_VBAK : Nat := 0x120
def GLB_VBAK_MV : Fld := ⟨GLB_VBAK, 0, 16⟩
def GLB_VBAK_AOSRC : Fld := ⟨GLB_VBAK, 16, 1⟩
def GLB_VBAK_AGOOD : Fld := ⟨GLB_VBAK, 17, 1⟩
def GLB_VBAK_BGOOD : Fld := ⟨GLB_VBAK, 18, 1⟩

/-- GLB_TEMP (R399). -/
def GLB_TEMP : Nat := 0x124
def GLB_TEMP_TEMP : Fld := ⟨GLB_TEMP, 0, 16⟩
def GLB_TEMP_WARN : Fld := ⟨GLB_TEMP, 16, 16⟩

/-- GLB_RSTCAUSE (R397). -/
def GLB_RSTCAUSE : Nat := 0x128
def GLB_RSTCAUSE_CAUSE : Fld := ⟨GLB_RSTCAUSE, 0, 4⟩

/-- GLB_RST (R397). -/
def GLB_RST : Nat := 0x12c
def GLB_RST_GO : Fld := ⟨GLB_RST, 0, 1⟩
def GLB_RST_CONFIRM : Fld := ⟨GLB_RST, 16, 16⟩

/-- GLB_WDT_CTL (R398). -/
def GLB_WDT_CTL : Nat := 0x130
def GLB_WDT_CTL_EN : Fld := ⟨GLB_WDT_CTL, 0, 1⟩
def GLB_WDT_CTL_TIMEOUT : Fld := ⟨GLB_WDT_CTL, 16, 16⟩

/-- GLB_WDT_KICK (R398). -/
def GLB_WDT_KICK : Nat := 0x134
def GLB_WDT_KICK_KICK : Fld := ⟨GLB_WDT_KICK, 0, 16⟩

/-- GLB_WDT_LEFT (R398). -/
def GLB_WDT_LEFT : Nat := 0x138
def GLB_WDT_LEFT_LEFT : Fld := ⟨GLB_WDT_LEFT, 0, 16⟩

/-- GLB_FAULT_STICKY (R372). -/
def GLB_FAULT_STICKY (w : Nat) : Nat := 0x200 + 0x4 * w
def GLB_FAULT_STICKY_STICKY (w : Nat) : Fld := ⟨GLB_FAULT_STICKY w, 0, 32⟩

/-- GLB_FAULT_IRQEN (R374). -/
def GLB_FAULT_IRQEN (w : Nat) : Nat := 0x220 + 0x4 * w
def GLB_FAULT_IRQEN_IRQEN (w : Nat) : Fld := ⟨GLB_FAULT_IRQEN w, 0, 32⟩

/-- GLB_FAULT_HALT (R379, R380). -/
def GLB_FAULT_HALT (w : Nat) : Nat := 0x240 + 0x4 * w
def GLB_FAULT_HALT_HALT (w : Nat) : Fld := ⟨GLB_FAULT_HALT w, 0, 32⟩

/-- GLB_FAULT_SUM (R372). -/
def GLB_FAULT_SUM : Nat := 0x260
def GLB_FAULT_SUM_WORDS : Fld := ⟨GLB_FAULT_SUM, 0, 8⟩

/-- GLB_LOG_STAT (R377, R378). -/
def GLB_LOG_STAT : Nat := 0x264
def GLB_LOG_STAT_TOTAL : Fld := ⟨GLB_LOG_STAT, 0, 16⟩
def GLB_LOG_STAT_RINGSKIP : Fld := ⟨GLB_LOG_STAT, 16, 8⟩
def GLB_LOG_STAT_FILLED : Fld := ⟨GLB_LOG_STAT, 24, 7⟩

/-- GLB_LOG_SEL (R377). -/
def GLB_LOG_SEL : Nat := 0x268
def GLB_LOG_SEL_SEL : Fld := ⟨GLB_LOG_SEL, 0, 6⟩

/-- GLB_LOG_W (R377). -/
def GLB_LOG_W (w : Nat) : Nat := 0x26c + 0x4 * w
def GLB_LOG_W_W (w : Nat) : Fld := ⟨GLB_LOG_W w, 0, 32⟩

/-- GLB_RING_BASE (R378). -/
def GLB_RING_BASE : Nat := 0x280
def GLB_RING_BASE_BASE : Fld := ⟨GLB_RING_BASE, 0, 32⟩

/-- GLB_RING_LEN (R378). -/
def GLB_RING_LEN : Nat := 0x284
def GLB_RING_LEN_LEN : Fld := ⟨GLB_RING_LEN, 0, 8⟩

/-- GLB_RING_WR (R378). -/
def GLB_RING_WR : Nat := 0x288
def GLB_RING_WR_WR : Fld := ⟨GLB_RING_WR, 0, 20⟩

/-- GLB_ECC_CNT0 (R371). -/
def GLB_ECC_CNT0 : Nat := 0x290
def GLB_ECC_CNT0_SE : Fld := ⟨GLB_ECC_CNT0, 0, 8⟩
def GLB_ECC_CNT0_LANE : Fld := ⟨GLB_ECC_CNT0, 8, 8⟩
def GLB_ECC_CNT0_CANVAS : Fld := ⟨GLB_ECC_CNT0, 16, 8⟩
def GLB_ECC_CNT0_GSRAM : Fld := ⟨GLB_ECC_CNT0, 24, 8⟩

/-- GLB_ECC_CNT1 (R371). -/
def GLB_ECC_CNT1 : Nat := 0x294
def GLB_ECC_CNT1_DRAM : Fld := ⟨GLB_ECC_CNT1, 0, 8⟩
def GLB_ECC_CNT1_TCM : Fld := ⟨GLB_ECC_CNT1, 8, 8⟩

/-- GLB_HIRQ_STAT (R361). -/
def GLB_HIRQ_STAT : Nat := 0x400
def GLB_HIRQ_STAT_CAUSE : Fld := ⟨GLB_HIRQ_STAT, 0, 32⟩

/-- GLB_HDB (R362). -/
def GLB_HDB : Nat := 0x404
def GLB_HDB_DB : Fld := ⟨GLB_HDB, 0, 8⟩

/-- CT_CTL (R16, R30). -/
def CT_CTL : Nat := 0x10000
def CT_CTL_CFGSRC : Fld := ⟨CT_CTL, 0, 2⟩
def CT_CTL_PTPPORT : Fld := ⟨CT_CTL, 2, 1⟩
def CT_CTL_PPER : Fld := ⟨CT_CTL, 3, 6⟩

/-- CT_STAT (R30, R31, R33). -/
def CT_STAT : Nat := 0x10004
def CT_STAT_VALID : Fld := ⟨CT_STAT, 0, 1⟩
def CT_STAT_STEPPED : Fld := ⟨CT_STAT, 1, 1⟩
def CT_STAT_EFFSRC : Fld := ⟨CT_STAT, 2, 2⟩
def CT_STAT_CLKMODE : Fld := ⟨CT_STAT, 4, 2⟩
def CT_STAT_SLEWING : Fld := ⟨CT_STAT, 6, 1⟩
def CT_STAT_OWNED_WRITE : Fld := ⟨CT_STAT, 7, 1⟩

/-- CT_NOW_LO (R38). -/
def CT_NOW_LO : Nat := 0x10008
def CT_NOW_LO_NOW : Fld := ⟨CT_NOW_LO, 0, 32⟩

/-- CT_NOW_HI (R38). -/
def CT_NOW_HI : Nat := 0x1000c
def CT_NOW_HI_NOW : Fld := ⟨CT_NOW_HI, 0, 32⟩

/-- CT_INCR (R28). -/
def CT_INCR : Nat := 0x10010
def CT_INCR_FRAC : Fld := ⟨CT_INCR, 0, 32⟩

/-- CT_INCRI (R28). -/
def CT_INCRI : Nat := 0x10014
def CT_INCRI_INT : Fld := ⟨CT_INCRI, 0, 8⟩

/-- CT_STEP_LO (R33). -/
def CT_STEP_LO : Nat := 0x10018
def CT_STEP_LO_OFS : Fld := ⟨CT_STEP_LO, 0, 32⟩

/-- CT_STEP_HI (R33). -/
def CT_STEP_HI : Nat := 0x1001c
def CT_STEP_HI_OFS : Fld := ⟨CT_STEP_HI, 0, 32⟩

/-- CT_SLEW (R31). -/
def CT_SLEW : Nat := 0x10020
def CT_SLEW_AMT : Fld := ⟨CT_SLEW, 0, 32⟩

/-- CT_SLEW_CTL (R32). -/
def CT_SLEW_CTL : Nat := 0x10024
def CT_SLEW_CTL_PPM : Fld := ⟨CT_SLEW_CTL, 0, 8⟩

/-- CT_SLEW_REM (R31). -/
def CT_SLEW_REM : Nat := 0x10028
def CT_SLEW_REM_REM : Fld := ⟨CT_SLEW_REM, 0, 32⟩

/-- CT_AOINCR (R36). -/
def CT_AOINCR : Nat := 0x1002c
def CT_AOINCR_FRAC : Fld := ⟨CT_AOINCR, 0, 16⟩
def CT_AOINCR_INT : Fld := ⟨CT_AOINCR, 16, 16⟩

/-- CT_TMR_TGT (R42). -/
def CT_TMR_TGT (n : Nat) : Nat := 0x10100 + 0x10 * n
def CT_TMR_TGT_TGT (n : Nat) : Fld := ⟨CT_TMR_TGT n, 0, 32⟩

/-- CT_TMR_PER (R41). -/
def CT_TMR_PER (n : Nat) : Nat := 0x10104 + 0x10 * n
def CT_TMR_PER_PER (n : Nat) : Fld := ⟨CT_TMR_PER n, 0, 32⟩

/-- CT_TMR_CTL (R41, R43). -/
def CT_TMR_CTL (n : Nat) : Nat := 0x10108 + 0x10 * n
def CT_TMR_CTL_EN (n : Nat) : Fld := ⟨CT_TMR_CTL n, 0, 1⟩
def CT_TMR_CTL_NETEN (n : Nat) : Fld := ⟨CT_TMR_CTL n, 1, 1⟩
def CT_TMR_CTL_NET (n : Nat) : Fld := ⟨CT_TMR_CTL n, 2, 9⟩
def CT_TMR_CTL_FINE (n : Nat) : Fld := ⟨CT_TMR_CTL n, 11, 1⟩
def CT_TMR_CTL_HAL (n : Nat) : Fld := ⟨CT_TMR_CTL n, 12, 1⟩
def CT_TMR_CTL_IRQ (n : Nat) : Fld := ⟨CT_TMR_CTL n, 13, 1⟩
def CT_TMR_CTL_WIDTH (n : Nat) : Fld := ⟨CT_TMR_CTL n, 14, 4⟩

/-- CT_TMR_STAT (R44). -/
def CT_TMR_STAT (n : Nat) : Nat := 0x1010c + 0x10 * n
def CT_TMR_STAT_FIRED (n : Nat) : Fld := ⟨CT_TMR_STAT n, 0, 1⟩
def CT_TMR_STAT_OVER (n : Nat) : Fld := ⟨CT_TMR_STAT n, 8, 8⟩

/-- CT_WIN_OPEN (R45). -/
def CT_WIN_OPEN (n : Nat) : Nat := 0x10200 + 0x10 * n
def CT_WIN_OPEN_OPEN (n : Nat) : Fld := ⟨CT_WIN_OPEN n, 0, 32⟩

/-- CT_WIN_CLOSE (R45). -/
def CT_WIN_CLOSE (n : Nat) : Nat := 0x10204 + 0x10 * n
def CT_WIN_CLOSE_CLOSE (n : Nat) : Fld := ⟨CT_WIN_CLOSE n, 0, 32⟩

/-- CT_WIN_CTL (R45, R46). -/
def CT_WIN_CTL (n : Nat) : Nat := 0x10208 + 0x10 * n
def CT_WIN_CTL_EN (n : Nat) : Fld := ⟨CT_WIN_CTL n, 0, 1⟩
def CT_WIN_CTL_NETEN (n : Nat) : Fld := ⟨CT_WIN_CTL n, 1, 1⟩
def CT_WIN_CTL_NET (n : Nat) : Fld := ⟨CT_WIN_CTL n, 2, 9⟩
def CT_WIN_CTL_HALOPEN (n : Nat) : Fld := ⟨CT_WIN_CTL n, 11, 1⟩
def CT_WIN_CTL_HALCLOSE (n : Nat) : Fld := ⟨CT_WIN_CTL n, 12, 1⟩
def CT_WIN_CTL_PER (n : Nat) : Fld := ⟨CT_WIN_CTL n, 13, 19⟩

/-- CT_WIN_STAT (R45). -/
def CT_WIN_STAT (n : Nat) : Nat := 0x1020c + 0x10 * n
def CT_WIN_STAT_ACTIVE (n : Nat) : Fld := ⟨CT_WIN_STAT n, 0, 1⟩
def CT_WIN_STAT_EMPTY (n : Nat) : Fld := ⟨CT_WIN_STAT n, 1, 1⟩
def CT_WIN_STAT_MISSED (n : Nat) : Fld := ⟨CT_WIN_STAT n, 2, 1⟩

/-- CT_LAT_NS (R47). -/
def CT_LAT_NS (n : Nat) : Nat := 0x10400 + 0x10 * n
def CT_LAT_NS_NS (n : Nat) : Fld := ⟨CT_LAT_NS n, 0, 32⟩

/-- CT_LAT_FRAC (R47). -/
def CT_LAT_FRAC (n : Nat) : Nat := 0x10404 + 0x10 * n
def CT_LAT_FRAC_FRAC (n : Nat) : Fld := ⟨CT_LAT_FRAC n, 0, 16⟩

/-- CT_LAT_CTL (R47, R48). -/
def CT_LAT_CTL (n : Nat) : Nat := 0x10408 + 0x10 * n
def CT_LAT_CTL_EN (n : Nat) : Fld := ⟨CT_LAT_CTL n, 0, 1⟩
def CT_LAT_CTL_NET (n : Nat) : Fld := ⟨CT_LAT_CTL n, 1, 9⟩
def CT_LAT_CTL_EDGE (n : Nat) : Fld := ⟨CT_LAT_CTL n, 10, 2⟩
def CT_LAT_CTL_WINEN (n : Nat) : Fld := ⟨CT_LAT_CTL n, 12, 1⟩
def CT_LAT_CTL_WIN (n : Nat) : Fld := ⟨CT_LAT_CTL n, 13, 3⟩

/-- CT_LAT_STAT (R47). -/
def CT_LAT_STAT (n : Nat) : Nat := 0x1040c + 0x10 * n
def CT_LAT_STAT_VALID (n : Nat) : Fld := ⟨CT_LAT_STAT n, 0, 1⟩
def CT_LAT_STAT_POL (n : Nat) : Fld := ⟨CT_LAT_STAT n, 1, 1⟩
def CT_LAT_STAT_OVERRUN (n : Nat) : Fld := ⟨CT_LAT_STAT n, 2, 1⟩

/-- HAL_CTL (R253, R259). -/
def HAL_CTL : Nat := 0x20000
def HAL_CTL_RUN : Fld := ⟨HAL_CTL, 0, 1⟩
def HAL_CTL_HWRES : Fld := ⟨HAL_CTL, 16, 12⟩

/-- HAL_STAT (R257). -/
def HAL_STAT : Nat := 0x20004
def HAL_STAT_FREE : Fld := ⟨HAL_STAT, 0, 13⟩
def HAL_STAT_DELAYS : Fld := ⟨HAL_STAT, 16, 11⟩
def HAL_STAT_WSAT : Fld := ⟨HAL_STAT, 27, 1⟩

/-- HAL_POST (R253). -/
def HAL_POST : Nat := 0x20008
def HAL_POST_POST : Fld := ⟨HAL_POST, 0, 32⟩

/-- HAL_PARG0 (R253). -/
def HAL_PARG0 : Nat := 0x2000c
def HAL_PARG0_ARG : Fld := ⟨HAL_PARG0, 0, 32⟩

/-- HAL_PARG1 (R253). -/
def HAL_PARG1 : Nat := 0x20010
def HAL_PARG1_ARG : Fld := ⟨HAL_PARG1, 0, 32⟩

/-- HAL_PTIME (R253). -/
def HAL_PTIME : Nat := 0x20014
def HAL_PTIME_TIME : Fld := ⟨HAL_PTIME, 0, 32⟩

/-- HAL_WSIG (R257). -/
def HAL_WSIG : Nat := 0x20018
def HAL_WSIG_WOBJ : Fld := ⟨HAL_WSIG, 0, 8⟩
def HAL_WSIG_N : Fld := ⟨HAL_WSIG, 8, 16⟩

/-- HAL_CNT (R253, R259). -/
def HAL_CNT : Nat := 0x2001c
def HAL_CNT_FULL : Fld := ⟨HAL_CNT, 0, 8⟩
def HAL_CNT_DLYFULL : Fld := ⟨HAL_CNT, 8, 8⟩
def HAL_CNT_TIMEOUTS : Fld := ⟨HAL_CNT, 16, 8⟩
def HAL_CNT_MERGES : Fld := ⟨HAL_CNT, 24, 8⟩

/-- HAL_CTSRC (R259). -/
def HAL_CTSRC (k : Nat) : Nat := 0x20080 + 0x4 * k
def HAL_CTSRC_FLOW (k : Nat) : Fld := ⟨HAL_CTSRC k, 0, 8⟩
def HAL_CTSRC_PRIO (k : Nat) : Fld := ⟨HAL_CTSRC k, 8, 3⟩

/-- HAL_C_ITEM0 (R249). -/
def HAL_C_ITEM0 (c : Nat) : Nat := 0x20100 + 0x20 * c
def HAL_C_ITEM0_ITEM0 (c : Nat) : Fld := ⟨HAL_C_ITEM0 c, 0, 32⟩

/-- HAL_C_ARG0 (R249). -/
def HAL_C_ARG0 (c : Nat) : Nat := 0x20104 + 0x20 * c
def HAL_C_ARG0_ARG (c : Nat) : Fld := ⟨HAL_C_ARG0 c, 0, 32⟩

/-- HAL_C_ARG1 (R249). -/
def HAL_C_ARG1 (c : Nat) : Nat := 0x20108 + 0x20 * c
def HAL_C_ARG1_ARG (c : Nat) : Fld := ⟨HAL_C_ARG1 c, 0, 32⟩

/-- HAL_C_TIME (R249). -/
def HAL_C_TIME (c : Nat) : Nat := 0x2010c + 0x20 * c
def HAL_C_TIME_TIME (c : Nat) : Fld := ⟨HAL_C_TIME c, 0, 32⟩

/-- HAL_C_ENTRY (R249). -/
def HAL_C_ENTRY (c : Nat) : Nat := 0x20110 + 0x20 * c
def HAL_C_ENTRY_ENTRY (c : Nat) : Fld := ⟨HAL_C_ENTRY c, 0, 32⟩

/-- HAL_C_DONE (R249). -/
def HAL_C_DONE (c : Nat) : Nat := 0x20114 + 0x20 * c
def HAL_C_DONE_DONE (c : Nat) : Fld := ⟨HAL_C_DONE c, 0, 32⟩

/-- HAL_C_CTL (R252, R262). -/
def HAL_C_CTL (c : Nat) : Nat := 0x20118 + 0x20 * c
def HAL_C_CTL_EN (c : Nat) : Fld := ⟨HAL_C_CTL c, 0, 1⟩
def HAL_C_CTL_IE (c : Nat) : Fld := ⟨HAL_C_CTL c, 1, 1⟩
def HAL_C_CTL_SVCLIM (c : Nat) : Fld := ⟨HAL_C_CTL c, 16, 16⟩

/-- HAL_C_STAT (R249, R252). -/
def HAL_C_STAT (c : Nat) : Nat := 0x2011c + 0x20 * c
def HAL_C_STAT_STATE (c : Nat) : Fld := ⟨HAL_C_STAT c, 0, 2⟩
def HAL_C_STAT_OVERRUN (c : Nat) : Fld := ⟨HAL_C_STAT c, 2, 1⟩
def HAL_C_STAT_BADDONE (c : Nat) : Fld := ⟨HAL_C_STAT c, 3, 1⟩
def HAL_C_STAT_SVC (c : Nat) : Fld := ⟨HAL_C_STAT c, 16, 16⟩

/-- HAL_FLOW_CFG (R245, R246). -/
def HAL_FLOW_CFG (f : Nat) : Nat := 0x20400 + 0x8 * f
def HAL_FLOW_CFG_USED (f : Nat) : Fld := ⟨HAL_FLOW_CFG f, 0, 1⟩
def HAL_FLOW_CFG_ATOMIC (f : Nat) : Fld := ⟨HAL_FLOW_CFG f, 1, 1⟩
def HAL_FLOW_CFG_PRIO (f : Nat) : Fld := ⟨HAL_FLOW_CFG f, 2, 3⟩
def HAL_FLOW_CFG_CORES (f : Nat) : Fld := ⟨HAL_FLOW_CFG f, 8, 4⟩
def HAL_FLOW_CFG_QUOTA (f : Nat) : Fld := ⟨HAL_FLOW_CFG f, 16, 12⟩

/-- HAL_FLOW_ENTRY (R245). -/
def HAL_FLOW_ENTRY (f : Nat) : Nat := 0x20404 + 0x8 * f
def HAL_FLOW_ENTRY_ENTRY (f : Nat) : Fld := ⟨HAL_FLOW_ENTRY f, 0, 32⟩

/-- HAL_FLOW_STAT (R245). -/
def HAL_FLOW_STAT (f : Nat) : Nat := 0x20c00 + 0x4 * f
def HAL_FLOW_STAT_READY (f : Nat) : Fld := ⟨HAL_FLOW_STAT f, 0, 13⟩
def HAL_FLOW_STAT_INSERV (f : Nat) : Fld := ⟨HAL_FLOW_STAT f, 13, 3⟩
def HAL_FLOW_STAT_BUSY (f : Nat) : Fld := ⟨HAL_FLOW_STAT f, 16, 1⟩
def HAL_FLOW_STAT_HELD (f : Nat) : Fld := ⟨HAL_FLOW_STAT f, 20, 12⟩

/-- HAL_WOBJ (R257). -/
def HAL_WOBJ (w : Nat) : Nat := 0x21000 + 0x4 * w
def HAL_WOBJ_COUNT (w : Nat) : Fld := ⟨HAL_WOBJ w, 0, 16⟩
def HAL_WOBJ_WAITERS (w : Nat) : Fld := ⟨HAL_WOBJ w, 16, 12⟩

/-- HAL_EV_CFG (R259). -/
def HAL_EV_CFG (c : Nat) : Nat := 0x21400 + 0x4 * c
def HAL_EV_CFG_EN (c : Nat) : Fld := ⟨HAL_EV_CFG c, 0, 1⟩
def HAL_EV_CFG_NET (c : Nat) : Fld := ⟨HAL_EV_CFG c, 1, 9⟩
def HAL_EV_CFG_EDGE (c : Nat) : Fld := ⟨HAL_EV_CFG c, 10, 2⟩
def HAL_EV_CFG_MODE (c : Nat) : Fld := ⟨HAL_EV_CFG c, 12, 1⟩
def HAL_EV_CFG_FLOW (c : Nat) : Fld := ⟨HAL_EV_CFG c, 16, 8⟩
def HAL_EV_CFG_PRIO (c : Nat) : Fld := ⟨HAL_EV_CFG c, 24, 3⟩

/-- JC_CMD (R60). -/
def JC_CMD (k : Nat) : Nat := 0x30000 + 0x100 * k
def JC_CMD_CMD (k : Nat) : Fld := ⟨JC_CMD k, 0, 3⟩

/-- JC_STAT (R76, R416). -/
def JC_STAT (k : Nat) : Nat := 0x30004 + 0x100 * k
def JC_STAT_STATE (k : Nat) : Fld := ⟨JC_STAT k, 0, 3⟩
def JC_STAT_HOMED (k : Nat) : Fld := ⟨JC_STAT k, 3, 1⟩
def JC_STAT_PEND (k : Nat) : Fld := ⟨JC_STAT k, 4, 1⟩
def JC_STAT_DEFERRED (k : Nat) : Fld := ⟨JC_STAT k, 5, 1⟩
def JC_STAT_SAT (k : Nat) : Fld := ⟨JC_STAT k, 6, 1⟩
def JC_STAT_NOFB (k : Nat) : Fld := ⟨JC_STAT k, 7, 1⟩
def JC_STAT_HOME_LIMIT (k : Nat) : Fld := ⟨JC_STAT k, 8, 1⟩
def JC_STAT_SOFT_LIMIT (k : Nat) : Fld := ⟨JC_STAT k, 9, 1⟩
def JC_STAT_FCAUSE (k : Nat) : Fld := ⟨JC_STAT k, 12, 4⟩

/-- JC_CFG (R12, R54). -/
def JC_CFG (k : Nat) : Nat := 0x30008 + 0x100 * k
def JC_CFG_USED (k : Nat) : Fld := ⟨JC_CFG k, 0, 1⟩
def JC_CFG_ARM (k : Nat) : Fld := ⟨JC_CFG k, 1, 3⟩
def JC_CFG_ADDR (k : Nat) : Fld := ⟨JC_CFG k, 4, 4⟩
def JC_CFG_LINEAR (k : Nat) : Fld := ⟨JC_CFG k, 8, 1⟩
def JC_CFG_VSRC (k : Nat) : Fld := ⟨JC_CFG k, 9, 1⟩
def JC_CFG_BQ1EN (k : Nat) : Fld := ⟨JC_CFG k, 10, 1⟩
def JC_CFG_BQ2EN (k : Nat) : Fld := ⟨JC_CFG k, 11, 1⟩
def JC_CFG_TFFEN (k : Nat) : Fld := ⟨JC_CFG k, 12, 1⟩
def JC_CFG_HMODE (k : Nat) : Fld := ⟨JC_CFG k, 13, 2⟩
def JC_CFG_LIMACT (k : Nat) : Fld := ⟨JC_CFG k, 15, 1⟩
def JC_CFG_PINV (k : Nat) : Fld := ⟨JC_CFG k, 16, 1⟩

/-- JC_SP_POS (R54). -/
def JC_SP_POS (k : Nat) : Nat := 0x30010 + 0x100 * k
def JC_SP_POS_V (k : Nat) : Fld := ⟨JC_SP_POS k, 0, 32⟩

/-- JC_SP_VEL (R54). -/
def JC_SP_VEL (k : Nat) : Nat := 0x30014 + 0x100 * k
def JC_SP_VEL_V (k : Nat) : Fld := ⟨JC_SP_VEL k, 0, 32⟩

/-- JC_FB_POS (R56). -/
def JC_FB_POS (k : Nat) : Nat := 0x30018 + 0x100 * k
def JC_FB_POS_V (k : Nat) : Fld := ⟨JC_FB_POS k, 0, 32⟩

/-- JC_FB_VEL (R179). -/
def JC_FB_VEL (k : Nat) : Nat := 0x3001c + 0x100 * k
def JC_FB_VEL_V (k : Nat) : Fld := ⟨JC_FB_VEL k, 0, 32⟩

/-- JC_TQ (R57). -/
def JC_TQ (k : Nat) : Nat := 0x30020 + 0x100 * k
def JC_TQ_V (k : Nat) : Fld := ⟨JC_TQ k, 0, 24⟩

/-- JC_TFF (R57). -/
def JC_TFF (k : Nat) : Nat := 0x30024 + 0x100 * k
def JC_TFF_V (k : Nat) : Fld := ⟨JC_TFF k, 0, 24⟩

/-- JC_FERR (R77). -/
def JC_FERR (k : Nat) : Nat := 0x30028 + 0x100 * k
def JC_FERR_V (k : Nat) : Fld := ⟨JC_FERR k, 0, 32⟩

/-- JC_TGT (R60). -/
def JC_TGT (k : Nat) : Nat := 0x3002c + 0x100 * k
def JC_TGT_V (k : Nat) : Fld := ⟨JC_TGT k, 0, 32⟩

/-- JC_SATCNT (R55). -/
def JC_SATCNT (k : Nat) : Nat := 0x30030 + 0x100 * k
def JC_SATCNT_N (k : Nat) : Fld := ⟨JC_SATCNT k, 0, 16⟩

/-- JC_MISSCNT (R75). -/
def JC_MISSCNT (k : Nat) : Nat := 0x30034 + 0x100 * k
def JC_MISSCNT_N (k : Nat) : Fld := ⟨JC_MISSCNT k, 0, 16⟩

/-- JC_PSCALE (R56). -/
def JC_PSCALE (k : Nat) : Nat := 0x30040 + 0x100 * k
def JC_PSCALE_V (k : Nat) : Fld := ⟨JC_PSCALE k, 0, 32⟩

/-- JC_POS_OFS (R56). -/
def JC_POS_OFS (k : Nat) : Nat := 0x30044 + 0x100 * k
def JC_POS_OFS_V (k : Nat) : Fld := ⟨JC_POS_OFS k, 0, 32⟩

/-- JC_KP (R71). -/
def JC_KP (k : Nat) : Nat := 0x30048 + 0x100 * k
def JC_KP_V (k : Nat) : Fld := ⟨JC_KP k, 0, 24⟩

/-- JC_KVFF (R71). -/
def JC_KVFF (k : Nat) : Nat := 0x3004c + 0x100 * k
def JC_KVFF_V (k : Nat) : Fld := ⟨JC_KVFF k, 0, 16⟩

/-- JC_KV (R71). -/
def JC_KV (k : Nat) : Nat := 0x30050 + 0x100 * k
def JC_KV_V (k : Nat) : Fld := ⟨JC_KV k, 0, 24⟩

/-- JC_KI (R71). -/
def JC_KI (k : Nat) : Nat := 0x30054 + 0x100 * k
def JC_KI_V (k : Nat) : Fld := ⟨JC_KI k, 0, 24⟩

/-- JC_ILIM (R71). -/
def JC_ILIM (k : Nat) : Nat := 0x30058 + 0x100 * k
def JC_ILIM_V (k : Nat) : Fld := ⟨JC_ILIM k, 0, 23⟩

/-- JC_TLIM (R71). -/
def JC_TLIM (k : Nat) : Nat := 0x3005c + 0x100 * k
def JC_TLIM_TPOS (k : Nat) : Fld := ⟨JC_TLIM k, 0, 16⟩
def JC_TLIM_TNEG (k : Nat) : Fld := ⟨JC_TLIM k, 16, 16⟩

/-- JC_BQ1 (R71). -/
def JC_BQ1 (k : Nat) (i : Nat) : Nat := 0x30060 + 0x100 * k + 0x4 * i
def JC_BQ1_V (k : Nat) (i : Nat) : Fld := ⟨JC_BQ1 k i, 0, 24⟩

/-- JC_BQ2 (R71). -/
def JC_BQ2 (k : Nat) (i : Nat) : Nat := 0x30074 + 0x100 * k + 0x4 * i
def JC_BQ2_V (k : Nat) (i : Nat) : Fld := ⟨JC_BQ2 k i, 0, 24⟩

/-- JC_EXP0 (R54). -/
def JC_EXP0 (k : Nat) : Nat := 0x30088 + 0x100 * k
def JC_EXP0_PERR (k : Nat) : Fld := ⟨JC_EXP0 k, 0, 8⟩
def JC_EXP0_VCMD (k : Nat) : Fld := ⟨JC_EXP0 k, 8, 8⟩
def JC_EXP0_VERR (k : Nat) : Fld := ⟨JC_EXP0 k, 16, 8⟩
def JC_EXP0_INTEG (k : Nat) : Fld := ⟨JC_EXP0 k, 24, 8⟩

/-- JC_EXP1 (R54). -/
def JC_EXP1 (k : Nat) : Nat := 0x3008c + 0x100 * k
def JC_EXP1_BQ1 (k : Nat) : Fld := ⟨JC_EXP1 k, 0, 8⟩
def JC_EXP1_BQ2 (k : Nat) : Fld := ⟨JC_EXP1 k, 8, 8⟩
def JC_EXP1_TFF (k : Nat) : Fld := ⟨JC_EXP1 k, 16, 8⟩

/-- JC_VLIM (R73). -/
def JC_VLIM (k : Nat) : Nat := 0x30090 + 0x100 * k
def JC_VLIM_V (k : Nat) : Fld := ⟨JC_VLIM k, 0, 32⟩

/-- JC_ALIM (R71). -/
def JC_ALIM (k : Nat) : Nat := 0x30094 + 0x100 * k
def JC_ALIM_V (k : Nat) : Fld := ⟨JC_ALIM k, 0, 32⟩

/-- JC_DLIM (R72, R413). -/
def JC_DLIM (k : Nat) : Nat := 0x30098 + 0x100 * k
def JC_DLIM_V (k : Nat) : Fld := ⟨JC_DLIM k, 0, 32⟩

/-- JC_JLIM (R413). -/
def JC_JLIM (k : Nat) : Nat := 0x3009c + 0x100 * k
def JC_JLIM_V (k : Nat) : Fld := ⟨JC_JLIM k, 0, 32⟩

/-- JC_PMIN (R68). -/
def JC_PMIN (k : Nat) : Nat := 0x300a0 + 0x100 * k
def JC_PMIN_V (k : Nat) : Fld := ⟨JC_PMIN k, 0, 32⟩

/-- JC_PMAX (R68). -/
def JC_PMAX (k : Nat) : Nat := 0x300a4 + 0x100 * k
def JC_PMAX_V (k : Nat) : Fld := ⟨JC_PMAX k, 0, 32⟩

/-- JC_FERRLIM (R77). -/
def JC_FERRLIM (k : Nat) : Nat := 0x300a8 + 0x100 * k
def JC_FERRLIM_V (k : Nat) : Fld := ⟨JC_FERRLIM k, 0, 32⟩

/-- JC_HOME_VEL (R78). -/
def JC_HOME_VEL (k : Nat) : Nat := 0x300ac + 0x100 * k
def JC_HOME_VEL_V (k : Nat) : Fld := ⟨JC_HOME_VEL k, 0, 32⟩

/-- JC_HOME_OFS (R78). -/
def JC_HOME_OFS (k : Nat) : Nat := 0x300b0 + 0x100 * k
def JC_HOME_OFS_V (k : Nat) : Fld := ⟨JC_HOME_OFS k, 0, 32⟩

/-- JC_HOME_REL (R78). -/
def JC_HOME_REL (k : Nat) : Nat := 0x300b4 + 0x100 * k
def JC_HOME_REL_V (k : Nat) : Fld := ⟨JC_HOME_REL k, 0, 32⟩

/-- JC_HOME_TQ (R78). -/
def JC_HOME_TQ (k : Nat) : Nat := 0x300b8 + 0x100 * k
def JC_HOME_TQ_V (k : Nat) : Fld := ⟨JC_HOME_TQ k, 0, 16⟩

/-- JC_ARM_CMD (R60). -/
def JC_ARM_CMD (n : Nat) : Nat := 0x34000 + 0x100 * n
def JC_ARM_CMD_CMD (n : Nat) : Fld := ⟨JC_ARM_CMD n, 0, 4⟩

/-- JC_ARM_STAT (R60). -/
def JC_ARM_STAT (n : Nat) : Nat := 0x34004 + 0x100 * n
def JC_ARM_STAT_MODE (n : Nat) : Fld := ⟨JC_ARM_STAT n, 0, 4⟩
def JC_ARM_STAT_PSTOP (n : Nat) : Fld := ⟨JC_ARM_STAT n, 4, 1⟩
def JC_ARM_STAT_TRAJARM (n : Nat) : Fld := ⟨JC_ARM_STAT n, 5, 1⟩
def JC_ARM_STAT_STALE (n : Nat) : Fld := ⟨JC_ARM_STAT n, 6, 1⟩
def JC_ARM_STAT_HOLDZERO (n : Nat) : Fld := ⟨JC_ARM_STAT n, 7, 1⟩
def JC_ARM_STAT_HSTAT (n : Nat) : Fld := ⟨JC_ARM_STAT n, 8, 4⟩
def JC_ARM_STAT_STOPCAUSE (n : Nat) : Fld := ⟨JC_ARM_STAT n, 12, 4⟩
def JC_ARM_STAT_APPLY_LATE (n : Nat) : Fld := ⟨JC_ARM_STAT n, 16, 1⟩
def JC_ARM_STAT_REFUSED (n : Nat) : Fld := ⟨JC_ARM_STAT n, 17, 1⟩
def JC_ARM_STAT_REASON (n : Nat) : Fld := ⟨JC_ARM_STAT n, 18, 2⟩

/-- JC_ARM_CFG (R74, R75, R77). -/
def JC_ARM_CFG (n : Nat) : Nat := 0x34008 + 0x100 * n
def JC_ARM_CFG_STALE_LIM (n : Nat) : Fld := ⟨JC_ARM_CFG n, 0, 4⟩
def JC_ARM_CFG_MISS_LIM (n : Nat) : Fld := ⟨JC_ARM_CFG n, 4, 4⟩
def JC_ARM_CFG_FERRCNT (n : Nat) : Fld := ⟨JC_ARM_CFG n, 8, 4⟩
def JC_ARM_CFG_AUTORESUME (n : Nat) : Fld := ⟨JC_ARM_CFG n, 12, 1⟩
def JC_ARM_CFG_ENTO (n : Nat) : Fld := ⟨JC_ARM_CFG n, 16, 8⟩

/-- JC_ARM_SCALE (R65). -/
def JC_ARM_SCALE (n : Nat) : Nat := 0x3400c + 0x100 * n
def JC_ARM_SCALE_V (n : Nat) : Fld := ⟨JC_ARM_SCALE n, 0, 16⟩

/-- JC_ARM_SEFF (R66). -/
def JC_ARM_SEFF (n : Nat) : Nat := 0x34010 + 0x100 * n
def JC_ARM_SEFF_V (n : Nat) : Fld := ⟨JC_ARM_SEFF n, 0, 17⟩

/-- JC_ARM_SRATE (R66). -/
def JC_ARM_SRATE (n : Nat) : Nat := 0x34014 + 0x100 * n
def JC_ARM_SRATE_SDROP (n : Nat) : Fld := ⟨JC_ARM_SRATE n, 0, 16⟩
def JC_ARM_SRATE_SRISE (n : Nat) : Fld := ⟨JC_ARM_SRATE n, 16, 16⟩

/-- JC_ARM_PSDROP (R66). -/
def JC_ARM_PSDROP (n : Nat) : Nat := 0x34018 + 0x100 * n
def JC_ARM_PSDROP_V (n : Nat) : Fld := ⟨JC_ARM_PSDROP n, 0, 16⟩

/-- JC_ARM_JOINP (R63). -/
def JC_ARM_JOINP (n : Nat) : Nat := 0x3401c + 0x100 * n
def JC_ARM_JOINP_V (n : Nat) : Fld := ⟨JC_ARM_JOINP n, 0, 32⟩

/-- JC_ARM_JOINV (R63). -/
def JC_ARM_JOINV (n : Nat) : Nat := 0x34020 + 0x100 * n
def JC_ARM_JOINV_V (n : Nat) : Fld := ⟨JC_ARM_JOINV n, 0, 32⟩

/-- JC_ARM_MBANK (R59). -/
def JC_ARM_MBANK (n : Nat) : Nat := 0x34024 + 0x100 * n
def JC_ARM_MBANK_V (n : Nat) : Fld := ⟨JC_ARM_MBANK n, 0, 1⟩

/-- JC_ARM_APPLY (R71). -/
def JC_ARM_APPLY (n : Nat) : Nat := 0x34028 + 0x100 * n
def JC_ARM_APPLY_T (n : Nat) : Fld := ⟨JC_ARM_APPLY n, 0, 32⟩

/-- JC_ARM_HADDR (R61). -/
def JC_ARM_HADDR (n : Nat) : Nat := 0x3402c + 0x100 * n
def JC_ARM_HADDR_V (n : Nat) : Fld := ⟨JC_ARM_HADDR n, 0, 18⟩

/-- JC_ARM_HCOMMIT (R61). -/
def JC_ARM_HCOMMIT (n : Nat) : Nat := 0x34030 + 0x100 * n
def JC_ARM_HCOMMIT_V (n : Nat) : Fld := ⟨JC_ARM_HCOMMIT n, 0, 32⟩

/-- JC_ARM_HSEQ (R63). -/
def JC_ARM_HSEQ (n : Nat) : Nat := 0x34034 + 0x100 * n
def JC_ARM_HSEQ_V (n : Nat) : Fld := ⟨JC_ARM_HSEQ n, 0, 32⟩

/-- JC_ARM_CNT (R74, R59). -/
def JC_ARM_CNT (n : Nat) : Nat := 0x34038 + 0x100 * n
def JC_ARM_CNT_STALE (n : Nat) : Fld := ⟨JC_ARM_CNT n, 0, 8⟩
def JC_ARM_CNT_OVER (n : Nat) : Fld := ⟨JC_ARM_CNT n, 8, 8⟩
def JC_ARM_CNT_FFSTALE (n : Nat) : Fld := ⟨JC_ARM_CNT n, 16, 8⟩

/-- JC_ARM_TAU (R63). -/
def JC_ARM_TAU (n : Nat) : Nat := 0x3403c + 0x100 * n
def JC_ARM_TAU_V (n : Nat) : Fld := ⟨JC_ARM_TAU n, 0, 32⟩

/-- SE_CTL (R91, R93). -/
def SE_CTL (n : Nat) : Nat := 0x40000 + 0x2000 * n
def SE_CTL_RUN (n : Nat) : Fld := ⟨SE_CTL n, 0, 1⟩
def SE_CTL_BGDIV (n : Nat) : Fld := ⟨SE_CTL n, 1, 3⟩

/-- SE_STAT (R89). -/
def SE_STAT (n : Nat) : Nat := 0x40004 + 0x2000 * n
def SE_STAT_STATE (n : Nat) : Fld := ⟨SE_STAT n, 0, 2⟩
def SE_STAT_BGDONE (n : Nat) : Fld := ⟨SE_STAT n, 2, 1⟩
def SE_STAT_FAULTED (n : Nat) : Fld := ⟨SE_STAT n, 3, 1⟩
def SE_STAT_FCODE (n : Nat) : Fld := ⟨SE_STAT n, 4, 4⟩
def SE_STAT_HOSTW (n : Nat) : Fld := ⟨SE_STAT n, 8, 1⟩
def SE_STAT_DBGREFUSED (n : Nat) : Fld := ⟨SE_STAT n, 9, 1⟩
def SE_STAT_BGMISS (n : Nat) : Fld := ⟨SE_STAT n, 16, 8⟩

/-- SE_FGVEC (R91). -/
def SE_FGVEC (n : Nat) : Nat := 0x40008 + 0x2000 * n
def SE_FGVEC_VEC (n : Nat) : Fld := ⟨SE_FGVEC n, 0, 14⟩

/-- SE_BGVEC (R93). -/
def SE_BGVEC (n : Nat) : Nat := 0x4000c + 0x2000 * n
def SE_BGVEC_VEC (n : Nat) : Fld := ⟨SE_BGVEC n, 0, 14⟩

/-- SE_FAULTPC (R89). -/
def SE_FAULTPC (n : Nat) : Nat := 0x40010 + 0x2000 * n
def SE_FAULTPC_PC (n : Nat) : Fld := ⟨SE_FAULTPC n, 0, 14⟩
def SE_FAULTPC_CTX (n : Nat) : Fld := ⟨SE_FAULTPC n, 14, 2⟩
def SE_FAULTPC_CODE (n : Nat) : Fld := ⟨SE_FAULTPC n, 16, 16⟩

/-- SE_FGCYC (R91). -/
def SE_FGCYC (n : Nat) : Nat := 0x40014 + 0x2000 * n
def SE_FGCYC_FGCYC (n : Nat) : Fld := ⟨SE_FGCYC n, 0, 16⟩

/-- SE_FGMAX (R7). -/
def SE_FGMAX (n : Nat) : Nat := 0x40018 + 0x2000 * n
def SE_FGMAX_FGMAX (n : Nat) : Fld := ⟨SE_FGMAX n, 0, 16⟩

/-- SE_BGCYC (R93). -/
def SE_BGCYC (n : Nat) : Nat := 0x4001c + 0x2000 * n
def SE_BGCYC_BGCYC (n : Nat) : Fld := ⟨SE_BGCYC n, 0, 24⟩

/-- SE_MINSLACK (R97). -/
def SE_MINSLACK (n : Nat) : Nat := 0x40020 + 0x2000 * n
def SE_MINSLACK_MINSLACK (n : Nat) : Fld := ⟨SE_MINSLACK n, 0, 16⟩

/-- SE_MONCLR (R97). -/
def SE_MONCLR (n : Nat) : Nat := 0x40024 + 0x2000 * n
def SE_MONCLR_CLR (n : Nat) : Fld := ⟨SE_MONCLR n, 0, 1⟩

/-- SE_DBG (R99). -/
def SE_DBG (n : Nat) : Nat := 0x40030 + 0x2000 * n
def SE_DBG_HALTREQ (n : Nat) : Fld := ⟨SE_DBG n, 0, 1⟩
def SE_DBG_RESUME (n : Nat) : Fld := ⟨SE_DBG n, 1, 1⟩
def SE_DBG_STEP (n : Nat) : Fld := ⟨SE_DBG n, 2, 1⟩

/-- SE_DBGSEL (R84). -/
def SE_DBGSEL (n : Nat) : Nat := 0x40034 + 0x2000 * n
def SE_DBGSEL_SEL (n : Nat) : Fld := ⟨SE_DBGSEL n, 0, 6⟩
def SE_DBGSEL_CTX (n : Nat) : Fld := ⟨SE_DBGSEL n, 8, 1⟩
def SE_DBGSEL_PART (n : Nat) : Fld := ⟨SE_DBGSEL n, 9, 1⟩

/-- SE_DBGDATA (R84). -/
def SE_DBGDATA (n : Nat) : Nat := 0x40038 + 0x2000 * n
def SE_DBGDATA_DATA (n : Nat) : Fld := ⟨SE_DBGDATA n, 0, 32⟩

/-- SE_REPL_BASE (R95). -/
def SE_REPL_BASE (n : Nat) (m : Nat) : Nat := 0x40040 + 0x2000 * n + 0x8 * m
def SE_REPL_BASE_BASE (n : Nat) (m : Nat) : Fld := ⟨SE_REPL_BASE n m, 0, 18⟩

/-- SE_REPL_LEN (R95). -/
def SE_REPL_LEN (n : Nat) (m : Nat) : Nat := 0x40044 + 0x2000 * n + 0x8 * m
def SE_REPL_LEN_LEN (n : Nat) (m : Nat) : Fld := ⟨SE_REPL_LEN n m, 0, 18⟩

/-- SP_CTL (R109, R119). -/
def SP_CTL : Nat := 0x50000
def SP_CTL_RUN : Fld := ⟨SP_CTL, 0, 1⟩
def SP_CTL_IRQ : Fld := ⟨SP_CTL, 1, 1⟩

/-- SP_STAT (R120). -/
def SP_STAT : Nat := 0x50004
def SP_STAT_QDEPTH : Fld := ⟨SP_STAT, 0, 7⟩
def SP_STAT_RUNNING : Fld := ⟨SP_STAT, 8, 6⟩
def SP_STAT_INSERV : Fld := ⟨SP_STAT, 16, 6⟩

/-- SP_LANEMASK (R120). -/
def SP_LANEMASK : Nat := 0x50008
def SP_LANEMASK_LANES : Fld := ⟨SP_LANEMASK, 0, 32⟩

/-- SP_STRBASE (R104). -/
def SP_STRBASE : Nat := 0x5000c
def SP_STRBASE_STRBASE : Fld := ⟨SP_STRBASE, 0, 32⟩

/-- SP_INSTBASE (R105). -/
def SP_INSTBASE : Nat := 0x50010
def SP_INSTBASE_INSTBASE : Fld := ⟨SP_INSTBASE, 0, 32⟩

/-- SP_RESBASE (R117). -/
def SP_RESBASE : Nat := 0x50014
def SP_RESBASE_RESBASE : Fld := ⟨SP_RESBASE, 0, 32⟩

/-- SP_SUBMIT (R109). -/
def SP_SUBMIT : Nat := 0x50018
def SP_SUBMIT_ADDR : Fld := ⟨SP_SUBMIT, 0, 32⟩

/-- SP_CNT (R107, R109, R114). -/
def SP_CNT : Nat := 0x5001c
def SP_CNT_PAGEIN : Fld := ⟨SP_CNT, 0, 16⟩
def SP_CNT_EXPIRED : Fld := ⟨SP_CNT, 16, 8⟩
def SP_CNT_FULL : Fld := ⟨SP_CNT, 24, 8⟩

/-- SP_SLOT_STAT (R104). -/
def SP_SLOT_STAT (s : Nat) : Nat := 0x50400 + 0x4 * s
def SP_SLOT_STAT_VALID (s : Nat) : Fld := ⟨SP_SLOT_STAT s, 0, 1⟩
def SP_SLOT_STAT_CLASS (s : Nat) : Fld := ⟨SP_SLOT_STAT s, 1, 1⟩
def SP_SLOT_STAT_PAGES (s : Nat) : Fld := ⟨SP_SLOT_STAT s, 2, 4⟩
def SP_SLOT_STAT_RESIDENT (s : Nat) : Fld := ⟨SP_SLOT_STAT s, 8, 6⟩

/-- SP_INST_STAT (R119). -/
def SP_INST_STAT (i : Nat) : Nat := 0x50800 + 0x4 * i
def SP_INST_STAT_STATE (i : Nat) : Fld := ⟨SP_INST_STAT i, 0, 2⟩
def SP_INST_STAT_HASSOLVE (i : Nat) : Fld := ⟨SP_INST_STAT i, 2, 1⟩
def SP_INST_STAT_SLOT (i : Nat) : Fld := ⟨SP_INST_STAT i, 8, 8⟩
def SP_INST_STAT_SEQ (i : Nat) : Fld := ⟨SP_INST_STAT i, 16, 16⟩

/-- SP_LANE_STAT (R113). -/
def SP_LANE_STAT (k : Nat) : Nat := 0x50c00 + 0x4 * k
def SP_LANE_STAT_STATE (k : Nat) : Fld := ⟨SP_LANE_STAT k, 0, 3⟩
def SP_LANE_STAT_INST (k : Nat) : Fld := ⟨SP_LANE_STAT k, 8, 7⟩

/-- CV_CTL (R123, R128, R144). -/
def CV_CTL : Nat := 0x60000
def CV_CTL_RUN : Fld := ⟨CV_CTL, 0, 1⟩
def CV_CTL_IRQ : Fld := ⟨CV_CTL, 1, 1⟩
def CV_CTL_PITCH : Fld := ⟨CV_CTL, 4, 3⟩

/-- CV_STAT (R128). -/
def CV_STAT : Nat := 0x60004
def CV_STAT_QDEPTH : Fld := ⟨CV_STAT, 0, 7⟩
def CV_STAT_WAITING : Fld := ⟨CV_STAT, 8, 7⟩
def CV_STAT_LIVE : Fld := ⟨CV_STAT, 16, 11⟩
def CV_STAT_BUSY : Fld := ⟨CV_STAT, 31, 1⟩

/-- CV_REQ (R128). -/
def CV_REQ : Nat := 0x60008
def CV_REQ_ADDR : Fld := ⟨CV_REQ, 0, 32⟩

/-- CV_GEN (R126). -/
def CV_GEN : Nat := 0x6000c
def CV_GEN_GEN : Fld := ⟨CV_GEN, 0, 32⟩

/-- CV_CNT (R144). -/
def CV_CNT : Nat := 0x60010
def CV_CNT_YIELDS : Fld := ⟨CV_CNT, 0, 8⟩
def CV_CNT_TIMEOUTS : Fld := ⟨CV_CNT, 8, 8⟩
def CV_CNT_FULL : Fld := ⟨CV_CNT, 16, 8⟩
def CV_CNT_CONFLICTS : Fld := ⟨CV_CNT, 24, 8⟩

/-- CV_BRICK_SEL (R127). -/
def CV_BRICK_SEL : Nat := 0x60014
def CV_BRICK_SEL_BRICK : Fld := ⟨CV_BRICK_SEL, 0, 16⟩

/-- CV_BRICK_DATA (R127). -/
def CV_BRICK_DATA : Nat := 0x60018
def CV_BRICK_DATA_KIND : Fld := ⟨CV_BRICK_DATA, 0, 2⟩
def CV_BRICK_DATA_OWNER : Fld := ⟨CV_BRICK_DATA, 4, 4⟩
def CV_BRICK_DATA_PINANY : Fld := ⟨CV_BRICK_DATA, 8, 1⟩
def CV_BRICK_DATA_HOLDMAX : Fld := ⟨CV_BRICK_DATA, 12, 3⟩
def CV_BRICK_DATA_USED : Fld := ⟨CV_BRICK_DATA, 16, 10⟩

/-- CV_MAXSTEP (R145). -/
def CV_MAXSTEP : Nat := 0x6001c
def CV_MAXSTEP_MAXSTEP : Fld := ⟨CV_MAXSTEP, 0, 17⟩

/-- CV_ARM_STAT (R134). -/
def CV_ARM_STAT (n : Nat) : Nat := 0x60100 + 0x4 * n
def CV_ARM_STAT_TICKETS (n : Nat) : Fld := ⟨CV_ARM_STAT n, 0, 11⟩
def CV_ARM_STAT_WAITS (n : Nat) : Fld := ⟨CV_ARM_STAT n, 16, 7⟩

/-- CV_TKT_STAT (R134). -/
def CV_TKT_STAT (t : Nat) : Nat := 0x61000 + 0x4 * t
def CV_TKT_STAT_LIVE (t : Nat) : Fld := ⟨CV_TKT_STAT t, 0, 1⟩
def CV_TKT_STAT_ARM (t : Nat) : Fld := ⟨CV_TKT_STAT t, 1, 3⟩
def CV_TKT_STAT_KIND (t : Nat) : Fld := ⟨CV_TKT_STAT t, 4, 1⟩
def CV_TKT_STAT_NSHAPE (t : Nat) : Fld := ⟨CV_TKT_STAT t, 5, 8⟩
def CV_TKT_STAT_SEQ (t : Nat) : Fld := ⟨CV_TKT_STAT t, 16, 16⟩

/-- SH_CTL (R16, R169, R171). -/
def SH_CTL : Nat := 0x70000
def SH_CTL_RUN : Fld := ⟨SH_CTL, 0, 1⟩
def SH_CTL_IRQ : Fld := ⟨SH_CTL, 1, 1⟩
def SH_CTL_SPER : Fld := ⟨SH_CTL, 2, 4⟩
def SH_CTL_HALFLOW : Fld := ⟨SH_CTL, 8, 8⟩
def SH_CTL_HPRIO : Fld := ⟨SH_CTL, 16, 3⟩

/-- SH_STAT (R162, R165). -/
def SH_STAT : Nat := 0x70004
def SH_STAT_DISAGREE : Fld := ⟨SH_STAT, 0, 8⟩
def SH_STAT_FORCED : Fld := ⟨SH_STAT, 8, 8⟩
def SH_STAT_STALE : Fld := ⟨SH_STAT, 16, 8⟩
def SH_STAT_C1LATE : Fld := ⟨SH_STAT, 24, 1⟩
def SH_STAT_C2LATE : Fld := ⟨SH_STAT, 25, 1⟩
def SH_STAT_PAIRDIFF : Fld := ⟨SH_STAT, 26, 1⟩
def SH_STAT_APPLY_LATE : Fld := ⟨SH_STAT, 27, 1⟩

/-- SH_VH (R158). -/
def SH_VH : Nat := 0x70008
def SH_VH_V : Fld := ⟨SH_VH, 0, 16⟩

/-- SH_ZD (R158). -/
def SH_ZD : Nat := 0x7000c
def SH_ZD_V : Fld := ⟨SH_ZD, 0, 16⟩

/-- SH_DMAX (R157). -/
def SH_DMAX : Nat := 0x70010
def SH_DMAX_V : Fld := ⟨SH_DMAX, 0, 16⟩

/-- SH_TOL (R162). -/
def SH_TOL : Nat := 0x70014
def SH_TOL_SEPTOL : Fld := ⟨SH_TOL, 0, 16⟩
def SH_TOL_POSTOL : Fld := ⟨SH_TOL, 16, 16⟩

/-- SH_MISC (R164). -/
def SH_MISC : Nat := 0x70018
def SH_MISC_RECOV : Fld := ⟨SH_MISC, 0, 4⟩

/-- SH_HYST (R160). -/
def SH_HYST : Nat := 0x7001c
def SH_HYST_V : Fld := ⟨SH_HYST, 0, 16⟩

/-- SH_APPLY (R153). -/
def SH_APPLY : Nat := 0x70020
def SH_APPLY_T : Fld := ⟨SH_APPLY, 0, 32⟩

/-- SH_C1TIME (R165). -/
def SH_C1TIME : Nat := 0x70024
def SH_C1TIME_LAST : Fld := ⟨SH_C1TIME, 0, 16⟩
def SH_C1TIME_MAX : Fld := ⟨SH_C1TIME, 16, 16⟩

/-- SH_C2TIME (R165). -/
def SH_C2TIME : Nat := 0x70028
def SH_C2TIME_LAST : Fld := ⟨SH_C2TIME, 0, 16⟩
def SH_C2TIME_MAX : Fld := ⟨SH_C2TIME, 16, 16⟩

/-- SH_CNT (R164). -/
def SH_CNT : Nat := 0x7002c
def SH_CNT_DISCNT : Fld := ⟨SH_CNT, 0, 8⟩
def SH_CNT_FORCECNT : Fld := ⟨SH_CNT, 8, 8⟩
def SH_CNT_STOPCNT : Fld := ⟨SH_CNT, 16, 8⟩

/-- SH_ARM_CFG (R156, R158). -/
def SH_ARM_CFG (n : Nat) : Nat := 0x70100 + 0x40 * n
def SH_ARM_CFG_USED (n : Nat) : Fld := ⟨SH_ARM_CFG n, 0, 1⟩
def SH_ARM_CFG_NBAND (n : Nat) : Fld := ⟨SH_ARM_CFG n, 1, 3⟩
def SH_ARM_CFG_UNPLB (n : Nat) : Fld := ⟨SH_ARM_CFG n, 4, 3⟩
def SH_ARM_CFG_VMAX (n : Nat) : Fld := ⟨SH_ARM_CFG n, 16, 16⟩

/-- SH_ARM_TIME (R158). -/
def SH_ARM_TIME (n : Nat) : Nat := 0x70104 + 0x40 * n
def SH_ARM_TIME_TR (n : Nat) : Fld := ⟨SH_ARM_TIME n, 0, 16⟩
def SH_ARM_TIME_TDROP (n : Nat) : Fld := ⟨SH_ARM_TIME n, 16, 16⟩

/-- SH_ARM_CZ (R158). -/
def SH_ARM_CZ (n : Nat) : Nat := 0x70108 + 0x40 * n
def SH_ARM_CZ_C (n : Nat) : Fld := ⟨SH_ARM_CZ n, 0, 16⟩
def SH_ARM_CZ_ZR (n : Nat) : Fld := ⟨SH_ARM_CZ n, 16, 16⟩

/-- SH_ARM_VTOL (R161). -/
def SH_ARM_VTOL (n : Nat) : Nat := 0x7010c + 0x40 * n
def SH_ARM_VTOL_V (n : Nat) : Fld := ⟨SH_ARM_VTOL n, 0, 16⟩

/-- SH_ARM_BAND (R160). -/
def SH_ARM_BAND (n : Nat) (k : Nat) : Nat := 0x70110 + 0x40 * n + 0x4 * k
def SH_ARM_BAND_LO (n : Nat) (k : Nat) : Fld := ⟨SH_ARM_BAND n k, 0, 16⟩
def SH_ARM_BAND_HI (n : Nat) (k : Nat) : Fld := ⟨SH_ARM_BAND n k, 16, 16⟩

/-- SH_ARM_CAPSEL (R153). -/
def SH_ARM_CAPSEL (n : Nat) : Nat := 0x70120 + 0x40 * n
def SH_ARM_CAPSEL_SEL (n : Nat) : Fld := ⟨SH_ARM_CAPSEL n, 1, 7⟩

/-- SH_ARM_POSEADDR (R154). -/
def SH_ARM_POSEADDR (n : Nat) : Nat := 0x70124 + 0x40 * n
def SH_ARM_POSEADDR_V (n : Nat) : Fld := ⟨SH_ARM_POSEADDR n, 0, 18⟩

/-- SH_ARM_OUT (R163). -/
def SH_ARM_OUT (n : Nat) : Nat := 0x70128 + 0x40 * n
def SH_ARM_OUT_SCALE (n : Nat) : Fld := ⟨SH_ARM_OUT n, 0, 16⟩
def SH_ARM_OUT_PSTOP (n : Nat) : Fld := ⟨SH_ARM_OUT n, 16, 1⟩
def SH_ARM_OUT_BAND (n : Nat) : Fld := ⟨SH_ARM_OUT n, 17, 3⟩
def SH_ARM_OUT_CAUSE (n : Nat) : Fld := ⟨SH_ARM_OUT n, 20, 4⟩

/-- SH_ARM_SEP (R157). -/
def SH_ARM_SEP (n : Nat) : Nat := 0x7012c + 0x40 * n
def SH_ARM_SEP_SEP1 (n : Nat) : Fld := ⟨SH_ARM_SEP n, 0, 16⟩
def SH_ARM_SEP_SEP2 (n : Nat) : Fld := ⟨SH_ARM_SEP n, 16, 16⟩

/-- SH_ARM_STAT (R164). -/
def SH_ARM_STAT (n : Nat) : Nat := 0x70130 + 0x40 * n
def SH_ARM_STAT_PLACED (n : Nat) : Fld := ⟨SH_ARM_STAT n, 0, 1⟩
def SH_ARM_STAT_FORCED (n : Nat) : Fld := ⟨SH_ARM_STAT n, 1, 1⟩
def SH_ARM_STAT_DCOUNT (n : Nat) : Fld := ⟨SH_ARM_STAT n, 2, 2⟩
def SH_ARM_STAT_AGREECNT (n : Nat) : Fld := ⟨SH_ARM_STAT n, 4, 4⟩
def SH_ARM_STAT_OFSREJ (n : Nat) : Fld := ⟨SH_ARM_STAT n, 8, 1⟩
def SH_ARM_STAT_RELREF (n : Nat) : Fld := ⟨SH_ARM_STAT n, 9, 1⟩
def SH_ARM_STAT_PEND (n : Nat) : Fld := ⟨SH_ARM_STAT n, 10, 1⟩
def SH_ARM_STAT_SBOUND (n : Nat) : Fld := ⟨SH_ARM_STAT n, 11, 17⟩

/-- SH_ARM_CMD (R164). -/
def SH_ARM_CMD (n : Nat) : Nat := 0x70134 + 0x40 * n
def SH_ARM_CMD_RELEASE (n : Nat) : Fld := ⟨SH_ARM_CMD n, 0, 1⟩

/-- SH_SENS_CFG (R150). -/
def SH_SENS_CFG (s : Nat) : Nat := 0x70400 + 0x20 * s
def SH_SENS_CFG_USED (s : Nat) : Fld := ⟨SH_SENS_CFG s, 0, 1⟩
def SH_SENS_CFG_PORT (s : Nat) : Fld := ⟨SH_SENS_CFG s, 1, 1⟩
def SH_SENS_CFG_UDP (s : Nat) : Fld := ⟨SH_SENS_CFG s, 16, 16⟩

/-- SH_SENS_SRC (R150). -/
def SH_SENS_SRC (s : Nat) : Nat := 0x70404 + 0x20 * s
def SH_SENS_SRC_V (s : Nat) : Fld := ⟨SH_SENS_SRC s, 0, 32⟩

/-- SH_SENS_TIME (R152). -/
def SH_SENS_TIME (s : Nat) : Nat := 0x70408 + 0x20 * s
def SH_SENS_TIME_STALE (s : Nat) : Fld := ⟨SH_SENS_TIME s, 0, 16⟩
def SH_SENS_TIME_LAT (s : Nat) : Fld := ⟨SH_SENS_TIME s, 16, 16⟩

/-- SH_SENS_SEED (R150). -/
def SH_SENS_SEED (s : Nat) : Nat := 0x7040c + 0x20 * s
def SH_SENS_SEED_V (s : Nat) : Fld := ⟨SH_SENS_SEED s, 0, 16⟩

/-- SH_SENS_STAT (R152). -/
def SH_SENS_STAT (s : Nat) : Nat := 0x70410 + 0x20 * s
def SH_SENS_STAT_STALE (s : Nat) : Fld := ⟨SH_SENS_STAT s, 0, 1⟩
def SH_SENS_STAT_FAULT (s : Nat) : Fld := ⟨SH_SENS_STAT s, 1, 1⟩
def SH_SENS_STAT_RESTART (s : Nat) : Fld := ⟨SH_SENS_STAT s, 2, 1⟩
def SH_SENS_STAT_AGE (s : Nat) : Fld := ⟨SH_SENS_STAT s, 16, 16⟩

/-- SH_SENS_SEQ (R151). -/
def SH_SENS_SEQ (s : Nat) : Nat := 0x70414 + 0x20 * s
def SH_SENS_SEQ_V (s : Nat) : Fld := ⟨SH_SENS_SEQ s, 0, 32⟩

/-- SH_SENS_CNT (R150). -/
def SH_SENS_CNT (s : Nat) : Nat := 0x70418 + 0x20 * s
def SH_SENS_CNT_CRCERR (s : Nat) : Fld := ⟨SH_SENS_CNT s, 0, 8⟩
def SH_SENS_CNT_BADFRAME (s : Nat) : Fld := ⟨SH_SENS_CNT s, 8, 8⟩
def SH_SENS_CNT_INCOMPLETE (s : Nat) : Fld := ⟨SH_SENS_CNT s, 16, 8⟩
def SH_SENS_CNT_SKIPPED (s : Nat) : Fld := ⟨SH_SENS_CNT s, 24, 8⟩

/-- SH_SO_CFG (R166). -/
def SH_SO_CFG (m : Nat) : Nat := 0x70600 + 0x10 * m
def SH_SO_CFG_ARMS (m : Nat) : Fld := ⟨SH_SO_CFG m, 0, 8⟩
def SH_SO_CFG_MODE (m : Nat) : Fld := ⟨SH_SO_CFG m, 8, 1⟩
def SH_SO_CFG_MINSCALE (m : Nat) : Fld := ⟨SH_SO_CFG m, 16, 16⟩

/-- SH_SO_TEST (R167). -/
def SH_SO_TEST (m : Nat) : Nat := 0x70604 + 0x10 * m
def SH_SO_TEST_TPW (m : Nat) : Fld := ⟨SH_SO_TEST m, 0, 4⟩
def SH_SO_TEST_TPER (m : Nat) : Fld := ⟨SH_SO_TEST m, 8, 8⟩

/-- SH_SO_STAT (R167). -/
def SH_SO_STAT (m : Nat) : Nat := 0x70608 + 0x10 * m
def SH_SO_STAT_ON (m : Nat) : Fld := ⟨SH_SO_STAT m, 0, 1⟩
def SH_SO_STAT_RBA (m : Nat) : Fld := ⟨SH_SO_STAT m, 1, 1⟩
def SH_SO_STAT_RBB (m : Nat) : Fld := ⟨SH_SO_STAT m, 2, 1⟩
def SH_SO_STAT_FBFAULT (m : Nat) : Fld := ⟨SH_SO_STAT m, 3, 1⟩

/-- SH_SO_CMD (R167). -/
def SH_SO_CMD (m : Nat) : Nat := 0x7060c + 0x10 * m
def SH_SO_CMD_CLEAR (m : Nat) : Fld := ⟨SH_SO_CMD m, 0, 1⟩

/-- SH_STOP_V (R158). -/
def SH_STOP_V (n : Nat) (k : Nat) : Nat := 0x71000 + 0x200 * n + 0x10 * k
def SH_STOP_V_V (n : Nat) (k : Nat) : Fld := ⟨SH_STOP_V n k, 0, 16⟩

/-- SH_STOP_TS (R158). -/
def SH_STOP_TS (n : Nat) (k : Nat) : Nat := 0x71004 + 0x200 * n + 0x10 * k
def SH_STOP_TS_TS (n : Nat) (k : Nat) : Fld := ⟨SH_STOP_TS n k, 0, 32⟩

/-- SH_STOP_SS (R158). -/
def SH_STOP_SS (n : Nat) (k : Nat) : Nat := 0x71008 + 0x200 * n + 0x10 * k
def SH_STOP_SS_SS (n : Nat) (k : Nat) : Fld := ⟨SH_STOP_SS n k, 0, 32⟩

/-- TL_LCTL (R173, R182). -/
def TL_LCTL (n : Nat) : Nat := 0x80000 + 0x1000 * n
def TL_LCTL_RUN (n : Nat) : Fld := ⟨TL_LCTL n, 0, 1⟩
def TL_LCTL_MODE (n : Nat) : Fld := ⟨TL_LCTL n, 1, 1⟩
def TL_LCTL_PERIOD (n : Nat) : Fld := ⟨TL_LCTL n, 2, 2⟩
def TL_LCTL_NNODE (n : Nat) : Fld := ⟨TL_LCTL n, 4, 4⟩
def TL_LCTL_ENDA (n : Nat) : Fld := ⟨TL_LCTL n, 8, 1⟩
def TL_LCTL_ENDB (n : Nat) : Fld := ⟨TL_LCTL n, 9, 1⟩
def TL_LCTL_SCHID (n : Nat) : Fld := ⟨TL_LCTL n, 16, 8⟩

/-- TL_LSTAT (R211). -/
def TL_LSTAT (n : Nat) : Nat := 0x80004 + 0x1000 * n
def TL_LSTAT_STATE (n : Nat) : Fld := ⟨TL_LSTAT n, 0, 4⟩
def TL_LSTAT_LINKA (n : Nat) : Fld := ⟨TL_LSTAT n, 4, 1⟩
def TL_LSTAT_LINKB (n : Nat) : Fld := ⟨TL_LSTAT n, 5, 1⟩
def TL_LSTAT_BREAK (n : Nat) : Fld := ⟨TL_LSTAT n, 6, 1⟩
def TL_LSTAT_TOPO (n : Nat) : Fld := ⟨TL_LSTAT n, 7, 1⟩
def TL_LSTAT_MBBUSY (n : Nat) : Fld := ⟨TL_LSTAT n, 8, 1⟩

/-- TL_HOP (R182). -/
def TL_HOP (n : Nat) : Nat := 0x80008 + 0x1000 * n
def TL_HOP_HOP (n : Nat) : Fld := ⟨TL_HOP n, 0, 12⟩
def TL_HOP_G (n : Nat) : Fld := ⟨TL_HOP n, 16, 12⟩

/-- TL_LINK (R182). -/
def TL_LINK (n : Nat) : Nat := 0x8000c + 0x1000 * n
def TL_LINK_LINKA (n : Nat) : Fld := ⟨TL_LINK n, 0, 12⟩
def TL_LINK_LINKB (n : Nat) : Fld := ⟨TL_LINK n, 16, 12⟩

/-- TL_ACT (R182). -/
def TL_ACT (n : Nat) : Nat := 0x80010 + 0x1000 * n
def TL_ACT_V (n : Nat) : Fld := ⟨TL_ACT n, 0, 17⟩

/-- TL_SMP (R182). -/
def TL_SMP (n : Nat) : Nat := 0x80014 + 0x1000 * n
def TL_SMP_V (n : Nat) : Fld := ⟨TL_SMP n, 0, 17⟩

/-- TL_LATCH (R182). -/
def TL_LATCH (n : Nat) : Nat := 0x80018 + 0x1000 * n
def TL_LATCH_V (n : Nat) : Fld := ⟨TL_LATCH n, 0, 17⟩

/-- TL_WAKE (R183). -/
def TL_WAKE (n : Nat) : Nat := 0x8001c + 0x1000 * n
def TL_WAKE_V (n : Nat) : Fld := ⟨TL_WAKE n, 0, 17⟩

/-- TL_MBREQ (R182). -/
def TL_MBREQ (n : Nat) : Nat := 0x80020 + 0x1000 * n
def TL_MBREQ_V (n : Nat) : Fld := ⟨TL_MBREQ n, 0, 17⟩
def TL_MBREQ_MBEN (n : Nat) : Fld := ⟨TL_MBREQ n, 31, 1⟩

/-- TL_MBRSP (R182). -/
def TL_MBRSP (n : Nat) : Nat := 0x80024 + 0x1000 * n
def TL_MBRSP_V (n : Nat) : Fld := ⟨TL_MBRSP n, 0, 17⟩
def TL_MBRSP_MBMAX (n : Nat) : Fld := ⟨TL_MBRSP n, 24, 5⟩

/-- TL_CWIN (R182). -/
def TL_CWIN (n : Nat) : Nat := 0x80028 + 0x1000 * n
def TL_CWIN_V (n : Nat) : Fld := ⟨TL_CWIN n, 0, 12⟩

/-- TL_SLOT (R182). -/
def TL_SLOT (n : Nat) (a : Nat) : Nat := 0x80040 + 0x1000 * n + 0x4 * a
def TL_SLOT_SLOT (n : Nat) (a : Nat) : Fld := ⟨TL_SLOT n a, 0, 17⟩
def TL_SLOT_ENA (n : Nat) (a : Nat) : Fld := ⟨TL_SLOT n a, 24, 1⟩
def TL_SLOT_ENB (n : Nat) (a : Nat) : Fld := ⟨TL_SLOT n a, 25, 1⟩

/-- TL_LCNT (R186, R187). -/
def TL_LCNT (n : Nat) : Nat := 0x80080 + 0x1000 * n
def TL_LCNT_COPYDIFF (n : Nat) : Fld := ⟨TL_LCNT n, 0, 8⟩
def TL_LCNT_MISMATCH (n : Nat) : Fld := ⟨TL_LCNT n, 8, 8⟩
def TL_LCNT_NOACT (n : Nat) : Fld := ⟨TL_LCNT n, 16, 8⟩
def TL_LCNT_WRONGSRC (n : Nat) : Fld := ⟨TL_LCNT n, 24, 8⟩

/-- TL_NODE_STAT (R188). -/
def TL_NODE_STAT (n : Nat) (a : Nat) : Nat := 0x800c0 + 0x1000 * n + 0x4 * a
def TL_NODE_STAT_ST0 (n : Nat) (a : Nat) : Fld := ⟨TL_NODE_STAT n a, 0, 8⟩
def TL_NODE_STAT_ST1 (n : Nat) (a : Nat) : Fld := ⟨TL_NODE_STAT n a, 8, 8⟩
def TL_NODE_STAT_LATE (n : Nat) (a : Nat) : Fld := ⟨TL_NODE_STAT n a, 16, 1⟩
def TL_NODE_STAT_SEEN (n : Nat) (a : Nat) : Fld := ⟨TL_NODE_STAT n a, 17, 1⟩
def TL_NODE_STAT_LATECNT (n : Nat) (a : Nat) : Fld := ⟨TL_NODE_STAT n a, 24, 8⟩

/-- TL_MBCMD (R181). -/
def TL_MBCMD (n : Nat) : Nat := 0x80100 + 0x1000 * n
def TL_MBCMD_GO (n : Nat) : Fld := ⟨TL_MBCMD n, 0, 1⟩
def TL_MBCMD_OP (n : Nat) : Fld := ⟨TL_MBCMD n, 1, 2⟩
def TL_MBCMD_ADDR (n : Nat) : Fld := ⟨TL_MBCMD n, 4, 4⟩
def TL_MBCMD_DLEN (n : Nat) : Fld := ⟨TL_MBCMD n, 8, 8⟩
def TL_MBCMD_INDEX (n : Nat) : Fld := ⟨TL_MBCMD n, 16, 16⟩

/-- TL_MBSTAT (R181). -/
def TL_MBSTAT (n : Nat) : Nat := 0x80104 + 0x1000 * n
def TL_MBSTAT_DONE (n : Nat) : Fld := ⟨TL_MBSTAT n, 0, 1⟩
def TL_MBSTAT_STATUS (n : Nat) : Fld := ⟨TL_MBSTAT n, 1, 3⟩
def TL_MBSTAT_TAG (n : Nat) : Fld := ⟨TL_MBSTAT n, 8, 8⟩

/-- TL_MBDATA (R181). -/
def TL_MBDATA (n : Nat) (w : Nat) : Nat := 0x80200 + 0x1000 * n + 0x4 * w
def TL_MBDATA_D (n : Nat) (w : Nat) : Fld := ⟨TL_MBDATA n w, 0, 32⟩

/-- TL_SYNC (R204). -/
def TL_SYNC (n : Nat) : Nat := 0x80300 + 0x1000 * n
def TL_SYNC_SYNCMASK (n : Nat) : Fld := ⟨TL_SYNC n, 0, 10⟩
def TL_SYNC_AUTODLY (n : Nat) : Fld := ⟨TL_SYNC n, 16, 1⟩

/-- TL_TSTAT (R211, R217). -/
def TL_TSTAT (n : Nat) : Nat := 0x80304 + 0x1000 * n
def TL_TSTAT_PHASE (n : Nat) : Fld := ⟨TL_TSTAT n, 0, 3⟩
def TL_TSTAT_DEFER (n : Nat) : Fld := ⟨TL_TSTAT n, 3, 1⟩
def TL_TSTAT_FAIL (n : Nat) : Fld := ⟨TL_TSTAT n, 4, 4⟩
def TL_TSTAT_NOSTEP (n : Nat) : Fld := ⟨TL_TSTAT n, 8, 1⟩
def TL_TSTAT_PSYNC (n : Nat) : Fld := ⟨TL_TSTAT n, 9, 1⟩
def TL_TSTAT_COLLCNT (n : Nat) : Fld := ⟨TL_TSTAT n, 16, 8⟩
def TL_TSTAT_CFGNODE (n : Nat) : Fld := ⟨TL_TSTAT n, 24, 4⟩

/-- TL_PAIR_DELTA (R209). -/
def TL_PAIR_DELTA (n : Nat) : Nat := 0x80308 + 0x1000 * n
def TL_PAIR_DELTA_DELTA (n : Nat) : Fld := ⟨TL_PAIR_DELTA n, 0, 32⟩

/-- TL_PAIR_D (R209). -/
def TL_PAIR_D (n : Nat) : Nat := 0x8030c + 0x1000 * n
def TL_PAIR_D_D (n : Nat) : Fld := ⟨TL_PAIR_D n, 0, 17⟩

/-- TL_NODE_DLY (R208). -/
def TL_NODE_DLY (n : Nat) (a : Nat) : Nat := 0x80340 + 0x1000 * n + 0x4 * a
def TL_NODE_DLY_DLY (n : Nat) (a : Nat) : Fld := ⟨TL_NODE_DLY n a, 0, 16⟩
def TL_NODE_DLY_MEAS (n : Nat) (a : Nat) : Fld := ⟨TL_NODE_DLY n a, 16, 16⟩

/-- TL_NODE_TIME (R207, R208). -/
def TL_NODE_TIME (n : Nat) (a : Nat) : Nat := 0x80380 + 0x1000 * n + 0x4 * a
def TL_NODE_TIME_OFS (n : Nat) (a : Nat) : Fld := ⟨TL_NODE_TIME n a, 0, 16⟩
def TL_NODE_TIME_INCNT (n : Nat) (a : Nat) : Fld := ⟨TL_NODE_TIME n a, 16, 5⟩
def TL_NODE_TIME_DRIFT (n : Nat) (a : Nat) : Fld := ⟨TL_NODE_TIME n a, 24, 1⟩

/-- TL_FTA_CTL (R205). -/
def TL_FTA_CTL : Nat := 0x80400
def TL_FTA_CTL_K : Fld := ⟨TL_FTA_CTL, 0, 2⟩
def TL_FTA_CTL_RINT : Fld := ⟨TL_FTA_CTL, 4, 4⟩
def TL_FTA_CTL_SLEWPPM : Fld := ⟨TL_FTA_CTL, 8, 8⟩
def TL_FTA_CTL_TLISTEN : Fld := ⟨TL_FTA_CTL, 16, 8⟩
def TL_FTA_CTL_RANK : Fld := ⟨TL_FTA_CTL, 24, 3⟩

/-- TL_FTA_STAT (R205, R206). -/
def TL_FTA_STAT : Nat := 0x80404
def TL_FTA_STAT_COUNT : Fld := ⟨TL_FTA_STAT, 0, 5⟩
def TL_FTA_STAT_USED : Fld := ⟨TL_FTA_STAT, 8, 5⟩
def TL_FTA_STAT_SHORT : Fld := ⟨TL_FTA_STAT, 16, 1⟩
def TL_FTA_STAT_APPLIED : Fld := ⟨TL_FTA_STAT, 17, 1⟩

/-- TL_FTA_DELTA (R205). -/
def TL_FTA_DELTA : Nat := 0x80408
def TL_FTA_DELTA_DELTA : Fld := ⟨TL_FTA_DELTA, 0, 32⟩

/-- TL_FTA_RATE (R205). -/
def TL_FTA_RATE : Nat := 0x8040c
def TL_FTA_RATE_RATE : Fld := ⟨TL_FTA_RATE, 0, 32⟩

/-- TL_PSTAT (R172). -/
def TL_PSTAT (q : Nat) : Nat := 0x80800 + 0x1000 * q
def TL_PSTAT_LINK (q : Nat) : Fld := ⟨TL_PSTAT q, 0, 1⟩
def TL_PSTAT_MASTER (q : Nat) : Fld := ⟨TL_PSTAT q, 1, 1⟩

/-- TL_PCNT (R176, R186). -/
def TL_PCNT (q : Nat) : Nat := 0x80804 + 0x1000 * q
def TL_PCNT_FCSERR (q : Nat) : Fld := ⟨TL_PCNT q, 0, 8⟩
def TL_PCNT_OTHER (q : Nat) : Fld := ⟨TL_PCNT q, 8, 8⟩
def TL_PCNT_LATE (q : Nat) : Fld := ⟨TL_PCNT q, 16, 8⟩
def TL_PCNT_EARLY (q : Nat) : Fld := ⟨TL_PCNT q, 24, 8⟩

/-- TL_PRXOK (R176). -/
def TL_PRXOK (q : Nat) : Nat := 0x80808 + 0x1000 * q
def TL_PRXOK_N (q : Nat) : Fld := ⟨TL_PRXOK q, 0, 32⟩

/-- PR_CTL (R220, R238). -/
def PR_CTL : Nat := 0x90000
def PR_CTL_PAIREN : Fld := ⟨PR_CTL, 0, 1⟩
def PR_CTL_PAIRID : Fld := ⟨PR_CTL, 1, 1⟩
def PR_CTL_IRQ : Fld := ⟨PR_CTL, 2, 1⟩
def PR_CTL_AUTOJOIN : Fld := ⟨PR_CTL, 3, 1⟩
def PR_CTL_HALFLOW : Fld := ⟨PR_CTL, 8, 8⟩
def PR_CTL_HPRIO : Fld := ⟨PR_CTL, 16, 3⟩

/-- PR_STAT (R223). -/
def PR_STAT : Nat := 0x90004
def PR_STAT_ROLE : Fld := ⟨PR_STAT, 0, 3⟩
def PR_STAT_PROLE : Fld := ⟨PR_STAT, 3, 3⟩
def PR_STAT_SL0UP : Fld := ⟨PR_STAT, 6, 1⟩
def PR_STAT_SL1UP : Fld := ⟨PR_STAT, 7, 1⟩
def PR_STAT_RIGDIFF : Fld := ⟨PR_STAT, 8, 1⟩
def PR_STAT_RESYNC : Fld := ⟨PR_STAT, 9, 2⟩
def PR_STAT_STALECAUSE : Fld := ⟨PR_STAT, 11, 4⟩
def PR_STAT_HALTCAUSE : Fld := ⟨PR_STAT, 15, 3⟩
def PR_STAT_MIROVF : Fld := ⟨PR_STAT, 18, 1⟩
def PR_STAT_MIRW : Fld := ⟨PR_STAT, 19, 1⟩
def PR_STAT_HOREF : Fld := ⟨PR_STAT, 20, 1⟩

/-- PR_EPOCH (R223). -/
def PR_EPOCH : Nat := 0x90008
def PR_EPOCH_EPOCH : Fld := ⟨PR_EPOCH, 0, 32⟩

/-- PR_CMD (R224, R241, R242). -/
def PR_CMD : Nat := 0x9000c
def PR_CMD_HANDOVER : Fld := ⟨PR_CMD, 0, 1⟩
def PR_CMD_HALT : Fld := ⟨PR_CMD, 1, 1⟩
def PR_CMD_UNHALT : Fld := ⟨PR_CMD, 2, 1⟩
def PR_CMD_JOIN : Fld := ⟨PR_CMD, 3, 1⟩

/-- PR_MIRBASE (R231). -/
def PR_MIRBASE : Nat := 0x90010
def PR_MIRBASE_BASE : Fld := ⟨PR_MIRBASE, 0, 32⟩

/-- PR_MIRLEN (R231). -/
def PR_MIRLEN : Nat := 0x90014
def PR_MIRLEN_LEN : Fld := ⟨PR_MIRLEN, 0, 8⟩

/-- PR_OUTMASK (R238). -/
def PR_OUTMASK : Nat := 0x90018
def PR_OUTMASK_PWM : Fld := ⟨PR_OUTMASK, 0, 8⟩
def PR_OUTMASK_STEP : Fld := ⟨PR_OUTMASK, 8, 8⟩

/-- PR_DOMASK (R238). -/
def PR_DOMASK : Nat := 0x9001c
def PR_DOMASK_DO : Fld := ⟨PR_DOMASK, 0, 16⟩

/-- PR_PROMTIME (R238). -/
def PR_PROMTIME : Nat := 0x90020
def PR_PROMTIME_V : Fld := ⟨PR_PROMTIME, 0, 32⟩

/-- PR_HOTIME (R241). -/
def PR_HOTIME : Nat := 0x90024
def PR_HOTIME_V : Fld := ⟨PR_HOTIME, 0, 32⟩

/-- PR_CNT (R226, R228). -/
def PR_CNT : Nat := 0x90028
def PR_CNT_HBMISS : Fld := ⟨PR_CNT, 0, 8⟩
def PR_CNT_ONESIDE : Fld := ⟨PR_CNT, 8, 8⟩
def PR_CNT_GAPS : Fld := ⟨PR_CNT, 16, 8⟩
def PR_CNT_MIRSKIP : Fld := ⟨PR_CNT, 24, 8⟩

/-- PR_MIRSTAT (R232). -/
def PR_MIRSTAT : Nat := 0x9002c
def PR_MIRSTAT_PAGES : Fld := ⟨PR_MIRSTAT, 0, 8⟩
def PR_MIRSTAT_MAXPAGES : Fld := ⟨PR_MIRSTAT, 8, 8⟩

/-- PR_BACKLOG (R233). -/
def PR_BACKLOG : Nat := 0x90030
def PR_BACKLOG_QUEUE : Fld := ⟨PR_BACKLOG, 0, 9⟩
def PR_BACKLOG_QMAX : Fld := ⟨PR_BACKLOG, 16, 9⟩

/-- PW_CTL (R275). -/
def PW_CTL : Nat := 0xa0000
def PW_CTL_GPOL0 : Fld := ⟨PW_CTL, 0, 1⟩
def PW_CTL_GPOL1 : Fld := ⟨PW_CTL, 1, 1⟩
def PW_CTL_GSRC0 : Fld := ⟨PW_CTL, 2, 1⟩
def PW_CTL_GSRC1 : Fld := ⟨PW_CTL, 3, 1⟩

/-- PW_STAT (R274, R282). -/
def PW_STAT : Nat := 0xa0004
def PW_STAT_DLLOCK : Fld := ⟨PW_STAT, 0, 1⟩
def PW_STAT_OWNED : Fld := ⟨PW_STAT, 1, 1⟩
def PW_STAT_TRIPIN : Fld := ⟨PW_STAT, 4, 10⟩

/-- PW_G_CTL (R269). -/
def PW_G_CTL (g : Nat) : Nat := 0xa0100 + 0x40 * g
def PW_G_CTL_EN (g : Nat) : Fld := ⟨PW_G_CTL g, 0, 1⟩
def PW_G_CTL_PAIREN (g : Nat) : Fld := ⟨PW_G_CTL g, 1, 4⟩
def PW_G_CTL_POL (g : Nat) : Fld := ⟨PW_G_CTL g, 5, 4⟩
def PW_G_CTL_TSTATE (g : Nat) : Fld := ⟨PW_G_CTL g, 9, 8⟩
def PW_G_CTL_TG0 (g : Nat) : Fld := ⟨PW_G_CTL g, 17, 1⟩
def PW_G_CTL_TG1 (g : Nat) : Fld := ⟨PW_G_CTL g, 18, 1⟩
def PW_G_CTL_TPOL (g : Nat) : Fld := ⟨PW_G_CTL g, 19, 1⟩
def PW_G_CTL_TSRC (g : Nat) : Fld := ⟨PW_G_CTL g, 20, 1⟩
def PW_G_CTL_OWNENG (g : Nat) : Fld := ⟨PW_G_CTL g, 21, 3⟩
def PW_G_CTL_OWNED (g : Nat) : Fld := ⟨PW_G_CTL g, 24, 1⟩

/-- PW_G_START (R269). -/
def PW_G_START (g : Nat) : Nat := 0xa0104 + 0x40 * g
def PW_G_START_V (g : Nat) : Fld := ⟨PW_G_START g, 0, 32⟩

/-- PW_G_PER (R269). -/
def PW_G_PER (g : Nat) : Nat := 0xa0108 + 0x40 * g
def PW_G_PER_V (g : Nat) : Fld := ⟨PW_G_PER g, 0, 20⟩

/-- PW_G_DT (R271, R272). -/
def PW_G_DT (g : Nat) : Nat := 0xa010c + 0x40 * g
def PW_G_DT_DT (g : Nat) : Fld := ⟨PW_G_DT g, 0, 17⟩
def PW_G_DT_MINPW (g : Nat) : Fld := ⟨PW_G_DT g, 17, 15⟩

/-- PW_G_CMP (R270). -/
def PW_G_CMP (g : Nat) (p : Nat) : Nat := 0xa0110 + 0x40 * g + 0x4 * p
def PW_G_CMP_V (g : Nat) (p : Nat) : Fld := ⟨PW_G_CMP g p, 0, 25⟩

/-- PW_G_CMD (R273, R277). -/
def PW_G_CMD (g : Nat) : Nat := 0xa0120 + 0x40 * g
def PW_G_CMD_COMMIT (g : Nat) : Fld := ⟨PW_G_CMD g, 0, 1⟩
def PW_G_CMD_CLEAR (g : Nat) : Fld := ⟨PW_G_CMD g, 1, 1⟩
def PW_G_CMD_STRIP (g : Nat) : Fld := ⟨PW_G_CMD g, 2, 1⟩

/-- PW_G_STAT (R269, R275). -/
def PW_G_STAT (g : Nat) : Nat := 0xa0124 + 0x40 * g
def PW_G_STAT_RUN (g : Nat) : Fld := ⟨PW_G_STAT g, 0, 1⟩
def PW_G_STAT_TRIPPED (g : Nat) : Fld := ⟨PW_G_STAT g, 1, 1⟩
def PW_G_STAT_TRIP_STILL (g : Nat) : Fld := ⟨PW_G_STAT g, 2, 1⟩
def PW_G_STAT_LATESTART (g : Nat) : Fld := ⟨PW_G_STAT g, 3, 1⟩
def PW_G_STAT_NOLOCK (g : Nat) : Fld := ⟨PW_G_STAT g, 4, 1⟩
def PW_G_STAT_COMMITPEND (g : Nat) : Fld := ⟨PW_G_STAT g, 5, 1⟩
def PW_G_STAT_CAUSE (g : Nat) : Fld := ⟨PW_G_STAT g, 8, 8⟩

/-- PW_G_CNT (R272, R275, R282). -/
def PW_G_CNT (g : Nat) : Nat := 0xa0128 + 0x40 * g
def PW_G_CNT_SUPPR (g : Nat) : Fld := ⟨PW_G_CNT g, 0, 16⟩
def PW_G_CNT_LATE (g : Nat) : Fld := ⟨PW_G_CNT g, 16, 8⟩
def PW_G_CNT_TRIPS (g : Nat) : Fld := ⟨PW_G_CNT g, 24, 8⟩

/-- PW_G_LAST (R269). -/
def PW_G_LAST (g : Nat) : Nat := 0xa012c + 0x40 * g
def PW_G_LAST_V (g : Nat) : Fld := ⟨PW_G_LAST g, 0, 32⟩

/-- PW_LOC_WAKE (R281). -/
def PW_LOC_WAKE (n : Nat) : Nat := 0xa0400 + 0x8 * n
def PW_LOC_WAKE_WAKE (n : Nat) : Fld := ⟨PW_LOC_WAKE n, 0, 17⟩
def PW_LOC_WAKE_EN (n : Nat) : Fld := ⟨PW_LOC_WAKE n, 31, 1⟩

/-- PW_LOC_LATCH (R281). -/
def PW_LOC_LATCH (n : Nat) : Nat := 0xa0404 + 0x8 * n
def PW_LOC_LATCH_LATCH (n : Nat) : Fld := ⟨PW_LOC_LATCH n, 0, 17⟩

/-- AD_CH_CFG (R278). -/
def AD_CH_CFG (c : Nat) : Nat := 0xa8100 + 0x10 * c
def AD_CH_CFG_SRC (c : Nat) : Fld := ⟨AD_CH_CFG c, 0, 2⟩
def AD_CH_CFG_GRP (c : Nat) : Fld := ⟨AD_CH_CFG c, 2, 3⟩
def AD_CH_CFG_NET (c : Nat) : Fld := ⟨AD_CH_CFG c, 5, 9⟩
def AD_CH_CFG_DIV (c : Nat) : Fld := ⟨AD_CH_CFG c, 16, 4⟩

/-- AD_CH_RES (R280). -/
def AD_CH_RES (c : Nat) : Nat := 0xa8104 + 0x10 * c
def AD_CH_RES_RES (c : Nat) : Fld := ⟨AD_CH_RES c, 0, 16⟩
def AD_CH_RES_RAW (c : Nat) : Fld := ⟨AD_CH_RES c, 16, 16⟩

/-- AD_CH_TS (R278). -/
def AD_CH_TS (c : Nat) : Nat := 0xa8108 + 0x10 * c
def AD_CH_TS_V (c : Nat) : Fld := ⟨AD_CH_TS c, 0, 32⟩

/-- AD_CH_STAT (R279, R280). -/
def AD_CH_STAT (c : Nat) : Nat := 0xa810c + 0x10 * c
def AD_CH_STAT_FRESH (c : Nat) : Fld := ⟨AD_CH_STAT c, 0, 1⟩
def AD_CH_STAT_OVR (c : Nat) : Fld := ⟨AD_CH_STAT c, 8, 8⟩

/-- FB_P_CFG (R285, R286, R292). -/
def FB_P_CFG (p : Nat) : Nat := 0xb0000 + 0x40 * p
def FB_P_CFG_MODE (p : Nat) : Fld := ⟨FB_P_CFG p, 0, 2⟩
def FB_P_CFG_INV (p : Nat) : Fld := ⟨FB_P_CFG p, 2, 1⟩
def FB_P_CFG_ZQUAL (p : Nat) : Fld := ⟨FB_P_CFG p, 3, 1⟩
def FB_P_CFG_MINSP (p : Nat) : Fld := ⟨FB_P_CFG p, 4, 8⟩
def FB_P_CFG_PTSRC (p : Nat) : Fld := ⟨FB_P_CFG p, 12, 1⟩
def FB_P_CFG_PTEN (p : Nat) : Fld := ⟨FB_P_CFG p, 13, 1⟩
def FB_P_CFG_PTSEL (p : Nat) : Fld := ⟨FB_P_CFG p, 14, 3⟩

/-- FB_P_POS (R284). -/
def FB_P_POS (p : Nat) : Nat := 0xb0004 + 0x40 * p
def FB_P_POS_V (p : Nat) : Fld := ⟨FB_P_POS p, 0, 32⟩

/-- FB_P_IDX (R287). -/
def FB_P_IDX (p : Nat) : Nat := 0xb0008 + 0x40 * p
def FB_P_IDX_V (p : Nat) : Fld := ⟨FB_P_IDX p, 0, 32⟩

/-- FB_P_IDXTS (R287). -/
def FB_P_IDXTS (p : Nat) : Nat := 0xb000c + 0x40 * p
def FB_P_IDXTS_V (p : Nat) : Fld := ⟨FB_P_IDXTS p, 0, 32⟩

/-- FB_P_EIS (R291). -/
def FB_P_EIS (p : Nat) : Nat := 0xb0010 + 0x40 * p
def FB_P_EIS_V (p : Nat) : Fld := ⟨FB_P_EIS p, 0, 32⟩

/-- FB_P_PDS (R291). -/
def FB_P_PDS (p : Nat) : Nat := 0xb0014 + 0x40 * p
def FB_P_PDS_V (p : Nat) : Fld := ⟨FB_P_PDS p, 0, 32⟩

/-- FB_P_SPD (R291). -/
def FB_P_SPD (p : Nat) : Nat := 0xb0018 + 0x40 * p
def FB_P_SPD_WIN (p : Nat) : Fld := ⟨FB_P_SPD p, 0, 11⟩
def FB_P_SPD_TZERO (p : Nat) : Fld := ⟨FB_P_SPD p, 16, 10⟩

/-- FB_P_STAT (R284, R286). -/
def FB_P_STAT (p : Nat) : Nat := 0xb001c + 0x40 * p
def FB_P_STAT_IDXVALID (p : Nat) : Fld := ⟨FB_P_STAT p, 0, 1⟩
def FB_P_STAT_ILL (p : Nat) : Fld := ⟨FB_P_STAT p, 1, 1⟩
def FB_P_STAT_SPF (p : Nat) : Fld := ⟨FB_P_STAT p, 2, 1⟩
def FB_P_STAT_SSIERR (p : Nat) : Fld := ⟨FB_P_STAT p, 3, 1⟩
def FB_P_STAT_LINEFLT (p : Nat) : Fld := ⟨FB_P_STAT p, 4, 1⟩
def FB_P_STAT_HALL (p : Nat) : Fld := ⟨FB_P_STAT p, 5, 3⟩
def FB_P_STAT_CMP_BEHIND (p : Nat) : Fld := ⟨FB_P_STAT p, 8, 1⟩
def FB_P_STAT_CMPFIRED (p : Nat) : Fld := ⟨FB_P_STAT p, 9, 1⟩

/-- FB_P_ERRCNT (R285, R286, R290). -/
def FB_P_ERRCNT (p : Nat) : Nat := 0xb0020 + 0x40 * p
def FB_P_ERRCNT_ILLCNT (p : Nat) : Fld := ⟨FB_P_ERRCNT p, 0, 8⟩
def FB_P_ERRCNT_SPFCNT (p : Nat) : Fld := ⟨FB_P_ERRCNT p, 8, 8⟩
def FB_P_ERRCNT_SSICNT (p : Nat) : Fld := ⟨FB_P_ERRCNT p, 16, 8⟩

/-- FB_P_SSI (R289). -/
def FB_P_SSI (p : Nat) : Nat := 0xb0024 + 0x40 * p
def FB_P_SSI_BITS (p : Nat) : Fld := ⟨FB_P_SSI p, 0, 6⟩
def FB_P_SSI_GRAY (p : Nat) : Fld := ⟨FB_P_SSI p, 6, 1⟩
def FB_P_SSI_ERRBIT (p : Nat) : Fld := ⟨FB_P_SSI p, 7, 1⟩
def FB_P_SSI_CLKDIV (p : Nat) : Fld := ⟨FB_P_SSI p, 8, 11⟩
def FB_P_SSI_NET (p : Nat) : Fld := ⟨FB_P_SSI p, 19, 9⟩

/-- FB_P_CMP (R293). -/
def FB_P_CMP (p : Nat) : Nat := 0xb0028 + 0x40 * p
def FB_P_CMP_V (p : Nat) : Fld := ⟨FB_P_CMP p, 0, 32⟩

/-- FB_P_CMPCTL (R293). -/
def FB_P_CMPCTL (p : Nat) : Nat := 0xb002c + 0x40 * p
def FB_P_CMPCTL_EN (p : Nat) : Fld := ⟨FB_P_CMPCTL p, 0, 1⟩
def FB_P_CMPCTL_NET (p : Nat) : Fld := ⟨FB_P_CMPCTL p, 1, 9⟩
def FB_P_CMPCTL_DIRSEL (p : Nat) : Fld := ⟨FB_P_CMPCTL p, 10, 2⟩

/-- FB_P_CMPPER (R293). -/
def FB_P_CMPPER (p : Nat) : Nat := 0xb0030 + 0x40 * p
def FB_P_CMPPER_V (p : Nat) : Fld := ⟨FB_P_CMPPER p, 0, 32⟩

/-- FB_P_CMPTS (R293). -/
def FB_P_CMPTS (p : Nat) : Nat := 0xb0034 + 0x40 * p
def FB_P_CMPTS_V (p : Nat) : Fld := ⟨FB_P_CMPTS p, 0, 32⟩

/-- ST_S_CTL (R295, R296, R300). -/
def ST_S_CTL (s : Nat) : Nat := 0xb8000 + 0x80 * s
def ST_S_CTL_EN (s : Nat) : Fld := ⟨ST_S_CTL s, 0, 1⟩
def ST_S_CTL_MODE (s : Nat) : Fld := ⟨ST_S_CTL s, 1, 1⟩
def ST_S_CTL_MSGRP (s : Nat) : Fld := ⟨ST_S_CTL s, 2, 3⟩
def ST_S_CTL_DIRPOL (s : Nat) : Fld := ⟨ST_S_CTL s, 5, 1⟩
def ST_S_CTL_STEPPOL (s : Nat) : Fld := ⟨ST_S_CTL s, 6, 1⟩
def ST_S_CTL_STOPNET (s : Nat) : Fld := ⟨ST_S_CTL s, 7, 9⟩
def ST_S_CTL_STOPNETEN (s : Nat) : Fld := ⟨ST_S_CTL s, 16, 1⟩
def ST_S_CTL_OWNED (s : Nat) : Fld := ⟨ST_S_CTL s, 17, 1⟩
def ST_S_CTL_OWNENG (s : Nat) : Fld := ⟨ST_S_CTL s, 18, 3⟩
def ST_S_CTL_LIMACT (s : Nat) : Fld := ⟨ST_S_CTL s, 21, 1⟩
def ST_S_CTL_HMODE (s : Nat) : Fld := ⟨ST_S_CTL s, 22, 2⟩
def ST_S_CTL_HFBP (s : Nat) : Fld := ⟨ST_S_CTL s, 24, 3⟩

/-- ST_S_CMD (R297). -/
def ST_S_CMD (s : Nat) : Nat := 0xb8004 + 0x80 * s
def ST_S_CMD_CMD (s : Nat) : Fld := ⟨ST_S_CMD s, 0, 3⟩

/-- ST_S_STAT (R297, R301). -/
def ST_S_STAT (s : Nat) : Nat := 0xb8008 + 0x80 * s
def ST_S_STAT_STATE (s : Nat) : Fld := ⟨ST_S_STAT s, 0, 3⟩
def ST_S_STAT_HOMED (s : Nat) : Fld := ⟨ST_S_STAT s, 3, 1⟩
def ST_S_STAT_DEFERRED (s : Nat) : Fld := ⟨ST_S_STAT s, 4, 1⟩
def ST_S_STAT_VLIMIT (s : Nat) : Fld := ⟨ST_S_STAT s, 5, 1⟩
def ST_S_STAT_LIMSTOP (s : Nat) : Fld := ⟨ST_S_STAT s, 6, 1⟩
def ST_S_STAT_HOME_LIMIT (s : Nat) : Fld := ⟨ST_S_STAT s, 7, 1⟩
def ST_S_STAT_POSLOST (s : Nat) : Fld := ⟨ST_S_STAT s, 8, 1⟩
def ST_S_STAT_REFUSED (s : Nat) : Fld := ⟨ST_S_STAT s, 9, 1⟩
def ST_S_STAT_REASON (s : Nat) : Fld := ⟨ST_S_STAT s, 10, 3⟩
def ST_S_STAT_LIMLATP (s : Nat) : Fld := ⟨ST_S_STAT s, 13, 1⟩
def ST_S_STAT_LIMLATN (s : Nat) : Fld := ⟨ST_S_STAT s, 14, 1⟩
def ST_S_STAT_CMP_BEHIND (s : Nat) : Fld := ⟨ST_S_STAT s, 15, 1⟩
def ST_S_STAT_CMPFIRED (s : Nat) : Fld := ⟨ST_S_STAT s, 16, 1⟩

/-- ST_S_POS (R295). -/
def ST_S_POS (s : Nat) : Nat := 0xb800c + 0x80 * s
def ST_S_POS_V (s : Nat) : Fld := ⟨ST_S_POS s, 0, 32⟩

/-- ST_S_VEL (R295). -/
def ST_S_VEL (s : Nat) : Nat := 0xb8010 + 0x80 * s
def ST_S_VEL_V (s : Nat) : Fld := ⟨ST_S_VEL s, 0, 32⟩

/-- ST_S_TGT (R297). -/
def ST_S_TGT (s : Nat) : Nat := 0xb8014 + 0x80 * s
def ST_S_TGT_V (s : Nat) : Fld := ⟨ST_S_TGT s, 0, 32⟩

/-- ST_S_VLIM (R295). -/
def ST_S_VLIM (s : Nat) : Nat := 0xb8018 + 0x80 * s
def ST_S_VLIM_V (s : Nat) : Fld := ⟨ST_S_VLIM s, 0, 32⟩

/-- ST_S_ALIM (R295). -/
def ST_S_ALIM (s : Nat) : Nat := 0xb801c + 0x80 * s
def ST_S_ALIM_V (s : Nat) : Fld := ⟨ST_S_ALIM s, 0, 32⟩

/-- ST_S_DLIM (R298). -/
def ST_S_DLIM (s : Nat) : Nat := 0xb8020 + 0x80 * s
def ST_S_DLIM_V (s : Nat) : Fld := ⟨ST_S_DLIM s, 0, 32⟩

/-- ST_S_VSS (R297). -/
def ST_S_VSS (s : Nat) : Nat := 0xb8024 + 0x80 * s
def ST_S_VSS_V (s : Nat) : Fld := ⟨ST_S_VSS s, 0, 32⟩

/-- ST_S_PMIN (R299). -/
def ST_S_PMIN (s : Nat) : Nat := 0xb8028 + 0x80 * s
def ST_S_PMIN_V (s : Nat) : Fld := ⟨ST_S_PMIN s, 0, 32⟩

/-- ST_S_PMAX (R299). -/
def ST_S_PMAX (s : Nat) : Nat := 0xb802c + 0x80 * s
def ST_S_PMAX_V (s : Nat) : Fld := ⟨ST_S_PMAX s, 0, 32⟩

/-- ST_S_STEPW (R295). -/
def ST_S_STEPW (s : Nat) : Nat := 0xb8030 + 0x80 * s
def ST_S_STEPW_STEPW (s : Nat) : Fld := ⟨ST_S_STEPW s, 0, 8⟩
def ST_S_STEPW_DSETUP (s : Nat) : Fld := ⟨ST_S_STEPW s, 16, 8⟩

/-- ST_S_AMP (R296). -/
def ST_S_AMP (s : Nat) : Nat := 0xb8034 + 0x80 * s
def ST_S_AMP_AMP (s : Nat) : Fld := ⟨ST_S_AMP s, 0, 16⟩
def ST_S_AMP_HOLDAMP (s : Nat) : Fld := ⟨ST_S_AMP s, 16, 16⟩

/-- ST_S_LIM (R301). -/
def ST_S_LIM (s : Nat) : Nat := 0xb8038 + 0x80 * s
def ST_S_LIM_POSDI (s : Nat) : Fld := ⟨ST_S_LIM s, 0, 5⟩
def ST_S_LIM_POSEN (s : Nat) : Fld := ⟨ST_S_LIM s, 5, 1⟩
def ST_S_LIM_NEGDI (s : Nat) : Fld := ⟨ST_S_LIM s, 8, 5⟩
def ST_S_LIM_NEGEN (s : Nat) : Fld := ⟨ST_S_LIM s, 13, 1⟩
def ST_S_LIM_HOMEDI (s : Nat) : Fld := ⟨ST_S_LIM s, 16, 5⟩
def ST_S_LIM_HOMEEN (s : Nat) : Fld := ⟨ST_S_LIM s, 21, 1⟩

/-- ST_S_HVEL (R302). -/
def ST_S_HVEL (s : Nat) : Nat := 0xb803c + 0x80 * s
def ST_S_HVEL_V (s : Nat) : Fld := ⟨ST_S_HVEL s, 0, 32⟩

/-- ST_S_HOFS (R302). -/
def ST_S_HOFS (s : Nat) : Nat := 0xb8040 + 0x80 * s
def ST_S_HOFS_V (s : Nat) : Fld := ⟨ST_S_HOFS s, 0, 32⟩

/-- ST_S_HREL (R301). -/
def ST_S_HREL (s : Nat) : Nat := 0xb8044 + 0x80 * s
def ST_S_HREL_V (s : Nat) : Fld := ⟨ST_S_HREL s, 0, 32⟩

/-- ST_S_HPOS (R302). -/
def ST_S_HPOS (s : Nat) : Nat := 0xb8048 + 0x80 * s
def ST_S_HPOS_V (s : Nat) : Fld := ⟨ST_S_HPOS s, 0, 32⟩

/-- ST_S_CMP (R293). -/
def ST_S_CMP (s : Nat) : Nat := 0xb804c + 0x80 * s
def ST_S_CMP_V (s : Nat) : Fld := ⟨ST_S_CMP s, 0, 32⟩

/-- ST_S_CMPCTL (R293). -/
def ST_S_CMPCTL (s : Nat) : Nat := 0xb8050 + 0x80 * s
def ST_S_CMPCTL_EN (s : Nat) : Fld := ⟨ST_S_CMPCTL s, 0, 1⟩
def ST_S_CMPCTL_NET (s : Nat) : Fld := ⟨ST_S_CMPCTL s, 1, 9⟩
def ST_S_CMPCTL_DIRSEL (s : Nat) : Fld := ⟨ST_S_CMPCTL s, 10, 2⟩

/-- ST_S_CMPPER (R293). -/
def ST_S_CMPPER (s : Nat) : Nat := 0xb8054 + 0x80 * s
def ST_S_CMPPER_V (s : Nat) : Fld := ⟨ST_S_CMPPER s, 0, 32⟩

/-- ST_S_CMPTS (R293). -/
def ST_S_CMPTS (s : Nat) : Nat := 0xb8058 + 0x80 * s
def ST_S_CMPTS_V (s : Nat) : Fld := ⟨ST_S_CMPTS s, 0, 32⟩

/-- ST_TAB (R296). -/
def ST_TAB (k : Nat) : Nat := 0xbc000 + 0x4 * k
def ST_TAB_T (k : Nat) : Fld := ⟨ST_TAB k, 0, 16⟩

/-- FI_CTL (R305). -/
def FI_CTL : Nat := 0xc0000
def FI_CTL_TYPE : Fld := ⟨FI_CTL, 0, 4⟩

/-- FI_STAT (R309, R317). -/
def FI_STAT : Nat := 0xc0004
def FI_STAT_VFLOW : Fld := ⟨FI_STAT, 0, 1⟩
def FI_STAT_VFCUT : Fld := ⟨FI_STAT, 1, 1⟩
def FI_STAT_VFOK : Fld := ⟨FI_STAT, 2, 1⟩
def FI_STAT_REARMREF : Fld := ⟨FI_STAT, 3, 1⟩
def FI_STAT_COSOVF : Fld := ⟨FI_STAT, 4, 1⟩
def FI_STAT_COSCNT : Fld := ⟨FI_STAT, 8, 8⟩

/-- FI_VFIELD (R317). -/
def FI_VFIELD : Nat := 0xc0008
def FI_VFIELD_MV : Fld := ⟨FI_VFIELD, 0, 16⟩
def FI_VFIELD_MIN : Fld := ⟨FI_VFIELD, 16, 16⟩

/-- FI_CMD (R319). -/
def FI_CMD : Nat := 0xc000c
def FI_CMD_VFREARM : Fld := ⟨FI_CMD, 0, 1⟩

/-- FI_DIN (R306). -/
def FI_DIN : Nat := 0xc0010
def FI_DIN_V : Fld := ⟨FI_DIN, 0, 32⟩

/-- FI_DIRAW (R306). -/
def FI_DIRAW : Nat := 0xc0014
def FI_DIRAW_V : Fld := ⟨FI_DIRAW, 0, 32⟩

/-- FI_COSEN (R308). -/
def FI_COSEN : Nat := 0xc0018
def FI_COSEN_V : Fld := ⟨FI_COSEN, 0, 32⟩

/-- FI_COS0 (R308). -/
def FI_COS0 : Nat := 0xc0020
def FI_COS0_INPUT : Fld := ⟨FI_COS0, 0, 5⟩
def FI_COS0_LEVEL : Fld := ⟨FI_COS0, 8, 1⟩
def FI_COS0_MERGED : Fld := ⟨FI_COS0, 16, 8⟩
def FI_COS0_VALID : Fld := ⟨FI_COS0, 31, 1⟩

/-- FI_COS1 (R308). -/
def FI_COS1 : Nat := 0xc0024
def FI_COS1_TS : Fld := ⟨FI_COS1, 0, 32⟩

/-- FI_DO_OUT (R311). -/
def FI_DO_OUT : Nat := 0xc0040
def FI_DO_OUT_V : Fld := ⟨FI_DO_OUT, 0, 16⟩

/-- FI_DO_SET (R311). -/
def FI_DO_SET : Nat := 0xc0044
def FI_DO_SET_V : Fld := ⟨FI_DO_SET, 0, 16⟩

/-- FI_DO_RES (R311). -/
def FI_DO_RES : Nat := 0xc0048
def FI_DO_RES_V : Fld := ⟨FI_DO_RES, 0, 16⟩

/-- FI_DO_STAT (R311). -/
def FI_DO_STAT : Nat := 0xc004c
def FI_DO_STAT_V : Fld := ⟨FI_DO_STAT, 0, 16⟩

/-- FI_DO_FLT (R313, R314). -/
def FI_DO_FLT : Nat := 0xc0050
def FI_DO_FLT_SHORT : Fld := ⟨FI_DO_FLT, 0, 16⟩
def FI_DO_FLT_OPENLD : Fld := ⟨FI_DO_FLT, 16, 16⟩

/-- FI_DI_CFG (R306, R310). -/
def FI_DI_CFG (i : Nat) : Nat := 0xc0100 + 0x4 * i
def FI_DI_CFG_LIM (i : Nat) : Fld := ⟨FI_DI_CFG i, 0, 16⟩
def FI_DI_CFG_INV (i : Nat) : Fld := ⟨FI_DI_CFG i, 16, 1⟩
def FI_DI_CFG_WAKE (i : Nat) : Fld := ⟨FI_DI_CFG i, 17, 1⟩

/-- FI_DI_NET (R307). -/
def FI_DI_NET (i : Nat) : Nat := 0xc0180 + 0x4 * i
def FI_DI_NET_FLTNET (i : Nat) : Fld := ⟨FI_DI_NET i, 0, 9⟩
def FI_DI_NET_FLTEN (i : Nat) : Fld := ⟨FI_DI_NET i, 9, 1⟩
def FI_DI_NET_RAWNET (i : Nat) : Fld := ⟨FI_DI_NET i, 16, 9⟩
def FI_DI_NET_RAWEN (i : Nat) : Fld := ⟨FI_DI_NET i, 25, 1⟩

/-- FI_DI_TS (R307). -/
def FI_DI_TS (i : Nat) : Nat := 0xc0200 + 0x4 * i
def FI_DI_TS_TS (i : Nat) : Fld := ⟨FI_DI_TS i, 0, 32⟩

/-- FI_DO_CFG (R311, R314, R315). -/
def FI_DO_CFG (j : Nat) : Nat := 0xc0300 + 0x4 * j
def FI_DO_CFG_SRC (j : Nat) : Fld := ⟨FI_DO_CFG j, 0, 1⟩
def FI_DO_CFG_NET (j : Nat) : Fld := ⟨FI_DO_CFG j, 1, 9⟩
def FI_DO_CFG_KEEP (j : Nat) : Fld := ⟨FI_DO_CFG j, 10, 1⟩
def FI_DO_CFG_OLEN (j : Nat) : Fld := ⟨FI_DO_CFG j, 11, 1⟩

/-- CN_CTL (R323, R328). -/
def CN_CTL (k : Nat) : Nat := 0xd0000 + 0x1000 * k
def CN_CTL_EN (k : Nat) : Fld := ⟨CN_CTL k, 0, 1⟩
def CN_CTL_LISTEN (k : Nat) : Fld := ⟨CN_CTL k, 1, 1⟩
def CN_CTL_FDEN (k : Nat) : Fld := ⟨CN_CTL k, 2, 1⟩
def CN_CTL_TXORD (k : Nat) : Fld := ⟨CN_CTL k, 3, 1⟩

/-- CN_STAT (R327, R330). -/
def CN_STAT (k : Nat) : Nat := 0xd0004 + 0x1000 * k
def CN_STAT_STATE (k : Nat) : Fld := ⟨CN_STAT k, 0, 2⟩
def CN_STAT_TEC (k : Nat) : Fld := ⟨CN_STAT k, 8, 8⟩
def CN_STAT_REC (k : Nat) : Fld := ⟨CN_STAT k, 16, 8⟩
def CN_STAT_LASTERR (k : Nat) : Fld := ⟨CN_STAT k, 24, 3⟩
def CN_STAT_RXCONFL (k : Nat) : Fld := ⟨CN_STAT k, 27, 1⟩
def CN_STAT_RXLOCK (k : Nat) : Fld := ⟨CN_STAT k, 28, 1⟩
def CN_STAT_RXLTO (k : Nat) : Fld := ⟨CN_STAT k, 29, 1⟩

/-- CN_NBT (R322). -/
def CN_NBT (k : Nat) : Nat := 0xd0008 + 0x1000 * k
def CN_NBT_BRP (k : Nat) : Fld := ⟨CN_NBT k, 0, 8⟩
def CN_NBT_TSEG1 (k : Nat) : Fld := ⟨CN_NBT k, 8, 8⟩
def CN_NBT_TSEG2 (k : Nat) : Fld := ⟨CN_NBT k, 16, 7⟩
def CN_NBT_SJW (k : Nat) : Fld := ⟨CN_NBT k, 24, 7⟩

/-- CN_DBT (R322). -/
def CN_DBT (k : Nat) : Nat := 0xd000c + 0x1000 * k
def CN_DBT_DBRP (k : Nat) : Fld := ⟨CN_DBT k, 0, 5⟩
def CN_DBT_DTSEG1 (k : Nat) : Fld := ⟨CN_DBT k, 8, 5⟩
def CN_DBT_DTSEG2 (k : Nat) : Fld := ⟨CN_DBT k, 16, 4⟩
def CN_DBT_DSJW (k : Nat) : Fld := ⟨CN_DBT k, 24, 4⟩
def CN_DBT_TDCEN (k : Nat) : Fld := ⟨CN_DBT k, 31, 1⟩

/-- CN_TDC (R322). -/
def CN_TDC (k : Nat) : Nat := 0xd0010 + 0x1000 * k
def CN_TDC_TDCO (k : Nat) : Fld := ⟨CN_TDC k, 0, 7⟩

/-- CN_CMD (R327, R330). -/
def CN_CMD (k : Nat) : Nat := 0xd0014 + 0x1000 * k
def CN_CMD_RECOVER (k : Nat) : Fld := ⟨CN_CMD k, 0, 1⟩
def CN_CMD_RXUNLOCK (k : Nat) : Fld := ⟨CN_CMD k, 1, 1⟩

/-- CN_CNT (R324, R331). -/
def CN_CNT (k : Nat) : Nat := 0xd0018 + 0x1000 * k
def CN_CNT_RXOVF (k : Nat) : Fld := ⟨CN_CNT k, 0, 8⟩
def CN_CNT_TXERR (k : Nat) : Fld := ⟨CN_CNT k, 8, 8⟩
def CN_CNT_RXERR (k : Nat) : Fld := ⟨CN_CNT k, 16, 8⟩
def CN_CNT_LATE (k : Nat) : Fld := ⟨CN_CNT k, 24, 8⟩

/-- CN_RXSTAT (R330). -/
def CN_RXSTAT (k : Nat) : Nat := 0xd001c + 0x1000 * k
def CN_RXSTAT_COUNT (k : Nat) : Fld := ⟨CN_RXSTAT k, 0, 7⟩

/-- CN_FLT_ID (R329). -/
def CN_FLT_ID (k : Nat) (f : Nat) : Nat := 0xd0040 + 0x1000 * k + 0x8 * f
def CN_FLT_ID_ID (k : Nat) (f : Nat) : Fld := ⟨CN_FLT_ID k f, 0, 29⟩
def CN_FLT_ID_IDE (k : Nat) (f : Nat) : Fld := ⟨CN_FLT_ID k f, 29, 1⟩
def CN_FLT_ID_EN (k : Nat) (f : Nat) : Fld := ⟨CN_FLT_ID k f, 31, 1⟩

/-- CN_FLT_MASK (R329). -/
def CN_FLT_MASK (k : Nat) (f : Nat) : Nat := 0xd0044 + 0x1000 * k + 0x8 * f
def CN_FLT_MASK_MASK (k : Nat) (f : Nat) : Fld := ⟨CN_FLT_MASK k f, 0, 29⟩
def CN_FLT_MASK_IDEM (k : Nat) (f : Nat) : Fld := ⟨CN_FLT_MASK k f, 29, 1⟩

/-- CN_TX_CMD (R323, R326). -/
def CN_TX_CMD (k : Nat) (b : Nat) : Nat := 0xd0100 + 0x1000 * k + 0x80 * b
def CN_TX_CMD_REQ (k : Nat) (b : Nat) : Fld := ⟨CN_TX_CMD k b, 0, 1⟩
def CN_TX_CMD_ABORT (k : Nat) (b : Nat) : Fld := ⟨CN_TX_CMD k b, 1, 1⟩

/-- CN_TX_STAT (R323, R325). -/
def CN_TX_STAT (k : Nat) (b : Nat) : Nat := 0xd0104 + 0x1000 * k + 0x80 * b
def CN_TX_STAT_STATE (k : Nat) (b : Nat) : Fld := ⟨CN_TX_STAT k b, 0, 3⟩
def CN_TX_STAT_ERRS (k : Nat) (b : Nat) : Fld := ⟨CN_TX_STAT k b, 8, 4⟩

/-- CN_TX_ID (R323). -/
def CN_TX_ID (k : Nat) (b : Nat) : Nat := 0xd0108 + 0x1000 * k + 0x80 * b
def CN_TX_ID_ID (k : Nat) (b : Nat) : Fld := ⟨CN_TX_ID k b, 0, 29⟩
def CN_TX_ID_IDE (k : Nat) (b : Nat) : Fld := ⟨CN_TX_ID k b, 29, 1⟩
def CN_TX_ID_RTR (k : Nat) (b : Nat) : Fld := ⟨CN_TX_ID k b, 30, 1⟩

/-- CN_TX_CTRL (R324, R325). -/
def CN_TX_CTRL (k : Nat) (b : Nat) : Nat := 0xd010c + 0x1000 * k + 0x80 * b
def CN_TX_CTRL_DLC (k : Nat) (b : Nat) : Fld := ⟨CN_TX_CTRL k b, 0, 4⟩
def CN_TX_CTRL_FDF (k : Nat) (b : Nat) : Fld := ⟨CN_TX_CTRL k b, 4, 1⟩
def CN_TX_CTRL_BRS (k : Nat) (b : Nat) : Fld := ⟨CN_TX_CTRL k b, 5, 1⟩
def CN_TX_CTRL_LAUNCHEN (k : Nat) (b : Nat) : Fld := ⟨CN_TX_CTRL k b, 6, 1⟩
def CN_TX_CTRL_RLIM (k : Nat) (b : Nat) : Fld := ⟨CN_TX_CTRL k b, 8, 4⟩

/-- CN_TX_LAUNCH (R324). -/
def CN_TX_LAUNCH (k : Nat) (b : Nat) : Nat := 0xd0110 + 0x1000 * k + 0x80 * b
def CN_TX_LAUNCH_T (k : Nat) (b : Nat) : Fld := ⟨CN_TX_LAUNCH k b, 0, 32⟩

/-- CN_TX_TS (R325). -/
def CN_TX_TS (k : Nat) (b : Nat) : Nat := 0xd0114 + 0x1000 * k + 0x80 * b
def CN_TX_TS_T (k : Nat) (b : Nat) : Fld := ⟨CN_TX_TS k b, 0, 32⟩

/-- CN_TX_DATA (R323). -/
def CN_TX_DATA (k : Nat) (b : Nat) (w : Nat) : Nat := 0xd0140 + 0x1000 * k + 0x80 * b + 0x4 * w
def CN_TX_DATA_D (k : Nat) (b : Nat) (w : Nat) : Fld := ⟨CN_TX_DATA k b w, 0, 32⟩

/-- CN_RXW (R330). -/
def CN_RXW (k : Nat) (w : Nat) : Nat := 0xd0400 + 0x1000 * k + 0x4 * w
def CN_RXW_WORD (k : Nat) (w : Nat) : Fld := ⟨CN_RXW k w, 0, 32⟩

/-- PE_P_CTL (R363). -/
def PE_P_CTL (p : Nat) : Nat := 0xe0000 + 0x1000 * p
def PE_P_CTL_EN (p : Nat) : Fld := ⟨PE_P_CTL p, 0, 1⟩
def PE_P_CTL_SPDMAX (p : Nat) : Fld := ⟨PE_P_CTL p, 1, 2⟩
def PE_P_CTL_RXIRQ (p : Nat) : Fld := ⟨PE_P_CTL p, 3, 1⟩

/-- PE_P_STAT (R363). -/
def PE_P_STAT (p : Nat) : Nat := 0xe0004 + 0x1000 * p
def PE_P_STAT_LINK (p : Nat) : Fld := ⟨PE_P_STAT p, 0, 1⟩
def PE_P_STAT_SPEED (p : Nat) : Fld := ⟨PE_P_STAT p, 1, 2⟩
def PE_P_STAT_FD (p : Nat) : Fld := ⟨PE_P_STAT p, 3, 1⟩

/-- PE_P_MACLO (R363). -/
def PE_P_MACLO (p : Nat) : Nat := 0xe0008 + 0x1000 * p
def PE_P_MACLO_V (p : Nat) : Fld := ⟨PE_P_MACLO p, 0, 32⟩

/-- PE_P_MACHI (R363). -/
def PE_P_MACHI (p : Nat) : Nat := 0xe000c + 0x1000 * p
def PE_P_MACHI_V (p : Nat) : Fld := ⟨PE_P_MACHI p, 0, 16⟩

/-- PE_P_IPV4 (R367). -/
def PE_P_IPV4 (p : Nat) : Nat := 0xe0010 + 0x1000 * p
def PE_P_IPV4_V (p : Nat) : Fld := ⟨PE_P_IPV4 p, 0, 32⟩

/-- PE_P_RXPUSH (R364). -/
def PE_P_RXPUSH (p : Nat) : Nat := 0xe0020 + 0x1000 * p
def PE_P_RXPUSH_ADDR (p : Nat) : Fld := ⟨PE_P_RXPUSH p, 0, 32⟩

/-- PE_P_RXPOP (R364). -/
def PE_P_RXPOP (p : Nat) : Nat := 0xe0024 + 0x1000 * p
def PE_P_RXPOP_ADDR (p : Nat) : Fld := ⟨PE_P_RXPOP p, 0, 32⟩

/-- PE_P_RXSTAT (R364). -/
def PE_P_RXSTAT (p : Nat) : Nat := 0xe0028 + 0x1000 * p
def PE_P_RXSTAT_FREE (p : Nat) : Fld := ⟨PE_P_RXSTAT p, 0, 9⟩
def PE_P_RXSTAT_FILLED (p : Nat) : Fld := ⟨PE_P_RXSTAT p, 16, 9⟩

/-- PE_P_CNT (R363, R364). -/
def PE_P_CNT (p : Nat) : Nat := 0xe002c + 0x1000 * p
def PE_P_CNT_RXNOBUF (p : Nat) : Fld := ⟨PE_P_CNT p, 0, 8⟩
def PE_P_CNT_FCSERR (p : Nat) : Fld := ⟨PE_P_CNT p, 8, 8⟩
def PE_P_CNT_TOOLONG (p : Nat) : Fld := ⟨PE_P_CNT p, 16, 8⟩

/-- PE_Q_PUSH (R365). -/
def PE_Q_PUSH (p : Nat) (q : Nat) : Nat := 0xe0100 + 0x1000 * p + 0x10 * q
def PE_Q_PUSH_ADDR (p : Nat) (q : Nat) : Fld := ⟨PE_Q_PUSH p q, 0, 32⟩

/-- PE_Q_STAT (R53, R365). -/
def PE_Q_STAT (p : Nat) (q : Nat) : Nat := 0xe0104 + 0x1000 * p + 0x10 * q
def PE_Q_STAT_USED (p : Nat) (q : Nat) : Fld := ⟨PE_Q_STAT p q, 0, 7⟩
def PE_Q_STAT_FULL (p : Nat) (q : Nat) : Fld := ⟨PE_Q_STAT p q, 7, 1⟩
def PE_Q_STAT_LATE (p : Nat) (q : Nat) : Fld := ⟨PE_Q_STAT p q, 8, 8⟩

/-- PE_Q_POP (R365). -/
def PE_Q_POP (p : Nat) (q : Nat) : Nat := 0xe0108 + 0x1000 * p + 0x10 * q
def PE_Q_POP_ADDR (p : Nat) (q : Nat) : Fld := ⟨PE_Q_POP p q, 0, 32⟩

/-- PE_HDS_CTL (R367). -/
def PE_HDS_CTL : Nat := 0xe2000
def PE_HDS_CTL_EN : Fld := ⟨PE_HDS_CTL, 0, 1⟩
def PE_HDS_CTL_WREN : Fld := ⟨PE_HDS_CTL, 1, 1⟩
def PE_HDS_CTL_PORTS : Fld := ⟨PE_HDS_CTL, 2, 2⟩
def PE_HDS_CTL_UDP : Fld := ⟨PE_HDS_CTL, 16, 16⟩

/-- PE_HDS_ALLOW (R367). -/
def PE_HDS_ALLOW (i : Nat) : Nat := 0xe2004 + 0x4 * i
def PE_HDS_ALLOW_V (i : Nat) : Fld := ⟨PE_HDS_ALLOW i, 0, 32⟩

/-- PE_HDS_CNT (R367). -/
def PE_HDS_CNT : Nat := 0xe2014
def PE_HDS_CNT_REQ : Fld := ⟨PE_HDS_CNT, 0, 16⟩
def PE_HDS_CNT_DENY : Fld := ⟨PE_HDS_CNT, 16, 8⟩
def PE_HDS_CNT_BAD : Fld := ⟨PE_HDS_CNT, 24, 8⟩

/-- RG_STAT (R343, R352). -/
def RG_STAT : Nat := 0xf0000
def RG_STAT_STATE : Fld := ⟨RG_STAT, 0, 2⟩
def RG_STAT_SLOT : Fld := ⟨RG_STAT, 2, 1⟩
def RG_STAT_CALSRC : Fld := ⟨RG_STAT, 3, 2⟩
def RG_STAT_FALLBACK : Fld := ⟨RG_STAT, 5, 1⟩

/-- RG_CMD (R354). -/
def RG_CMD : Nat := 0xf0004
def RG_CMD_OP : Fld := ⟨RG_CMD, 0, 4⟩
def RG_CMD_SLOT : Fld := ⟨RG_CMD, 4, 1⟩
def RG_CMD_KEYSLOT : Fld := ⟨RG_CMD, 5, 2⟩
def RG_CMD_CONFIRM : Fld := ⟨RG_CMD, 16, 16⟩

/-- RG_CMDSTAT (R354). -/
def RG_CMDSTAT : Nat := 0xf0008
def RG_CMDSTAT_OUTCOME : Fld := ⟨RG_CMDSTAT, 0, 4⟩
def RG_CMDSTAT_LASTOP : Fld := ⟨RG_CMDSTAT, 8, 4⟩

/-- RG_DIGEST (R340). -/
def RG_DIGEST (i : Nat) : Nat := 0xf0010 + 0x4 * i
def RG_DIGEST_D (i : Nat) : Fld := ⟨RG_DIGEST i, 0, 32⟩

/-- RG_SEQ (R346). -/
def RG_SEQ : Nat := 0xf0030
def RG_SEQ_V : Fld := ⟨RG_SEQ, 0, 32⟩

/-- RG_SECVER (R345). -/
def RG_SECVER : Nat := 0xf0034
def RG_SECVER_V : Fld := ⟨RG_SECVER, 0, 8⟩

/-- RG_ROLL (R342). -/
def RG_ROLL : Nat := 0xf0038
def RG_ROLL_V : Fld := ⟨RG_ROLL, 0, 7⟩

/-- RG_OTP (R341). -/
def RG_OTP : Nat := 0xf003c
def RG_OTP_KEYSET : Fld := ⟨RG_OTP, 0, 4⟩
def RG_OTP_KEYREV : Fld := ⟨RG_OTP, 4, 4⟩
def RG_OTP_KEYLOCK : Fld := ⟨RG_OTP, 8, 1⟩

/-- RG_KEYADDR (R341). -/
def RG_KEYADDR : Nat := 0xf0040
def RG_KEYADDR_V : Fld := ⟨RG_KEYADDR, 0, 32⟩

/-- RG_CALADDR (R353). -/
def RG_CALADDR : Nat := 0xf0044
def RG_CALADDR_V : Fld := ⟨RG_CALADDR, 0, 32⟩

/-- RG_SLOT_STAT (R339). -/
def RG_SLOT_STAT (s : Nat) : Nat := 0xf0080 + 0x8 * s
def RG_SLOT_STAT_RESULT (s : Nat) : Fld := ⟨RG_SLOT_STAT s, 0, 4⟩
def RG_SLOT_STAT_SECVER (s : Nat) : Fld := ⟨RG_SLOT_STAT s, 8, 8⟩
def RG_SLOT_STAT_KEYIDX (s : Nat) : Fld := ⟨RG_SLOT_STAT s, 16, 2⟩

/-- RG_SLOT_SEQ (R343). -/
def RG_SLOT_SEQ (s : Nat) : Nat := 0xf0084 + 0x8 * s
def RG_SLOT_SEQ_SEQ (s : Nat) : Fld := ⟨RG_SLOT_SEQ s, 0, 32⟩

/-- RG_FL_ADDR (R336). -/
def RG_FL_ADDR : Nat := 0xf0100
def RG_FL_ADDR_V : Fld := ⟨RG_FL_ADDR, 0, 26⟩

/-- RG_FL_SRC (R336). -/
def RG_FL_SRC : Nat := 0xf0104
def RG_FL_SRC_V : Fld := ⟨RG_FL_SRC, 0, 32⟩

/-- RG_FL_CMD (R336). -/
def RG_FL_CMD : Nat := 0xf0108
def RG_FL_CMD_OP : Fld := ⟨RG_FL_CMD, 0, 2⟩

/-- RG_FL_STAT (R336). -/
def RG_FL_STAT : Nat := 0xf010c
def RG_FL_STAT_BUSY : Fld := ⟨RG_FL_STAT, 0, 1⟩
def RG_FL_STAT_DONE : Fld := ⟨RG_FL_STAT, 1, 1⟩
def RG_FL_STAT_ERROR : Fld := ⟨RG_FL_STAT, 2, 1⟩
def RG_FL_STAT_REFUSED : Fld := ⟨RG_FL_STAT, 3, 1⟩

/-- The registers of block GLB. -/
def regRowsGLB : List RegRow := [
  ⟨0x0, [], [⟨0, 8, .ro, 178⟩, ⟨8, 4, .ro, Config.gradeFuse⟩, ⟨16, 16, .ro, 2144⟩]⟩,
  ⟨0x4, [], [⟨0, 32, .ro, Config.serialLo⟩]⟩,
  ⟨0x8, [], [⟨0, 32, .ro, Config.serialHi⟩]⟩,
  ⟨0x100, [], [⟨0, 2, .wo, 0⟩]⟩,
  ⟨0x104, [], [⟨0, 2, .ro, 2⟩, ⟨2, 1, .w1c, 0⟩, ⟨3, 4, .ro, 0⟩, ⟨8, 4, .ro, 0⟩, ⟨12, 4, .ro, 0⟩]⟩,
  ⟨0x108, [], [⟨0, 2, .rw, 0⟩]⟩,
  ⟨0x10c, [], [⟨0, 1, .rw, 1⟩, ⟨1, 1, .rw, 0⟩, ⟨2, 1, .rw, 1⟩, ⟨3, 1, .rw, 1⟩, ⟨8, 1, .rw, 0⟩]⟩,
  ⟨0x110, [], [⟨0, 32, .rw, 0⟩]⟩,
  ⟨0x114, [], [⟨0, 32, .rw, 0⟩]⟩,
  ⟨0x118, [], [⟨0, 1, .ro, 0⟩]⟩,
  ⟨0x11c, [], [⟨0, 16, .ro, 0⟩, ⟨16, 16, .ro, 0⟩]⟩,
  ⟨0x120, [], [⟨0, 16, .ro, 0⟩, ⟨16, 1, .ro, 0⟩, ⟨17, 1, .ro, 0⟩, ⟨18, 1, .ro, 0⟩]⟩,
  ⟨0x124, [], [⟨0, 16, .ro, 0⟩, ⟨16, 16, .rw, 110⟩]⟩,
  ⟨0x128, [], [⟨0, 4, .ro, 0⟩]⟩,
  ⟨0x12c, [], [⟨0, 1, .wo, 0⟩, ⟨16, 16, .wo, 0⟩]⟩,
  ⟨0x130, [], [⟨0, 1, .rw, 0⟩, ⟨16, 16, .rw, 100⟩]⟩,
  ⟨0x134, [], [⟨0, 16, .wo, 0⟩]⟩,
  ⟨0x138, [], [⟨0, 16, .ro, 0⟩]⟩,
  ⟨0x200, [(8, 0x4)], [⟨0, 32, .w1c, 0⟩]⟩,
  ⟨0x220, [(8, 0x4)], [⟨0, 32, .rw, 0⟩]⟩,
  ⟨0x240, [(8, 0x4)], [⟨0, 32, .rws, 0⟩]⟩,
  ⟨0x260, [], [⟨0, 8, .ro, 0⟩]⟩,
  ⟨0x264, [], [⟨0, 16, .ro, 0⟩, ⟨16, 8, .rc, 0⟩, ⟨24, 7, .ro, 0⟩]⟩,
  ⟨0x268, [], [⟨0, 6, .rw, 0⟩]⟩,
  ⟨0x26c, [(4, 0x4)], [⟨0, 32, .ro, 0⟩]⟩,
  ⟨0x280, [], [⟨0, 32, .rws, 0⟩]⟩,
  ⟨0x284, [], [⟨0, 8, .rws, 0⟩]⟩,
  ⟨0x288, [], [⟨0, 20, .ro, 0⟩]⟩,
  ⟨0x290, [], [⟨0, 8, .rc, 0⟩, ⟨8, 8, .rc, 0⟩, ⟨16, 8, .rc, 0⟩, ⟨24, 8, .rc, 0⟩]⟩,
  ⟨0x294, [], [⟨0, 8, .rc, 0⟩, ⟨8, 8, .rc, 0⟩]⟩,
  ⟨0x400, [], [⟨0, 32, .w1c, 0⟩]⟩,
  ⟨0x404, [], [⟨0, 8, .wo, 0⟩]⟩]

/-- The registers of block CT. -/
def regRowsCT : List RegRow := [
  ⟨0x10000, [], [⟨0, 2, .rws, 0⟩, ⟨2, 1, .rws, 0⟩, ⟨3, 6, .rws, 8⟩]⟩,
  ⟨0x10004, [], [⟨0, 1, .ro, 0⟩, ⟨1, 1, .ro, 0⟩, ⟨2, 2, .ro, 0⟩, ⟨4, 2, .ro, 0⟩, ⟨6, 1, .ro, 0⟩, ⟨7, 1, .w1c, 0⟩]⟩,
  ⟨0x10008, [], [⟨0, 32, .ro, 0⟩]⟩,
  ⟨0x1000c, [], [⟨0, 32, .ro, 0⟩]⟩,
  ⟨0x10010, [], [⟨0, 32, .rw, 2147483648⟩]⟩,
  ⟨0x10014, [], [⟨0, 8, .rw, 2⟩]⟩,
  ⟨0x10018, [], [⟨0, 32, .wo, 0⟩]⟩,
  ⟨0x1001c, [], [⟨0, 32, .wo, 0⟩]⟩,
  ⟨0x10020, [], [⟨0, 32, .wo, 0⟩]⟩,
  ⟨0x10024, [], [⟨0, 8, .rw, 100⟩]⟩,
  ⟨0x10028, [], [⟨0, 32, .ro, 0⟩]⟩,
  ⟨0x1002c, [], [⟨0, 16, .rw, Config.factoryAoIncrFrac⟩, ⟨16, 16, .rw, Config.factoryAoIncrInt⟩]⟩,
  ⟨0x10100, [(16, 0x10)], [⟨0, 32, .rw, 0⟩]⟩,
  ⟨0x10104, [(16, 0x10)], [⟨0, 32, .rw, 0⟩]⟩,
  ⟨0x10108, [(16, 0x10)], [⟨0, 1, .rw, 0⟩, ⟨1, 1, .rw, 0⟩, ⟨2, 9, .rw, 0⟩, ⟨11, 1, .rw, 0⟩, ⟨12, 1, .rw, 0⟩, ⟨13, 1, .rw, 0⟩, ⟨14, 4, .rw, 1⟩]⟩,
  ⟨0x1010c, [(16, 0x10)], [⟨0, 1, .w1c, 0⟩, ⟨8, 8, .rc, 0⟩]⟩,
  ⟨0x10200, [(8, 0x10)], [⟨0, 32, .rw, 0⟩]⟩,
  ⟨0x10204, [(8, 0x10)], [⟨0, 32, .rw, 0⟩]⟩,
  ⟨0x10208, [(8, 0x10)], [⟨0, 1, .rw, 0⟩, ⟨1, 1, .rw, 0⟩, ⟨2, 9, .rw, 0⟩, ⟨11, 1, .rw, 0⟩, ⟨12, 1, .rw, 0⟩, ⟨13, 19, .rw, 0⟩]⟩,
  ⟨0x1020c, [(8, 0x10)], [⟨0, 1, .ro, 0⟩, ⟨1, 1, .w1c, 0⟩, ⟨2, 1, .w1c, 0⟩]⟩,
  ⟨0x10400, [(32, 0x10)], [⟨0, 32, .ro, 0⟩]⟩,
  ⟨0x10404, [(32, 0x10)], [⟨0, 16, .ro, 0⟩]⟩,
  ⟨0x10408, [(32, 0x10)], [⟨0, 1, .rw, 0⟩, ⟨1, 9, .rw, 0⟩, ⟨10, 2, .rw, 0⟩, ⟨12, 1, .rw, 0⟩, ⟨13, 3, .rw, 0⟩]⟩,
  ⟨0x1040c, [(32, 0x10)], [⟨0, 1, .ro, 0⟩, ⟨1, 1, .ro, 0⟩, ⟨2, 1, .w1c, 0⟩]⟩]

/-- The registers of block HAL. -/
def regRowsHAL : List RegRow := [
  ⟨0x20000, [], [⟨0, 1, .rws, 0⟩, ⟨16, 12, .rws, 256⟩]⟩,
  ⟨0x20004, [], [⟨0, 13, .ro, 4096⟩, ⟨16, 11, .ro, 0⟩, ⟨27, 1, .w1c, 0⟩]⟩,
  ⟨0x20008, [], [⟨0, 32, .wo, 0⟩]⟩,
  ⟨0x2000c, [], [⟨0, 32, .wo, 0⟩]⟩,
  ⟨0x20010, [], [⟨0, 32, .wo, 0⟩]⟩,
  ⟨0x20014, [], [⟨0, 32, .wo, 0⟩]⟩,
  ⟨0x20018, [], [⟨0, 8, .wo, 0⟩, ⟨8, 16, .wo, 0⟩]⟩,
  ⟨0x2001c, [], [⟨0, 8, .rc, 0⟩, ⟨8, 8, .rc, 0⟩, ⟨16, 8, .rc, 0⟩, ⟨24, 8, .rc, 0⟩]⟩,
  ⟨0x20080, [(24, 0x4)], [⟨0, 8, .rws, 0⟩, ⟨8, 3, .rws, 0⟩]⟩,
  ⟨0x20100, [(4, 0x20)], [⟨0, 32, .ro, 0⟩]⟩,
  ⟨0x20104, [(4, 0x20)], [⟨0, 32, .ro, 0⟩]⟩,
  ⟨0x20108, [(4, 0x20)], [⟨0, 32, .ro, 0⟩]⟩,
  ⟨0x2010c, [(4, 0x20)], [⟨0, 32, .ro, 0⟩]⟩,
  ⟨0x20110, [(4, 0x20)], [⟨0, 32, .ro, 0⟩]⟩,
  ⟨0x20114, [(4, 0x20)], [⟨0, 32, .wo, 0⟩]⟩,
  ⟨0x20118, [(4, 0x20)], [⟨0, 1, .rw, 1⟩, ⟨1, 1, .rw, 0⟩, ⟨16, 16, .rw, 0⟩]⟩,
  ⟨0x2011c, [(4, 0x20)], [⟨0, 2, .ro, 0⟩, ⟨2, 1, .w1c, 0⟩, ⟨3, 1, .w1c, 0⟩, ⟨16, 16, .ro, 0⟩]⟩,
  ⟨0x20400, [(256, 0x8)], [⟨0, 1, .rws, 0⟩, ⟨1, 1, .rws, 0⟩, ⟨2, 3, .rws, 0⟩, ⟨8, 4, .rws, 0⟩, ⟨16, 12, .rws, 0⟩]⟩,
  ⟨0x20404, [(256, 0x8)], [⟨0, 32, .rws, 0⟩]⟩,
  ⟨0x20c00, [(256, 0x4)], [⟨0, 13, .ro, 0⟩, ⟨13, 3, .ro, 0⟩, ⟨16, 1, .ro, 0⟩, ⟨20, 12, .ro, 0⟩]⟩,
  ⟨0x21000, [(256, 0x4)], [⟨0, 16, .ro, 0⟩, ⟨16, 12, .ro, 0⟩]⟩,
  ⟨0x21400, [(64, 0x4)], [⟨0, 1, .rws, 0⟩, ⟨1, 9, .rws, 0⟩, ⟨10, 2, .rws, 0⟩, ⟨12, 1, .rws, 0⟩, ⟨16, 8, .rws, 0⟩, ⟨24, 3, .rws, 0⟩]⟩]

/-- The registers of block JC. -/
def regRowsJC : List RegRow := [
  ⟨0x30000, [(64, 0x100)], [⟨0, 3, .wo, 0⟩]⟩,
  ⟨0x30004, [(64, 0x100)], [⟨0, 3, .ro, 0⟩, ⟨3, 1, .ro, 0⟩, ⟨4, 1, .ro, 0⟩, ⟨5, 1, .ro, 0⟩, ⟨6, 1, .w1c, 0⟩, ⟨7, 1, .ro, 0⟩, ⟨8, 1, .w1c, 0⟩, ⟨9, 1, .w1c, 0⟩, ⟨12, 4, .ro, 0⟩]⟩,
  ⟨0x30008, [(64, 0x100)], [⟨0, 1, .rws, 0⟩, ⟨1, 3, .rws, 0⟩, ⟨4, 4, .rws, 0⟩, ⟨8, 1, .rws, 0⟩, ⟨9, 1, .rws, 0⟩, ⟨10, 1, .rws, 0⟩, ⟨11, 1, .rws, 0⟩, ⟨12, 1, .rws, 0⟩, ⟨13, 2, .rws, 0⟩, ⟨15, 1, .rws, 0⟩, ⟨16, 1, .rws, 0⟩]⟩,
  ⟨0x30010, [(64, 0x100)], [⟨0, 32, .ro, 0⟩]⟩,
  ⟨0x30014, [(64, 0x100)], [⟨0, 32, .ro, 0⟩]⟩,
  ⟨0x30018, [(64, 0x100)], [⟨0, 32, .ro, 0⟩]⟩,
  ⟨0x3001c, [(64, 0x100)], [⟨0, 32, .ro, 0⟩]⟩,
  ⟨0x30020, [(64, 0x100)], [⟨0, 24, .ro, 0⟩]⟩,
  ⟨0x30024, [(64, 0x100)], [⟨0, 24, .ro, 0⟩]⟩,
  ⟨0x30028, [(64, 0x100)], [⟨0, 32, .ro, 0⟩]⟩,
  ⟨0x3002c, [(64, 0x100)], [⟨0, 32, .rw, 0⟩]⟩,
  ⟨0x30030, [(64, 0x100)], [⟨0, 16, .rc, 0⟩]⟩,
  ⟨0x30034, [(64, 0x100)], [⟨0, 16, .rc, 0⟩]⟩,
  ⟨0x30040, [(64, 0x100)], [⟨0, 32, .rws, 0⟩]⟩,
  ⟨0x30044, [(64, 0x100)], [⟨0, 32, .rws, 0⟩]⟩,
  ⟨0x30048, [(64, 0x100)], [⟨0, 24, .rw, 0⟩]⟩,
  ⟨0x3004c, [(64, 0x100)], [⟨0, 16, .rw, 0⟩]⟩,
  ⟨0x30050, [(64, 0x100)], [⟨0, 24, .rw, 0⟩]⟩,
  ⟨0x30054, [(64, 0x100)], [⟨0, 24, .rw, 0⟩]⟩,
  ⟨0x30058, [(64, 0x100)], [⟨0, 23, .rw, 0⟩]⟩,
  ⟨0x3005c, [(64, 0x100)], [⟨0, 16, .rw, 0⟩, ⟨16, 16, .rw, 0⟩]⟩,
  ⟨0x30060, [(64, 0x100), (5, 0x4)], [⟨0, 24, .rw, 0⟩]⟩,
  ⟨0x30074, [(64, 0x100), (5, 0x4)], [⟨0, 24, .rw, 0⟩]⟩,
  ⟨0x30088, [(64, 0x100)], [⟨0, 8, .rw, 0⟩, ⟨8, 8, .rw, 0⟩, ⟨16, 8, .rw, 0⟩, ⟨24, 8, .rw, 0⟩]⟩,
  ⟨0x3008c, [(64, 0x100)], [⟨0, 8, .rw, 0⟩, ⟨8, 8, .rw, 0⟩, ⟨16, 8, .rw, 0⟩]⟩,
  ⟨0x30090, [(64, 0x100)], [⟨0, 32, .rw, 0⟩]⟩,
  ⟨0x30094, [(64, 0x100)], [⟨0, 32, .rw, 0⟩]⟩,
  ⟨0x30098, [(64, 0x100)], [⟨0, 32, .rw, 0⟩]⟩,
  ⟨0x3009c, [(64, 0x100)], [⟨0, 32, .rw, 0⟩]⟩,
  ⟨0x300a0, [(64, 0x100)], [⟨0, 32, .rw, 0⟩]⟩,
  ⟨0x300a4, [(64, 0x100)], [⟨0, 32, .rw, 0⟩]⟩,
  ⟨0x300a8, [(64, 0x100)], [⟨0, 32, .rw, 0⟩]⟩,
  ⟨0x300ac, [(64, 0x100)], [⟨0, 32, .rw, 0⟩]⟩,
  ⟨0x300b0, [(64, 0x100)], [⟨0, 32, .rw, 0⟩]⟩,
  ⟨0x300b4, [(64, 0x100)], [⟨0, 32, .rw, 0⟩]⟩,
  ⟨0x300b8, [(64, 0x100)], [⟨0, 16, .rw, 0⟩]⟩,
  ⟨0x34000, [(8, 0x100)], [⟨0, 4, .wo, 0⟩]⟩,
  ⟨0x34004, [(8, 0x100)], [⟨0, 4, .ro, 0⟩, ⟨4, 1, .ro, 0⟩, ⟨5, 1, .ro, 0⟩, ⟨6, 1, .ro, 0⟩, ⟨7, 1, .ro, 0⟩, ⟨8, 4, .ro, 0⟩, ⟨12, 4, .ro, 0⟩, ⟨16, 1, .w1c, 0⟩, ⟨17, 1, .w1c, 0⟩, ⟨18, 2, .ro, 0⟩]⟩,
  ⟨0x34008, [(8, 0x100)], [⟨0, 4, .rws, 2⟩, ⟨4, 4, .rws, 3⟩, ⟨8, 4, .rws, 4⟩, ⟨12, 1, .rws, 0⟩, ⟨16, 8, .rws, 100⟩]⟩,
  ⟨0x3400c, [(8, 0x100)], [⟨0, 16, .ro, 0⟩]⟩,
  ⟨0x34010, [(8, 0x100)], [⟨0, 17, .ro, 0⟩]⟩,
  ⟨0x34014, [(8, 0x100)], [⟨0, 16, .rw, 0⟩, ⟨16, 16, .rw, 0⟩]⟩,
  ⟨0x34018, [(8, 0x100)], [⟨0, 16, .rw, 0⟩]⟩,
  ⟨0x3401c, [(8, 0x100)], [⟨0, 32, .rw, 0⟩]⟩,
  ⟨0x34020, [(8, 0x100)], [⟨0, 32, .rw, 0⟩]⟩,
  ⟨0x34024, [(8, 0x100)], [⟨0, 1, .rw, 0⟩]⟩,
  ⟨0x34028, [(8, 0x100)], [⟨0, 32, .wo, 0⟩]⟩,
  ⟨0x3402c, [(8, 0x100)], [⟨0, 18, .rw, 0⟩]⟩,
  ⟨0x34030, [(8, 0x100)], [⟨0, 32, .wo, 0⟩]⟩,
  ⟨0x34034, [(8, 0x100)], [⟨0, 32, .ro, 0⟩]⟩,
  ⟨0x34038, [(8, 0x100)], [⟨0, 8, .rc, 0⟩, ⟨8, 8, .rc, 0⟩, ⟨16, 8, .rc, 0⟩]⟩,
  ⟨0x3403c, [(8, 0x100)], [⟨0, 32, .ro, 0⟩]⟩]

/-- The registers of block SE. -/
def regRowsSE : List RegRow := [
  ⟨0x40000, [(8, 0x2000)], [⟨0, 1, .rws, 0⟩, ⟨1, 3, .rws, 0⟩]⟩,
  ⟨0x40004, [(8, 0x2000)], [⟨0, 2, .ro, 0⟩, ⟨2, 1, .ro, 0⟩, ⟨3, 1, .ro, 0⟩, ⟨4, 4, .ro, 0⟩, ⟨8, 1, .w1c, 0⟩, ⟨9, 1, .w1c, 0⟩, ⟨16, 8, .rc, 0⟩]⟩,
  ⟨0x40008, [(8, 0x2000)], [⟨0, 14, .rws, 0⟩]⟩,
  ⟨0x4000c, [(8, 0x2000)], [⟨0, 14, .rws, 0⟩]⟩,
  ⟨0x40010, [(8, 0x2000)], [⟨0, 14, .ro, 0⟩, ⟨14, 2, .ro, 0⟩, ⟨16, 16, .ro, 0⟩]⟩,
  ⟨0x40014, [(8, 0x2000)], [⟨0, 16, .ro, 0⟩]⟩,
  ⟨0x40018, [(8, 0x2000)], [⟨0, 16, .rc, 0⟩]⟩,
  ⟨0x4001c, [(8, 0x2000)], [⟨0, 24, .ro, 0⟩]⟩,
  ⟨0x40020, [(8, 0x2000)], [⟨0, 16, .ro, 65535⟩]⟩,
  ⟨0x40024, [(8, 0x2000)], [⟨0, 1, .wo, 0⟩]⟩,
  ⟨0x40030, [(8, 0x2000)], [⟨0, 1, .w1s, 0⟩, ⟨1, 1, .wo, 0⟩, ⟨2, 1, .wo, 0⟩]⟩,
  ⟨0x40034, [(8, 0x2000)], [⟨0, 6, .rw, 0⟩, ⟨8, 1, .rw, 0⟩, ⟨9, 1, .rw, 0⟩]⟩,
  ⟨0x40038, [(8, 0x2000)], [⟨0, 32, .rw, 0⟩]⟩,
  ⟨0x40040, [(8, 0x2000), (4, 0x8)], [⟨0, 18, .rws, 0⟩]⟩,
  ⟨0x40044, [(8, 0x2000), (4, 0x8)], [⟨0, 18, .rws, 0⟩]⟩]

/-- The registers of block SP. -/
def regRowsSP : List RegRow := [
  ⟨0x50000, [], [⟨0, 1, .rws, 0⟩, ⟨1, 1, .rw, 0⟩]⟩,
  ⟨0x50004, [], [⟨0, 7, .ro, 0⟩, ⟨8, 6, .ro, 0⟩, ⟨16, 6, .ro, 0⟩]⟩,
  ⟨0x50008, [], [⟨0, 32, .ro, 0⟩]⟩,
  ⟨0x5000c, [], [⟨0, 32, .rws, 1073741824⟩]⟩,
  ⟨0x50010, [], [⟨0, 32, .rws, 1090519040⟩]⟩,
  ⟨0x50014, [], [⟨0, 32, .rws, 142606336⟩]⟩,
  ⟨0x50018, [], [⟨0, 32, .wo, 0⟩]⟩,
  ⟨0x5001c, [], [⟨0, 16, .rc, 0⟩, ⟨16, 8, .rc, 0⟩, ⟨24, 8, .rc, 0⟩]⟩,
  ⟨0x50400, [(256, 0x4)], [⟨0, 1, .ro, 0⟩, ⟨1, 1, .ro, 0⟩, ⟨2, 4, .ro, 0⟩, ⟨8, 6, .ro, 0⟩]⟩,
  ⟨0x50800, [(128, 0x4)], [⟨0, 2, .ro, 0⟩, ⟨2, 1, .ro, 0⟩, ⟨8, 8, .ro, 0⟩, ⟨16, 16, .ro, 0⟩]⟩,
  ⟨0x50c00, [(32, 0x4)], [⟨0, 3, .ro, 0⟩, ⟨8, 7, .ro, 0⟩]⟩]

/-- The registers of block CV. -/
def regRowsCV : List RegRow := [
  ⟨0x60000, [], [⟨0, 1, .rws, 0⟩, ⟨1, 1, .rw, 0⟩, ⟨4, 3, .rws, 2⟩]⟩,
  ⟨0x60004, [], [⟨0, 7, .ro, 0⟩, ⟨8, 7, .ro, 0⟩, ⟨16, 11, .ro, 0⟩, ⟨31, 1, .ro, 0⟩]⟩,
  ⟨0x60008, [], [⟨0, 32, .wo, 0⟩]⟩,
  ⟨0x6000c, [], [⟨0, 32, .ro, 0⟩]⟩,
  ⟨0x60010, [], [⟨0, 8, .rc, 0⟩, ⟨8, 8, .rc, 0⟩, ⟨16, 8, .rc, 0⟩, ⟨24, 8, .rc, 0⟩]⟩,
  ⟨0x60014, [], [⟨0, 16, .rw, 0⟩]⟩,
  ⟨0x60018, [], [⟨0, 2, .ro, 0⟩, ⟨4, 4, .ro, 0⟩, ⟨8, 1, .ro, 0⟩, ⟨12, 3, .ro, 0⟩, ⟨16, 10, .ro, 0⟩]⟩,
  ⟨0x6001c, [], [⟨0, 17, .rc, 0⟩]⟩,
  ⟨0x60100, [(8, 0x4)], [⟨0, 11, .ro, 0⟩, ⟨16, 7, .ro, 0⟩]⟩,
  ⟨0x61000, [(1024, 0x4)], [⟨0, 1, .ro, 0⟩, ⟨1, 3, .ro, 0⟩, ⟨4, 1, .ro, 0⟩, ⟨5, 8, .ro, 0⟩, ⟨16, 16, .ro, 0⟩]⟩]

/-- The registers of block SH. -/
def regRowsSH : List RegRow := [
  ⟨0x70000, [], [⟨0, 1, .rws, 0⟩, ⟨1, 1, .rw, 0⟩, ⟨2, 4, .rws, 4⟩, ⟨8, 8, .rws, 0⟩, ⟨16, 3, .rws, 0⟩]⟩,
  ⟨0x70004, [], [⟨0, 8, .ro, 0⟩, ⟨8, 8, .ro, 0⟩, ⟨16, 8, .ro, 0⟩, ⟨24, 1, .w1c, 0⟩, ⟨25, 1, .w1c, 0⟩, ⟨26, 1, .w1c, 0⟩, ⟨27, 1, .w1c, 0⟩]⟩,
  ⟨0x70008, [], [⟨0, 16, .rws, 1600⟩]⟩,
  ⟨0x7000c, [], [⟨0, 16, .rws, 0⟩]⟩,
  ⟨0x70010, [], [⟨0, 16, .rws, 2000⟩]⟩,
  ⟨0x70014, [], [⟨0, 16, .rws, 0⟩, ⟨16, 16, .rws, 0⟩]⟩,
  ⟨0x70018, [], [⟨0, 4, .rws, 8⟩]⟩,
  ⟨0x7001c, [], [⟨0, 16, .rws, 0⟩]⟩,
  ⟨0x70020, [], [⟨0, 32, .wo, 0⟩]⟩,
  ⟨0x70024, [], [⟨0, 16, .ro, 0⟩, ⟨16, 16, .rc, 0⟩]⟩,
  ⟨0x70028, [], [⟨0, 16, .ro, 0⟩, ⟨16, 16, .rc, 0⟩]⟩,
  ⟨0x7002c, [], [⟨0, 8, .rc, 0⟩, ⟨8, 8, .rc, 0⟩, ⟨16, 8, .rc, 0⟩]⟩,
  ⟨0x70100, [(8, 0x40)], [⟨0, 1, .rws, 0⟩, ⟨1, 3, .rws, 0⟩, ⟨4, 3, .rws, 0⟩, ⟨16, 16, .rws, 0⟩]⟩,
  ⟨0x70104, [(8, 0x40)], [⟨0, 16, .rws, 0⟩, ⟨16, 16, .rws, 0⟩]⟩,
  ⟨0x70108, [(8, 0x40)], [⟨0, 16, .rws, 0⟩, ⟨16, 16, .rws, 0⟩]⟩,
  ⟨0x7010c, [(8, 0x40)], [⟨0, 16, .rws, 0⟩]⟩,
  ⟨0x70110, [(8, 0x40), (4, 0x4)], [⟨0, 16, .rws, 0⟩, ⟨16, 16, .rws, 0⟩]⟩,
  ⟨0x70120, [(8, 0x40)], [⟨1, 7, .rw, 0⟩]⟩,
  ⟨0x70124, [(8, 0x40)], [⟨0, 18, .rws, 0⟩]⟩,
  ⟨0x70128, [(8, 0x40)], [⟨0, 16, .ro, 0⟩, ⟨16, 1, .ro, 1⟩, ⟨17, 3, .ro, 0⟩, ⟨20, 4, .ro, 4⟩]⟩,
  ⟨0x7012c, [(8, 0x40)], [⟨0, 16, .ro, 0⟩, ⟨16, 16, .ro, 0⟩]⟩,
  ⟨0x70130, [(8, 0x40)], [⟨0, 1, .ro, 0⟩, ⟨1, 1, .ro, 0⟩, ⟨2, 2, .ro, 0⟩, ⟨4, 4, .ro, 0⟩, ⟨8, 1, .w1c, 0⟩, ⟨9, 1, .w1c, 0⟩, ⟨10, 1, .ro, 0⟩, ⟨11, 17, .ro, 0⟩]⟩,
  ⟨0x70134, [(8, 0x40)], [⟨0, 1, .wo, 0⟩]⟩,
  ⟨0x70400, [(8, 0x20)], [⟨0, 1, .rws, 0⟩, ⟨1, 1, .rws, 0⟩, ⟨16, 16, .rws, 0⟩]⟩,
  ⟨0x70404, [(8, 0x20)], [⟨0, 32, .rws, 0⟩]⟩,
  ⟨0x70408, [(8, 0x20)], [⟨0, 16, .rws, 0⟩, ⟨16, 16, .rws, 0⟩]⟩,
  ⟨0x7040c, [(8, 0x20)], [⟨0, 16, .rws, 0⟩]⟩,
  ⟨0x70410, [(8, 0x20)], [⟨0, 1, .ro, 1⟩, ⟨1, 1, .ro, 0⟩, ⟨2, 1, .w1c, 0⟩, ⟨16, 16, .ro, 65535⟩]⟩,
  ⟨0x70414, [(8, 0x20)], [⟨0, 32, .ro, 0⟩]⟩,
  ⟨0x70418, [(8, 0x20)], [⟨0, 8, .rc, 0⟩, ⟨8, 8, .rc, 0⟩, ⟨16, 8, .rc, 0⟩, ⟨24, 8, .rc, 0⟩]⟩,
  ⟨0x70600, [(2, 0x10)], [⟨0, 8, .rws, 0⟩, ⟨8, 1, .rws, 0⟩, ⟨16, 16, .rws, 0⟩]⟩,
  ⟨0x70604, [(2, 0x10)], [⟨0, 4, .rws, 0⟩, ⟨8, 8, .rws, 100⟩]⟩,
  ⟨0x70608, [(2, 0x10)], [⟨0, 1, .ro, 0⟩, ⟨1, 1, .ro, 0⟩, ⟨2, 1, .ro, 0⟩, ⟨3, 1, .ro, 0⟩]⟩,
  ⟨0x7060c, [(2, 0x10)], [⟨0, 1, .wo, 0⟩]⟩,
  ⟨0x71000, [(8, 0x200), (32, 0x10)], [⟨0, 16, .ro, 0⟩]⟩,
  ⟨0x71004, [(8, 0x200), (32, 0x10)], [⟨0, 32, .ro, 0⟩]⟩,
  ⟨0x71008, [(8, 0x200), (32, 0x10)], [⟨0, 32, .ro, 0⟩]⟩]

/-- The registers of block TL. -/
def regRowsTL : List RegRow := [
  ⟨0x80000, [(8, 0x1000)], [⟨0, 1, .rw, 0⟩, ⟨1, 1, .rws, 0⟩, ⟨2, 2, .rws, 1⟩, ⟨4, 4, .rws, 0⟩, ⟨8, 1, .rws, 0⟩, ⟨9, 1, .rws, 0⟩, ⟨16, 8, .rws, 0⟩]⟩,
  ⟨0x80004, [(8, 0x1000)], [⟨0, 4, .ro, 0⟩, ⟨4, 1, .ro, 0⟩, ⟨5, 1, .ro, 0⟩, ⟨6, 1, .w1c, 0⟩, ⟨7, 1, .w1c, 0⟩, ⟨8, 1, .ro, 0⟩]⟩,
  ⟨0x80008, [(8, 0x1000)], [⟨0, 12, .rws, 0⟩, ⟨16, 12, .rws, 0⟩]⟩,
  ⟨0x8000c, [(8, 0x1000)], [⟨0, 12, .rws, 0⟩, ⟨16, 12, .rws, 0⟩]⟩,
  ⟨0x80010, [(8, 0x1000)], [⟨0, 17, .rws, 0⟩]⟩,
  ⟨0x80014, [(8, 0x1000)], [⟨0, 17, .rws, 0⟩]⟩,
  ⟨0x80018, [(8, 0x1000)], [⟨0, 17, .rws, 0⟩]⟩,
  ⟨0x8001c, [(8, 0x1000)], [⟨0, 17, .ro, 0⟩]⟩,
  ⟨0x80020, [(8, 0x1000)], [⟨0, 17, .rws, 0⟩, ⟨31, 1, .rws, 0⟩]⟩,
  ⟨0x80024, [(8, 0x1000)], [⟨0, 17, .rws, 0⟩, ⟨24, 5, .rws, 0⟩]⟩,
  ⟨0x80028, [(8, 0x1000)], [⟨0, 12, .rws, 0⟩]⟩,
  ⟨0x80040, [(8, 0x1000), (10, 0x4)], [⟨0, 17, .rws, 0⟩, ⟨24, 1, .rws, 0⟩, ⟨25, 1, .rws, 0⟩]⟩,
  ⟨0x80080, [(8, 0x1000)], [⟨0, 8, .rc, 0⟩, ⟨8, 8, .rc, 0⟩, ⟨16, 8, .rc, 0⟩, ⟨24, 8, .rc, 0⟩]⟩,
  ⟨0x800c0, [(8, 0x1000), (10, 0x4)], [⟨0, 8, .ro, 0⟩, ⟨8, 8, .ro, 0⟩, ⟨16, 1, .ro, 0⟩, ⟨17, 1, .ro, 0⟩, ⟨24, 8, .rc, 0⟩]⟩,
  ⟨0x80100, [(8, 0x1000)], [⟨0, 1, .w1s, 0⟩, ⟨1, 2, .rw, 0⟩, ⟨4, 4, .rw, 0⟩, ⟨8, 8, .rw, 0⟩, ⟨16, 16, .rw, 0⟩]⟩,
  ⟨0x80104, [(8, 0x1000)], [⟨0, 1, .w1c, 0⟩, ⟨1, 3, .ro, 0⟩, ⟨8, 8, .ro, 0⟩]⟩,
  ⟨0x80200, [(8, 0x1000), (32, 0x4)], [⟨0, 32, .rw, 0⟩]⟩,
  ⟨0x80300, [(8, 0x1000)], [⟨0, 10, .rws, 0⟩, ⟨16, 1, .rws, 0⟩]⟩,
  ⟨0x80304, [(8, 0x1000)], [⟨0, 3, .ro, 0⟩, ⟨3, 1, .ro, 0⟩, ⟨4, 4, .ro, 0⟩, ⟨8, 1, .w1c, 0⟩, ⟨9, 1, .ro, 0⟩, ⟨16, 8, .rc, 0⟩, ⟨24, 4, .ro, 0⟩]⟩,
  ⟨0x80308, [(8, 0x1000)], [⟨0, 32, .ro, 0⟩]⟩,
  ⟨0x8030c, [(8, 0x1000)], [⟨0, 17, .ro, 0⟩]⟩,
  ⟨0x80340, [(8, 0x1000), (10, 0x4)], [⟨0, 16, .ro, 0⟩, ⟨16, 16, .ro, 0⟩]⟩,
  ⟨0x80380, [(8, 0x1000), (10, 0x4)], [⟨0, 16, .ro, 0⟩, ⟨16, 5, .ro, 0⟩, ⟨24, 1, .w1c, 0⟩]⟩,
  ⟨0x80400, [], [⟨0, 2, .rws, 1⟩, ⟨4, 4, .rws, 8⟩, ⟨8, 8, .rws, 100⟩, ⟨16, 8, .rws, 16⟩, ⟨24, 3, .rws, 0⟩]⟩,
  ⟨0x80404, [], [⟨0, 5, .ro, 0⟩, ⟨8, 5, .ro, 0⟩, ⟨16, 1, .w1c, 0⟩, ⟨17, 1, .ro, 0⟩]⟩,
  ⟨0x80408, [], [⟨0, 32, .ro, 0⟩]⟩,
  ⟨0x8040c, [], [⟨0, 32, .ro, 0⟩]⟩,
  ⟨0x80800, [(16, 0x1000)], [⟨0, 1, .ro, 0⟩, ⟨1, 1, .ro, 0⟩]⟩,
  ⟨0x80804, [(16, 0x1000)], [⟨0, 8, .rc, 0⟩, ⟨8, 8, .rc, 0⟩, ⟨16, 8, .rc, 0⟩, ⟨24, 8, .rc, 0⟩]⟩,
  ⟨0x80808, [(16, 0x1000)], [⟨0, 32, .rc, 0⟩]⟩]

/-- The registers of block PR. -/
def regRowsPR : List RegRow := [
  ⟨0x90000, [], [⟨0, 1, .ro, 0⟩, ⟨1, 1, .ro, 0⟩, ⟨2, 1, .rw, 0⟩, ⟨3, 1, .rws, 1⟩, ⟨8, 8, .rws, 0⟩, ⟨16, 3, .rws, 0⟩]⟩,
  ⟨0x90004, [], [⟨0, 3, .ro, 4⟩, ⟨3, 3, .ro, 7⟩, ⟨6, 1, .ro, 0⟩, ⟨7, 1, .ro, 0⟩, ⟨8, 1, .ro, 0⟩, ⟨9, 2, .ro, 0⟩, ⟨11, 4, .ro, 0⟩, ⟨15, 3, .ro, 0⟩, ⟨18, 1, .w1c, 0⟩, ⟨19, 1, .w1c, 0⟩, ⟨20, 1, .w1c, 0⟩]⟩,
  ⟨0x90008, [], [⟨0, 32, .ro, 0⟩]⟩,
  ⟨0x9000c, [], [⟨0, 1, .wo, 0⟩, ⟨1, 1, .wo, 0⟩, ⟨2, 1, .wo, 0⟩, ⟨3, 1, .wo, 0⟩]⟩,
  ⟨0x90010, [], [⟨0, 32, .rws, 134217728⟩]⟩,
  ⟨0x90014, [], [⟨0, 8, .rws, 0⟩]⟩,
  ⟨0x90018, [], [⟨0, 8, .rws, 0⟩, ⟨8, 8, .rws, 0⟩]⟩,
  ⟨0x9001c, [], [⟨0, 16, .rws, 0⟩]⟩,
  ⟨0x90020, [], [⟨0, 32, .ro, 0⟩]⟩,
  ⟨0x90024, [], [⟨0, 32, .ro, 0⟩]⟩,
  ⟨0x90028, [], [⟨0, 8, .rc, 0⟩, ⟨8, 8, .rc, 0⟩, ⟨16, 8, .rc, 0⟩, ⟨24, 8, .rc, 0⟩]⟩,
  ⟨0x9002c, [], [⟨0, 8, .ro, 0⟩, ⟨8, 8, .rc, 0⟩]⟩,
  ⟨0x90030, [], [⟨0, 9, .ro, 0⟩, ⟨16, 9, .rc, 0⟩]⟩]

/-- The registers of block PW. -/
def regRowsPW : List RegRow := [
  ⟨0xa0000, [], [⟨0, 1, .rws, 0⟩, ⟨1, 1, .rws, 0⟩, ⟨2, 1, .rws, 0⟩, ⟨3, 1, .rws, 0⟩]⟩,
  ⟨0xa0004, [], [⟨0, 1, .ro, 0⟩, ⟨1, 1, .w1c, 0⟩, ⟨4, 10, .ro, 0⟩]⟩,
  ⟨0xa0100, [(8, 0x40)], [⟨0, 1, .rw, 0⟩, ⟨1, 4, .rw, 0⟩, ⟨5, 4, .rws, 0⟩, ⟨9, 8, .rws, 0⟩, ⟨17, 1, .rws, 0⟩, ⟨18, 1, .rws, 0⟩, ⟨19, 1, .rws, 0⟩, ⟨20, 1, .rws, 0⟩, ⟨21, 3, .rws, 0⟩, ⟨24, 1, .rws, 0⟩]⟩,
  ⟨0xa0104, [(8, 0x40)], [⟨0, 32, .rw, 0⟩]⟩,
  ⟨0xa0108, [(8, 0x40)], [⟨0, 20, .rw, 16⟩]⟩,
  ⟨0xa010c, [(8, 0x40)], [⟨0, 17, .rw, 0⟩, ⟨17, 15, .rw, 0⟩]⟩,
  ⟨0xa0110, [(8, 0x40), (4, 0x4)], [⟨0, 25, .rw, 0⟩]⟩,
  ⟨0xa0120, [(8, 0x40)], [⟨0, 1, .w1s, 0⟩, ⟨1, 1, .wo, 0⟩, ⟨2, 1, .wo, 0⟩]⟩,
  ⟨0xa0124, [(8, 0x40)], [⟨0, 1, .ro, 0⟩, ⟨1, 1, .ro, 0⟩, ⟨2, 1, .w1c, 0⟩, ⟨3, 1, .w1c, 0⟩, ⟨4, 1, .w1c, 0⟩, ⟨5, 1, .ro, 0⟩, ⟨8, 8, .ro, 0⟩]⟩,
  ⟨0xa0128, [(8, 0x40)], [⟨0, 16, .rc, 0⟩, ⟨16, 8, .rc, 0⟩, ⟨24, 8, .rc, 0⟩]⟩,
  ⟨0xa012c, [(8, 0x40)], [⟨0, 32, .ro, 0⟩]⟩,
  ⟨0xa0400, [(8, 0x8)], [⟨0, 17, .rws, 0⟩, ⟨31, 1, .rws, 0⟩]⟩,
  ⟨0xa0404, [(8, 0x8)], [⟨0, 17, .rws, 0⟩]⟩,
  ⟨0xa8100, [(24, 0x10)], [⟨0, 2, .rws, 0⟩, ⟨2, 3, .rws, 0⟩, ⟨5, 9, .rws, 0⟩, ⟨16, 4, .rws, 1⟩]⟩,
  ⟨0xa8104, [(24, 0x10)], [⟨0, 16, .ro, 0⟩, ⟨16, 16, .ro, 0⟩]⟩,
  ⟨0xa8108, [(24, 0x10)], [⟨0, 32, .ro, 0⟩]⟩,
  ⟨0xa810c, [(24, 0x10)], [⟨0, 1, .ro, 0⟩, ⟨8, 8, .rc, 0⟩]⟩]

/-- The registers of block FB. -/
def regRowsFB : List RegRow := [
  ⟨0xb0000, [(8, 0x40)], [⟨0, 2, .rws, 0⟩, ⟨2, 1, .rws, 0⟩, ⟨3, 1, .rws, 0⟩, ⟨4, 8, .rws, 0⟩, ⟨12, 1, .rws, 0⟩, ⟨13, 1, .rws, 0⟩, ⟨14, 3, .rws, 0⟩]⟩,
  ⟨0xb0004, [(8, 0x40)], [⟨0, 32, .rw, 0⟩]⟩,
  ⟨0xb0008, [(8, 0x40)], [⟨0, 32, .ro, 0⟩]⟩,
  ⟨0xb000c, [(8, 0x40)], [⟨0, 32, .ro, 0⟩]⟩,
  ⟨0xb0010, [(8, 0x40)], [⟨0, 32, .ro, 0⟩]⟩,
  ⟨0xb0014, [(8, 0x40)], [⟨0, 32, .ro, 0⟩]⟩,
  ⟨0xb0018, [(8, 0x40)], [⟨0, 11, .rws, 1⟩, ⟨16, 10, .rws, 1000⟩]⟩,
  ⟨0xb001c, [(8, 0x40)], [⟨0, 1, .w1c, 0⟩, ⟨1, 1, .w1c, 0⟩, ⟨2, 1, .w1c, 0⟩, ⟨3, 1, .w1c, 0⟩, ⟨4, 1, .ro, 0⟩, ⟨5, 3, .ro, 0⟩, ⟨8, 1, .w1c, 0⟩, ⟨9, 1, .w1c, 0⟩]⟩,
  ⟨0xb0020, [(8, 0x40)], [⟨0, 8, .rc, 0⟩, ⟨8, 8, .rc, 0⟩, ⟨16, 8, .rc, 0⟩]⟩,
  ⟨0xb0024, [(8, 0x40)], [⟨0, 6, .rws, 0⟩, ⟨6, 1, .rws, 0⟩, ⟨7, 1, .rws, 0⟩, ⟨8, 11, .rws, 20⟩, ⟨19, 9, .rws, 0⟩]⟩,
  ⟨0xb0028, [(8, 0x40)], [⟨0, 32, .rw, 0⟩]⟩,
  ⟨0xb002c, [(8, 0x40)], [⟨0, 1, .rw, 0⟩, ⟨1, 9, .rw, 0⟩, ⟨10, 2, .rw, 0⟩]⟩,
  ⟨0xb0030, [(8, 0x40)], [⟨0, 32, .rw, 0⟩]⟩,
  ⟨0xb0034, [(8, 0x40)], [⟨0, 32, .ro, 0⟩]⟩,
  ⟨0xb8000, [(8, 0x80)], [⟨0, 1, .rw, 0⟩, ⟨1, 1, .rws, 0⟩, ⟨2, 3, .rws, 0⟩, ⟨5, 1, .rws, 0⟩, ⟨6, 1, .rws, 0⟩, ⟨7, 9, .rws, 0⟩, ⟨16, 1, .rws, 0⟩, ⟨17, 1, .rws, 0⟩, ⟨18, 3, .rws, 0⟩, ⟨21, 1, .rws, 0⟩, ⟨22, 2, .rws, 0⟩, ⟨24, 3, .rws, 0⟩]⟩,
  ⟨0xb8004, [(8, 0x80)], [⟨0, 3, .wo, 0⟩]⟩,
  ⟨0xb8008, [(8, 0x80)], [⟨0, 3, .ro, 0⟩, ⟨3, 1, .ro, 0⟩, ⟨4, 1, .ro, 0⟩, ⟨5, 1, .w1c, 0⟩, ⟨6, 1, .w1c, 0⟩, ⟨7, 1, .w1c, 0⟩, ⟨8, 1, .w1c, 0⟩, ⟨9, 1, .w1c, 0⟩, ⟨10, 3, .ro, 0⟩, ⟨13, 1, .ro, 0⟩, ⟨14, 1, .ro, 0⟩, ⟨15, 1, .w1c, 0⟩, ⟨16, 1, .w1c, 0⟩]⟩,
  ⟨0xb800c, [(8, 0x80)], [⟨0, 32, .rw, 0⟩]⟩,
  ⟨0xb8010, [(8, 0x80)], [⟨0, 32, .ro, 0⟩]⟩,
  ⟨0xb8014, [(8, 0x80)], [⟨0, 32, .rw, 0⟩]⟩,
  ⟨0xb8018, [(8, 0x80)], [⟨0, 32, .rw, 0⟩]⟩,
  ⟨0xb801c, [(8, 0x80)], [⟨0, 32, .rw, 0⟩]⟩,
  ⟨0xb8020, [(8, 0x80)], [⟨0, 32, .rw, 0⟩]⟩,
  ⟨0xb8024, [(8, 0x80)], [⟨0, 32, .rw, 0⟩]⟩,
  ⟨0xb8028, [(8, 0x80)], [⟨0, 32, .rw, 0⟩]⟩,
  ⟨0xb802c, [(8, 0x80)], [⟨0, 32, .rw, 0⟩]⟩,
  ⟨0xb8030, [(8, 0x80)], [⟨0, 8, .rws, 20⟩, ⟨16, 8, .rws, 10⟩]⟩,
  ⟨0xb8034, [(8, 0x80)], [⟨0, 16, .rw, 0⟩, ⟨16, 16, .rw, 0⟩]⟩,
  ⟨0xb8038, [(8, 0x80)], [⟨0, 5, .rws, 0⟩, ⟨5, 1, .rws, 0⟩, ⟨8, 5, .rws, 0⟩, ⟨13, 1, .rws, 0⟩, ⟨16, 5, .rws, 0⟩, ⟨21, 1, .rws, 0⟩]⟩,
  ⟨0xb803c, [(8, 0x80)], [⟨0, 32, .rw, 0⟩]⟩,
  ⟨0xb8040, [(8, 0x80)], [⟨0, 32, .rw, 0⟩]⟩,
  ⟨0xb8044, [(8, 0x80)], [⟨0, 32, .rw, 0⟩]⟩,
  ⟨0xb8048, [(8, 0x80)], [⟨0, 32, .rw, 0⟩]⟩,
  ⟨0xb804c, [(8, 0x80)], [⟨0, 32, .rw, 0⟩]⟩,
  ⟨0xb8050, [(8, 0x80)], [⟨0, 1, .rw, 0⟩, ⟨1, 9, .rw, 0⟩, ⟨10, 2, .rw, 0⟩]⟩,
  ⟨0xb8054, [(8, 0x80)], [⟨0, 32, .rw, 0⟩]⟩,
  ⟨0xb8058, [(8, 0x80)], [⟨0, 32, .ro, 0⟩]⟩,
  ⟨0xbc000, [(256, 0x4)], [⟨0, 16, .rws, 0⟩]⟩]

/-- The registers of block FI. -/
def regRowsFI : List RegRow := [
  ⟨0xc0000, [], [⟨0, 4, .rws, 0⟩]⟩,
  ⟨0xc0004, [], [⟨0, 1, .ro, 0⟩, ⟨1, 1, .ro, 0⟩, ⟨2, 1, .ro, 0⟩, ⟨3, 1, .w1c, 0⟩, ⟨4, 1, .w1c, 0⟩, ⟨8, 8, .ro, 0⟩]⟩,
  ⟨0xc0008, [], [⟨0, 16, .ro, 0⟩, ⟨16, 16, .rc, 65535⟩]⟩,
  ⟨0xc000c, [], [⟨0, 1, .wo, 0⟩]⟩,
  ⟨0xc0010, [], [⟨0, 32, .ro, 0⟩]⟩,
  ⟨0xc0014, [], [⟨0, 32, .ro, 0⟩]⟩,
  ⟨0xc0018, [], [⟨0, 32, .rws, 0⟩]⟩,
  ⟨0xc0020, [], [⟨0, 5, .ro, 0⟩, ⟨8, 1, .ro, 0⟩, ⟨16, 8, .ro, 0⟩, ⟨31, 1, .ro, 0⟩]⟩,
  ⟨0xc0024, [], [⟨0, 32, .ro, 0⟩]⟩,
  ⟨0xc0040, [], [⟨0, 16, .rw, 0⟩]⟩,
  ⟨0xc0044, [], [⟨0, 16, .wo, 0⟩]⟩,
  ⟨0xc0048, [], [⟨0, 16, .wo, 0⟩]⟩,
  ⟨0xc004c, [], [⟨0, 16, .ro, 0⟩]⟩,
  ⟨0xc0050, [], [⟨0, 16, .w1c, 0⟩, ⟨16, 16, .w1c, 0⟩]⟩,
  ⟨0xc0100, [(32, 0x4)], [⟨0, 16, .rws, 1000⟩, ⟨16, 1, .rws, 0⟩, ⟨17, 1, .rws, 0⟩]⟩,
  ⟨0xc0180, [(32, 0x4)], [⟨0, 9, .rws, 0⟩, ⟨9, 1, .rws, 0⟩, ⟨16, 9, .rws, 0⟩, ⟨25, 1, .rws, 0⟩]⟩,
  ⟨0xc0200, [(32, 0x4)], [⟨0, 32, .ro, 0⟩]⟩,
  ⟨0xc0300, [(16, 0x4)], [⟨0, 1, .rws, 0⟩, ⟨1, 9, .rws, 0⟩, ⟨10, 1, .rws, 0⟩, ⟨11, 1, .rws, 0⟩]⟩]

/-- The registers of block CN. -/
def regRowsCN : List RegRow := [
  ⟨0xd0000, [(4, 0x1000)], [⟨0, 1, .rw, 0⟩, ⟨1, 1, .rw, 0⟩, ⟨2, 1, .rws, 0⟩, ⟨3, 1, .rw, 0⟩]⟩,
  ⟨0xd0004, [(4, 0x1000)], [⟨0, 2, .ro, 0⟩, ⟨8, 8, .ro, 0⟩, ⟨16, 8, .ro, 0⟩, ⟨24, 3, .ro, 0⟩, ⟨27, 1, .w1c, 0⟩, ⟨28, 1, .ro, 0⟩, ⟨29, 1, .w1c, 0⟩]⟩,
  ⟨0xd0008, [(4, 0x1000)], [⟨0, 8, .rws, 0⟩, ⟨8, 8, .rws, 0⟩, ⟨16, 7, .rws, 0⟩, ⟨24, 7, .rws, 0⟩]⟩,
  ⟨0xd000c, [(4, 0x1000)], [⟨0, 5, .rws, 0⟩, ⟨8, 5, .rws, 0⟩, ⟨16, 4, .rws, 0⟩, ⟨24, 4, .rws, 0⟩, ⟨31, 1, .rws, 0⟩]⟩,
  ⟨0xd0010, [(4, 0x1000)], [⟨0, 7, .rws, 0⟩]⟩,
  ⟨0xd0014, [(4, 0x1000)], [⟨0, 1, .wo, 0⟩, ⟨1, 1, .wo, 0⟩]⟩,
  ⟨0xd0018, [(4, 0x1000)], [⟨0, 8, .rc, 0⟩, ⟨8, 8, .rc, 0⟩, ⟨16, 8, .rc, 0⟩, ⟨24, 8, .rc, 0⟩]⟩,
  ⟨0xd001c, [(4, 0x1000)], [⟨0, 7, .ro, 0⟩]⟩,
  ⟨0xd0040, [(4, 0x1000), (16, 0x8)], [⟨0, 29, .rws, 0⟩, ⟨29, 1, .rws, 0⟩, ⟨31, 1, .rws, 0⟩]⟩,
  ⟨0xd0044, [(4, 0x1000), (16, 0x8)], [⟨0, 29, .rws, 0⟩, ⟨29, 1, .rws, 0⟩]⟩,
  ⟨0xd0100, [(4, 0x1000), (3, 0x80)], [⟨0, 1, .wo, 0⟩, ⟨1, 1, .wo, 0⟩]⟩,
  ⟨0xd0104, [(4, 0x1000), (3, 0x80)], [⟨0, 3, .ro, 0⟩, ⟨8, 4, .ro, 0⟩]⟩,
  ⟨0xd0108, [(4, 0x1000), (3, 0x80)], [⟨0, 29, .rw, 0⟩, ⟨29, 1, .rw, 0⟩, ⟨30, 1, .rw, 0⟩]⟩,
  ⟨0xd010c, [(4, 0x1000), (3, 0x80)], [⟨0, 4, .rw, 0⟩, ⟨4, 1, .rw, 0⟩, ⟨5, 1, .rw, 0⟩, ⟨6, 1, .rw, 0⟩, ⟨8, 4, .rw, 0⟩]⟩,
  ⟨0xd0110, [(4, 0x1000), (3, 0x80)], [⟨0, 32, .rw, 0⟩]⟩,
  ⟨0xd0114, [(4, 0x1000), (3, 0x80)], [⟨0, 32, .ro, 0⟩]⟩,
  ⟨0xd0140, [(4, 0x1000), (3, 0x80), (16, 0x4)], [⟨0, 32, .rw, 0⟩]⟩,
  ⟨0xd0400, [(4, 0x1000), (19, 0x4)], [⟨0, 32, .ro, 0⟩]⟩]

/-- The registers of block PE. -/
def regRowsPE : List RegRow := [
  ⟨0xe0000, [(2, 0x1000)], [⟨0, 1, .rws, 0⟩, ⟨1, 2, .rws, 0⟩, ⟨3, 1, .rw, 0⟩]⟩,
  ⟨0xe0004, [(2, 0x1000)], [⟨0, 1, .ro, 0⟩, ⟨1, 2, .ro, 0⟩, ⟨3, 1, .ro, 0⟩]⟩,
  ⟨0xe0008, [(2, 0x1000)], [⟨0, 32, .rws, 0⟩]⟩,
  ⟨0xe000c, [(2, 0x1000)], [⟨0, 16, .rws, 0⟩]⟩,
  ⟨0xe0010, [(2, 0x1000)], [⟨0, 32, .rws, 0⟩]⟩,
  ⟨0xe0020, [(2, 0x1000)], [⟨0, 32, .wo, 0⟩]⟩,
  ⟨0xe0024, [(2, 0x1000)], [⟨0, 32, .ro, 0⟩]⟩,
  ⟨0xe0028, [(2, 0x1000)], [⟨0, 9, .ro, 0⟩, ⟨16, 9, .ro, 0⟩]⟩,
  ⟨0xe002c, [(2, 0x1000)], [⟨0, 8, .rc, 0⟩, ⟨8, 8, .rc, 0⟩, ⟨16, 8, .rc, 0⟩]⟩,
  ⟨0xe0100, [(2, 0x1000), (8, 0x10)], [⟨0, 32, .wo, 0⟩]⟩,
  ⟨0xe0104, [(2, 0x1000), (8, 0x10)], [⟨0, 7, .ro, 0⟩, ⟨7, 1, .ro, 0⟩, ⟨8, 8, .rc, 0⟩]⟩,
  ⟨0xe0108, [(2, 0x1000), (8, 0x10)], [⟨0, 32, .ro, 0⟩]⟩,
  ⟨0xe2000, [], [⟨0, 1, .rws, 0⟩, ⟨1, 1, .rws, 0⟩, ⟨2, 2, .rws, 0⟩, ⟨16, 16, .rws, 0⟩]⟩,
  ⟨0xe2004, [(4, 0x4)], [⟨0, 32, .rws, 0⟩]⟩,
  ⟨0xe2014, [], [⟨0, 16, .rc, 0⟩, ⟨16, 8, .rc, 0⟩, ⟨24, 8, .rc, 0⟩]⟩]

/-- The registers of block RG. -/
def regRowsRG : List RegRow := [
  ⟨0xf0000, [], [⟨0, 2, .ro, 0⟩, ⟨2, 1, .ro, 0⟩, ⟨3, 2, .ro, 0⟩, ⟨5, 1, .ro, 0⟩]⟩,
  ⟨0xf0004, [], [⟨0, 4, .wo, 0⟩, ⟨4, 1, .wo, 0⟩, ⟨5, 2, .wo, 0⟩, ⟨16, 16, .wo, 0⟩]⟩,
  ⟨0xf0008, [], [⟨0, 4, .ro, 0⟩, ⟨8, 4, .ro, 0⟩]⟩,
  ⟨0xf0010, [(8, 0x4)], [⟨0, 32, .ro, 0⟩]⟩,
  ⟨0xf0030, [], [⟨0, 32, .ro, 0⟩]⟩,
  ⟨0xf0034, [], [⟨0, 8, .ro, 0⟩]⟩,
  ⟨0xf0038, [], [⟨0, 7, .ro, 0⟩]⟩,
  ⟨0xf003c, [], [⟨0, 4, .ro, 0⟩, ⟨4, 4, .ro, 0⟩, ⟨8, 1, .ro, 0⟩]⟩,
  ⟨0xf0040, [], [⟨0, 32, .rw, 0⟩]⟩,
  ⟨0xf0044, [], [⟨0, 32, .rw, 0⟩]⟩,
  ⟨0xf0080, [(2, 0x8)], [⟨0, 4, .ro, 0⟩, ⟨8, 8, .ro, 0⟩, ⟨16, 2, .ro, 0⟩]⟩,
  ⟨0xf0084, [(2, 0x8)], [⟨0, 32, .ro, 0⟩]⟩,
  ⟨0xf0100, [], [⟨0, 26, .rw, 0⟩]⟩,
  ⟨0xf0104, [], [⟨0, 32, .rw, 0⟩]⟩,
  ⟨0xf0108, [], [⟨0, 2, .wo, 0⟩]⟩,
  ⟨0xf010c, [], [⟨0, 1, .ro, 0⟩, ⟨1, 1, .w1c, 0⟩, ⟨2, 1, .w1c, 0⟩, ⟨3, 1, .w1c, 0⟩]⟩]

end Sys2Proof.Machine
end

