-- ==== Sys2Proof/Machine/Tab.lean ====
section
/-! DEFINITION. Sparse tables: lists of keys and values in one canonical form, keys strictly rising and no entry
equal to what an unlisted key reads as. -/

namespace Sys2Proof.Machine

/-- A sparse table from numbers to `α`. -/
abbrev Tab (α : Type) := List (Nat × α)

/-- The value at a key: the listed one, or the default. -/
def tabGet {α : Type} (dflt : Nat → α) : Tab α → Nat → α
  | [], k => dflt k
  | (k', v) :: t, k => if k' = k then v else tabGet dflt t k

/-- A table without the key. -/
def tabDel {α : Type} (t : Tab α) (k : Nat) : Tab α := t.filter (fun e => e.1 != k)

/-- A table with an entry put in before the first greater key. -/
def tabIns {α : Type} (k : Nat) (v : α) : Tab α → Tab α
  | [] => [(k, v)]
  | (k', v') :: t => if k < k' then (k, v) :: (k', v') :: t else (k', v') :: tabIns k v t

/-- A table with the value at a key replaced, in canonical form. -/
def tabSet {α : Type} [DecidableEq α] (dflt : Nat → α) (t : Tab α) (k : Nat) (v : α) : Tab α :=
  if v = dflt k then tabDel t k else tabIns k v (tabDel t k)

/-- Whether every key is above `b`. -/
def tabAbove {α : Type} (b : Nat) (t : Tab α) : Bool := t.all (fun e => decide (b < e.1))

/-- The canonical form: keys strictly rising, no entry equal to the default. -/
def tabWf {α : Type} [DecidableEq α] (dflt : Nat → α) : Tab α → Bool
  | [] => true
  | (k, v) :: t => tabAbove k t && decide (v ≠ dflt k) && tabWf dflt t

end Sys2Proof.Machine
end

