-- ==== Sys2Proof/Machine/State.lean ====
section
/-! DEFINITION. The state of the module: every register, memory, queue, counter, mode and pin that the spec
gives it, as plain data, and the queue of the commands that wait. -/

namespace Sys2Proof.Machine

/-- The reasons for which a step could stop with a fault. No meaning raises one: the spec gives every command
an effect. Safe: a constructor that nothing raises removes no behaviour. -/
inductive Fault where
  /-- Never raised by any command. Safe. -/
  | none
  deriving DecidableEq, Repr

/-- The reasons for which a step could be refused. -/
inductive Refusal where
  /-- A command whose meaning is not modelled, by the mnemonic of the opcode table. Raised by exec's arms only.
  Safe: the step stops. -/
  | notModelled (mnemonic : String)
  deriving DecidableEq, Repr

/-! ### Cell time (chapter Cell Time) -/

/-- A CT timer beside its registers: whether it is armed (R41), and the instant that a delay line of its pin holds for the next
edge (R43): the first tick boundary after an arming that came within one tick of the target, else what the tick before the
target loaded. -/
structure Timer where
  armed : Bool
  late : Option Stamp
  fine : Option Stamp
  deriving DecidableEq, Repr

def Timer.reset : Timer := ⟨false, none, none⟩

/-- A CT window beside its registers (R45, R46, R48): whether it is armed, the occurrence armed now, if any, as
`[occOpen, occClose)`, and the occurrence before it, whose edges may still be seen, with the cell time at which it closed. -/
structure Window where
  armed : Bool
  occ : Bool
  occOpen : Word
  occClose : Word
  lastOcc : Bool
  lastOpen : Word
  lastClose : Word
  lastAt : Nat
  deriving DecidableEq, Repr

def Window.reset : Window := ⟨false, false, 0, 0, false, 0, 0, 0⟩

/-- A CT latch beside its registers: the full instant of the last edge it saw, in 2⁻¹⁶ ns (R49). -/
structure Latch where
  last : Option Int
  deriving DecidableEq, Repr

def Latch.reset : Latch := ⟨none⟩

/-- The time base (R27 to R37): the counter in units of 2⁻³² ns, the increment in effect as UQ8.32 ns, the
held INT, the exact remaining slew in 2⁻³² ns, an accepted step that acts at the next tick, and the wake alarm. -/
structure TimeSt where
  ct : Nat
  incr : Nat
  heldInt : Nat
  slew : Int
  stepPend : Option Int
  timers : Tab Timer
  windows : Tab Window
  latches : Tab Latch
  deriving DecidableEq, Repr

def TimeSt.reset : TimeSt := ⟨0, 0x280000000, 2, 0, none, [], [], []⟩

/-! ### Initiators -/

/-- What is kept for each initiator (R38, R109, R128, R253, R364, R365). -/
structure IniSt where
  nowHi : Word
  timeh : Word
  parg0 : Word
  parg1 : Word
  ptime : Word
  halOut : Nat
  spOut : Nat
  cvOut : Nat
  peOut : Tab Nat
  deriving DecidableEq, Repr

def IniSt.reset : IniSt := ⟨0, 0, 0, 0, 0, 0, 0, 0, []⟩

/-! ### Halyard -/

/-- A work item (the item table of the chapter, R244), with the place among items of one clock that R247 gives it and the
reading of cell time at which it became ready. -/
structure Item where
  flow : Nat
  prio : Nat
  kind : Nat
  result : Nat
  count : Nat
  reefed : Bool
  arg0 : Nat
  arg1 : Nat
  time : Nat
  rank : Nat
  tick : Nat
  deriving DecidableEq, Repr

/-- An entry of the delay list: target, the cell time that it names (R3), order of insertion, item (R254). -/
structure DelayEnt where
  target : Nat
  abs : Int
  seq : Nat
  item : Item
  deriving DecidableEq, Repr

/-- A wait object: count and queue, head first (R256, R257). -/
structure WaitObj where
  count : Nat
  queue : List DelayEnt
  deriving DecidableEq, Repr

def WaitObj.reset : WaitObj := ⟨0, []⟩

/-- The hardware sources of items (R247, R259). -/
inductive HalSrc where
  | ev (c : Nat)
  | tmr (n : Nat)
  | win (n : Nat)
  | spar (inst : Nat)
  | canvas (entry : Nat)
  | shroud
  | pair
  deriving DecidableEq, Repr

/-- The item that a hardware source holds back (R259). -/
structure HeldItem where
  src : HalSrc
  item : Item
  deriving DecidableEq, Repr

/-- The item in service at a core: acknowledged (R262), overrun reported (R252), delivery time in ns. -/
structure Service where
  item : Item
  acked : Bool
  overrun : Bool
  since : Nat
  deriving DecidableEq, Repr

/-- The halyard (R244 to R262): the ready lists kept as one list in the order in which items became ready (the list
of a priority is its sublist), the delay list, the wait objects, the held items, the items in service by core,
the insertion counter, whether dispatch is stopped (R260). -/
structure HalSt where
  ready : List Item
  delays : List DelayEnt
  waits : Tab WaitObj
  held : List HeldItem
  serv : Tab (Option Service)
  seq : Nat
  stopped : Bool
  deriving DecidableEq, Repr

def HalSt.reset : HalSt := ⟨[], [], [], [], [], 0, false⟩

/-! ### Cores -/

/-- A line of a data cache: its DRAM address, whether it is dirty, its 64 bytes (R264). -/
structure CacheLine where
  addr : Nat
  dirty : Bool
  data : List Byte
  deriving DecidableEq, Repr

/-- The exceptions of a core's loads and stores (R263, R265). -/
inductive CoreExc where
  | loadMisaligned
  | storeMisaligned
  | loadFault
  | storeFault
  | fetchFault
  deriving DecidableEq, Repr

/-- A PMP entry: the bytes from `lo` up to `hi`, multiples of 64, and what user mode may do there (R265). -/
structure PmpEnt where
  lo : Nat
  hi : Nat
  r : Bool
  w : Bool
  x : Bool
  deriving DecidableEq, Repr

/-- The cores: the data cache of each AC (R264), halted safety cores (R267), whether a core runs, its entry
address as the rig gave it, and whether it has run since the apply (R346, R390); of each AC its mode and PMP entries (R265) and
its reservation (R263), and the last exception of each core's loads and stores. -/
structure CoreSt where
  caches : Tab (List CacheLine)
  halted : Tab Bool
  running : Bool
  entry : Tab Nat
  started : Bool
  /-- Whether an application core is in user mode (R265). -/
  user : Tab Bool
  /-- An application core's PMP entries, 16 at most (R265). -/
  pmp : Tab (List PmpEnt)
  /-- The word that an application core's LR holds reserved, at its canonical address (R263). -/
  resv : Tab Nat
  /-- The last exception that a load or store of core 0 to 3 AC, 4 and 5 SC raised (R263, R265). -/
  exc : Tab (Option CoreExc)
  deriving DecidableEq, Repr

def CoreSt.reset : CoreSt := ⟨[], [], false, [], false, [], [], [], []⟩

/-! ### Faults, nets, host -/

/-- An entry of the always-on log (R375). -/
structure LogEntry where
  ns : Nat
  bit : Nat
  inst : Nat
  count : Nat
  role : Nat
  pstate : Nat
  detail : Nat
  deriving DecidableEq, Repr

/-- The log: entries newest first, entries written in all, where the newest entry's ring copy lies (R376 to R378),
an escalation that waits for an operation's end (R379). -/
structure LogSt where
  entries : List LogEntry
  total : Nat
  ringAt : Option Nat
  escPend : Bool
  deriving DecidableEq, Repr

/-- The log after a power-on of PD_AO: the TIME_LOST entry (R372, R375). -/
def LogSt.reset : LogSt := ⟨[⟨0, 9, 0, 1, 4, 3, 0⟩], 1, none, false⟩

/-- A net of the rigging: the ticks that a pulse on it still lasts, and the value of a registered function (R350, R351). -/
structure Net where
  left : Nat
  reg : Bool
  deriving DecidableEq, Repr

def Net.reset : Net := ⟨0, false⟩

/-- A net's function from the RIGGING section. -/
structure NetFn where
  src : List Nat
  tt : Nat
  mode : Nat
  deriving DecidableEq, Repr

def NetFn.reset : NetFn := ⟨[0, 0, 0, 0], 0, 0⟩

/-- The rigging: nets, their functions, the six pin outputs (words of the section), the levels of RIG_IN0 to 7, the nets to which
the rig routes RXNE (4k), TXEV (4k + 1) and BOFF (4k + 2) of CAN controller k (R332) and the event FIFO's not-empty level (16, R308),
and where a timer placed the last FINE edge on each pin output (R43). -/
structure RiggingSt where
  nets : Tab Net
  fns : Tab NetFn
  outs : Tab Nat
  pins : Tab Bool
  routes : Tab Nat
  edges : Tab (Option Stamp)
  deriving DecidableEq, Repr

def RiggingSt.reset : RiggingSt := ⟨[], [], [], [], [], []⟩

/-- A port's launch-time queue: descriptors in use in push order, each with whether it is completed (R365). -/
structure TxQueue where
  items : List (Nat × Bool)
  deriving DecidableEq, Repr

def TxQueue.reset : TxQueue := ⟨[]⟩

/-- A plant Ethernet port: free and filled buffers, the queues, the frame on the wire (queue, descriptor, LATE), the
last frame sent, the last response of the datagram service (its payload). -/
structure PePort where
  free : List Nat
  filled : List Nat
  queues : Tab TxQueue
  sending : Option (Nat × Nat × Bool)
  sent : List Byte
  reply : List Byte
  deriving DecidableEq, Repr

def PePort.reset : PePort := ⟨[], [], [], none, [], []⟩

/-- The stored answer of the datagram service for an allow entry (R369). -/
structure HdsLast where
  used : Bool
  tag : Nat
  response : List Byte
  deriving DecidableEq, Repr

def HdsLast.reset : HdsLast := ⟨false, 0, []⟩

/-- The host side: MSI-X enable, masks, PBA bits and messages sent per vector (R360, R361), the plant ports,
the datagram service, the endpoint held in reset by PERST_N, and of the endpoint's configuration the speed 1 to 3 and the width 1 or 2
to which the link trained, 0 before, and the bases in the two BARs (R356). -/
structure HostSt where
  msixEn : Bool
  mask : BitVec 32
  pba : BitVec 32
  sent : Tab Nat
  table : Tab Byte
  ports : Tab PePort
  hds : Tab HdsLast
  inReset : Bool
  training : Bool
  speed : Nat
  width : Nat
  bar0 : BitVec 4
  bar2 : BitVec 36
  deriving DecidableEq, Repr

def HostSt.reset : HostSt := ⟨true, BitVec.allOnes 32, 0, [], [], [], [], false, true, 0, 0, 0, 0⟩

/-! ### Power -/

/-- Power: furled, PGOOD, the reason for which an UNDER_WAY follows the apply, a REEF that waits for the items in
service, whether those have ended and only lines that have yet to stop remain, a power fail since the last wake, the watchdog's remaining time in ns and whether it counts, thermal
hold, PSPAROFF in effect. -/
structure PowerSt where
  furled : Bool
  pgood : Bool
  reefWait : Bool
  reefLines : Bool
  uwAfterApply : Bool
  failed : Bool
  wdtLeft : Nat
  wdtSince : Nat
  thermal : Bool
  sparOff : Nat
  deriving DecidableEq, Repr

def PowerSt.reset : PowerSt := ⟨false, false, false, false, false, false, 100000000, 0, false, 0⟩

/-! ### Joint control (chapter Joint Control) -/

/-- The four held samples of a biquad section. -/
structure Biquad where
  x1 : Int
  x2 : Int
  y1 : Int
  y2 : Int
  deriving DecidableEq, Repr

def Biquad.reset : Biquad := ⟨0, 0, 0, 0⟩

/-- The states of a joint (table of the chapter); `code` is JC_STAT.STATE. -/
inductive JState where
  | disabled | enabling | enabled | disabling | fault
  deriving DecidableEq, Repr

def JState.code : JState → Nat
  | .disabled => 0 | .enabling => 1 | .enabled => 2 | .disabling => 3 | .fault => 4

/-- The phases of a homing joint (R78, R79): none, search, stop at a limit before the reversal, search reversed, stop
before completion, stop before an abort, back-off. -/
inductive HPhase where
  | none | search | turn | back | stop | abort | backoff
  deriving DecidableEq, Repr

/-- A joint as the joint control program and its sequencer hold it: state, set-points with 24 fraction bits beyond
Q8.24, Q8.24 and Q12.20 (R54: 56-bit accumulators), feedback in Q8.24, cascade values as mantissas, counts, homing with
its reversal (R79) and the offset offered to channel 2 (R155), the deferred JC_DLIM (R72), the command that waits for the
next cycle start and the one that took effect at the last (R60), FCAUSE, and the bits of the next status word (R415). -/
structure Joint where
  state : JState
  homed : Bool
  spP : Int
  spV : Int
  spA : Int
  fbP : Int
  fbV : Int
  fbSeen : Bool
  nofb : Bool
  integ : Int
  bq1 : Biquad
  bq2 : Biquad
  tff : Int
  tffNext : Int
  tout : Int
  satDir : Int
  missRun : Nat
  ferrRun : Nat
  hsRun : Nat
  since : Nat
  tgt : Int
  decel : Bool
  phase : HPhase
  latP : Bool
  latN : Bool
  latPos : Int
  latPosN : Int
  rev : Bool
  offer : Option Int
  defer : Option Nat
  pend : Option Nat
  cmdNow : Nat
  tgtRead : Word
  dlimNew : Bool
  fcause : Nat
  sat : Bool
  softLimit : Bool
  homeLimit : Bool
  deriving DecidableEq, Repr

def Joint.reset : Joint :=
  ⟨.disabled, false, 0, 0, 0, 0, 0, false, false, 0, .reset, .reset, 0, 0, 0, 0, 0, 0, 0, 0, 0, false, .none, false, false, 0, 0,
   false, none, none, none, 0, 0, false, 0, false, false, false⟩

/-- The interpolator modes (table of the chapter); `code` is JC_ARM_STAT.MODE. -/
inductive Mode where
  | hold | traj | jog | move | jstop | homing | faulted
  deriving DecidableEq, Repr

def Mode.code : Mode → Nat
  | .hold => 0 | .traj => 1 | .jog => 2 | .move => 3 | .jstop => 4 | .homing => 5 | .faulted => 6

/-- A horizon: engine byte offset, knots, knot spacing, start, ticket, sequence number (R61), and whether its memory
was written while it was pending or in use (R62). -/
structure Horizon where
  dirty : Bool
  addr : Nat
  nknot : Nat
  step : Nat
  start : Nat
  ticket : Nat
  seq : Nat
  deriving DecidableEq, Repr

/-- An arm: mode, pending command (R60), pending and adopted horizon, horizon time in UQ16.16, effective scale
and the one before it (R66), scale and stop bit in effect (R65), the pending APPLY (R71), consecutive stale frames
(R74), the values that the status words report (R415), FFSTALE of this cycle and whether a torque feedforward pass was started
(R59), whether the parameter area is to be written at the next wake (R91), the command that took effect at the last start, the address of the pending horizon whose START is this cycle's start with whether its
ticket was live (R82), the ticket of the horizon of a
JSTOP entered from TRAJ (R139). -/
structure Arm where
  mode : Mode
  pend : Option Nat
  pendHor : Option Horizon
  hor : Option Horizon
  tau : Nat
  sEff : Nat
  sPrev : Nat
  scale : Nat
  pstop : Bool
  holdZero : Bool
  trajArm : Bool
  hstat : Nat
  hseq : Nat
  stopCause : Nat
  refused : Bool
  reason : Nat
  apply : Option Nat
  staleRun : Nat
  ffStale : Bool
  ffRun : Bool
  paramDue : Bool
  cmdNow : Nat
  dueHor : Option (Nat × Bool)
  stopTkt : Option Nat
  deriving DecidableEq, Repr

def Arm.reset : Arm :=
  ⟨.hold, none, none, none, 0, 0, 0, 0, false, false, false, 0, 0, 0, false, 0, none, 0, false, false, false, 0, none, none⟩

/-! ### Servo engines (chapter Servo Engine Programming) -/

/-- The registers of one context (R84). Values are kept as the bit patterns of their widths; accumulators and data
registers are read as signed numbers. -/
structure SeRegs where
  d : Vector (BitVec 24) 8
  a : Vector (BitVec 56) 4
  p : Vector (BitVec 18) 8
  t : Vector (BitVec 12) 8
  h : Vector (BitVec 18) 8
  q : Vector (BitVec 12) 8
  e : Vector (BitVec 5) 8
  sr : BitVec 6
  pc : BitVec 14
  stack : List (BitVec 14)
  deriving DecidableEq, Repr

def SeRegs.reset : SeRegs :=
  ⟨.replicate 8 0, .replicate 4 0, .replicate 8 0, .replicate 8 0, .replicate 8 0, .replicate 8 0, .replicate 8 0, 0, 0, []⟩

/-- A servo engine beside its registers: both contexts, the debug halt granted, whether the background pass is under
way (R93), the sampled source of BGDONE (R94), the instant of the last CEND in ns and whether the run of this cycle
ended, engine cycles of the runs, whether the last wake was skipped (R91), the present
cycle's number, CYCNUM of the run (R93), the CRC of the output block (R229). -/
structure Engine where
  fg : SeRegs
  bg : SeRegs
  dbg : Bool
  bgBusy : Bool
  bgEnded : Bool
  woken : Bool
  wokenAt : Nat
  ended : Bool
  endAt : Nat
  fgCyc : Nat
  bgCyc : Nat
  skipped : Bool
  cycNum : Nat
  runNum : Nat
  crc : Nat
  deriving DecidableEq, Repr

def Engine.reset : Engine :=
  ⟨.reset, .reset, false, false, false, false, 0, false, 0, 0, 0, false, 0, 0, 0⟩

/-! ### The Tuitra lines (chapters Frames and Schedules, Time Keeping and Line Start-up) -/

/-- A mailbox exchange: operation, node, length, parameter, tag, request data, requests sent (R181), whether the controller
itself started it (R208), whether its request has left in this cycle. -/
structure MbEx where
  op : Nat
  addr : Nat
  dlen : Nat
  index : Nat
  tag : Nat
  data : List Byte
  count : Nat
  auto : Bool
  sentNow : Bool
  deriving DecidableEq, Repr

/-- A line beside its registers. `accA`, `accB`: reply records accepted in this cycle by node and end; `used`: the records
used in the cycle that has just ended; `rx`: RXMASK; `cycAt`: the last cycle start taken, ns; `coldAt`: the
last cold cycle start (R213); `stopReq`, `runNext`: IDLE or
RUNNING at the next cycle start (R211, R214); `cold`: whether this module cold-started the line (R223); `lat`: the records
latched for the next frame, `stale` whether they are repeated (R74); `frameA`, `frameB`: the last frames sent; `sfdA`, `sfdB`:
by how much their SFDs left the cycle start, in 2⁻¹⁶ ns (R185, R197); θ and d of the cycle's replies by end (R197, R207); whether the wake and the latch point of the cycle have passed; the last mailbox frame sent, the
exchange, the last tag, the DELAY writes that wait (R208); the exchange of the cold mailbox (R213), the cold start's counts,
the answer of its exchange (0 none, 1 OK, 2 PENDING), own frames seen at the far ends, whether a CYCLE frame was sent, measured delays in 2⁻¹⁷ ns (R214);
LISTEN: ns listened, when counting began, the short LISTEN, when the partner was last heard, whether it was heard in this
LISTEN (R212), when its last CYCLE frame and its last COLD
frame with STATE 4 came on this line (R209); a collision seen and the
end of its wait (R215); integration: its start, the initial offset's slew time, cycles and sums after it (R216, R217); the
sums of θ per round and of d per block and end (R205, R208); the own pair measurements of the last two cycles with their cycle
numbers, the one sent to the partner, and the run of small δ (R209, R210); the means sent to the partner for its DELAY
writes (R208) and those of a joiner's first 16 cycles (R216). -/
structure Line where
  accA : Tab (List Byte)
  accB : Tab (List Byte)
  used : Tab (List Byte)
  rx : Nat
  cycAt : Nat
  coldAt : Nat
  seenCyc : Bool
  stopReq : Bool
  runNext : Bool
  cold : Bool
  lat : Tab (List Byte)
  stale : Bool
  frameA : List Byte
  frameB : List Byte
  sfdA : Int
  sfdB : Int
  thA : Tab Int
  thB : Tab Int
  dcA : Tab (Option Int)
  dcB : Tab (Option Int)
  wakeDone : Bool
  latched : Bool
  mbFrame : List Byte
  mb : Option MbEx
  tag : Nat
  autoQ : List (Nat × List Byte)
  cmb : Option MbEx
  coldN : Nat
  cfgEx : Nat
  cfgPend : Nat
  cfgAns : Nat
  farA : Bool
  farB : Bool
  sentCyc : Bool
  cfgA : List Int
  cfgB : List Int
  streak : Nat
  verN : Nat
  listened : Nat
  listenAt : Option Nat
  shortL : Bool
  heardAt : Nat
  heard : Bool
  pAt : Option Nat
  pCold : Option Nat
  coll : Bool
  waitEnd : Option Nat
  integAt : Nat
  integSlew : Nat
  joinLeft : Nat
  joinSum : Tab (Int × Nat)
  late : Nat
  theta : Tab (Int × Nat)
  sumA : Tab (Int × Nat)
  sumB : Tab (Int × Nat)
  dA : Tab Nat
  dB : Tab Nat
  mOwn : List (Nat × Int)
  mSent : Option (Nat × Int)
  psyncRun : Nat
  measSent : List (Nat × Nat)
  joinSent : List (Nat × Nat)
  deriving DecidableEq, Repr

def Line.reset : Line :=
  { accA := [], accB := [], used := [], rx := 0, cycAt := 0, coldAt := 0, seenCyc := false, stopReq := false, runNext := false,
    cold := false, lat := [], stale := false, frameA := [], frameB := [], sfdA := 0, sfdB := 0, thA := [], thB := [], dcA := [], dcB := [],
    wakeDone := false, latched := false, mbFrame := [], mb := none, tag := 0, autoQ := [], cmb := none, coldN := 0,
    cfgEx := 0, cfgPend := 0, cfgAns := 0, farA := false, farB := false, sentCyc := false, cfgA := [], cfgB := [], streak := 0, verN := 0, listened := 0, listenAt := none,
    shortL := false, heardAt := 0, heard := false, pAt := none, pCold := none, coll := false, waitEnd := none, integAt := 0, integSlew := 0, joinLeft := 0, joinSum := [],
    late := 0, theta := [], sumA := [], sumB := [], dA := [], dB := [], mOwn := [], mSent := none, psyncRun := 0, measSent := [], joinSent := [] }

/-- Time keeping of the module (R205, R206, R209): the increment when applied became 1, δ's sum and count in this round,
whether PSYNC was 1 at some measurement of this round (R234), ns of the last round boundary, whether the module follows its
partner (R209). -/
structure FtaSt where
  base : Nat
  dSum : Int
  dCnt : Nat
  syncSeen : Bool
  roundAt : Nat
  slave : Bool
  deriving DecidableEq, Repr

def FtaSt.reset : FtaSt := ⟨0, 0, 0, false, 0, false⟩

/-! ### The redundant pair (chapter The Redundant Pair) -/

/-- What the pair logic holds for a line: the partner's mask and reply CRCs of this cycle and the module's own as sent
(R226), the cycle message of this cycle (R227), consecutive gaps (R228), the latest evidence record (R237), the last cycle message sent, whether the output CRCs
have matched since an adoption (R242). -/
structure PairLine where
  mask : Option (BitVec 10 × List (Nat × Word))
  own : Option (BitVec 10 × List (Nat × Word))
  msg : Option CycleMsg
  gaps : Nat
  evidence : Option Bool
  sent : Option CycleMsg
  crcOk : Bool
  deriving DecidableEq, Repr

def PairLine.reset : PairLine := ⟨none, none, none, 0, none, none, true⟩

/-- A host or core write that waits (R231, R233): initiator, address, bytes. -/
structure Stalled where
  ini : Initiator
  addr : Nat
  data : List Byte
  deriving DecidableEq, Repr

/-- The pair logic (R220 to R243): silenced by a halt, the partner's last heartbeat and the point it belongs to, the points of its last heartbeats (R223, R237), the
partner CYCLE frames seen (instant in ns, of any role and with ROLE ACTIVE or ALONE), whether a partner ACTIVE or ALONE
has been seen since the role became HALTED, highest epoch received, dirty pages of the mirror region and pages of C(P)
not yet sent, the checkpoint being received, writes stalled on a page, the forwarding queue and the writes that wait for it, the
handover instant in ns, a JOIN written, the plan cycle start of the adoption (R242), the heartbeat sent, axis states sent and received
(R303), shroud outputs received (R170), the count of the records sent and the last one of the spar array and of the canvas (R230), whether
the standby awaits a checkpoint by the next plan cycle start (R232), and the state sent by the pass of a resynchronisation with the size of
the present pass in bytes (R242). -/
structure PairSt where
  muted : Bool
  hb : Option HeartbeatMsg
  hbPoint : Option Nat
  hbPoints : List Nat
  frameAt : Option Nat
  actFrameAt : Option Nat
  seenActive : Bool
  maxEpoch : Nat
  lines : Tab PairLine
  dirty : Tab Bool
  unsent : List Nat
  ckIn : Tab (List Byte)
  ckLast : Bool
  stalled : List Stalled
  fwd : List (Nat × List Byte)
  fwdWait : List Stalled
  hoAt : Option Nat
  joinReq : Bool
  adoptAt : Option Nat
  hbSent : Option HeartbeatMsg
  axisSent : Tab (Option AxisMsg)
  axisGot : Tab (Option AxisMsg)
  shGot : Option (List (Fin 8 × BitVec 16 × Bool))
  recsSent : Nat
  spSent : Option SparRec
  cvSent : Option CanvasRec
  ckDue : Bool
  copyMem : Tab Byte
  copyRegs : Tab Word
  passBytes : Nat
  deriving DecidableEq, Repr

def PairSt.reset : PairSt :=
  ⟨false, none, none, [], none, none, false, 0, [], [], [], [], false, [], [], [], none, false, none, none, [], [], none, 0,
   none, none, false, [], [], 0⟩

/-! ### Rig, flash and fuses (chapter The Rig Image and Calibration Set) -/

/-- A rig apply in progress: the slot loaded, the slots still to be tried, whether a command (not start-up) began it, the
slot tried first and its result once it has failed (0 before), whether a slot is loaded. -/
structure RigJob where
  slot : Nat
  rest : List Nat
  cmd : Bool
  first : Nat
  failed : Nat
  ok : Bool
  deriving DecidableEq, Repr

/-- A flash operation in progress: 1 READ, 2 PROGRAM, 3 ERASE, its flash and SRAM addresses. -/
structure FlashJob where
  op : Nat
  addr : Nat
  src : Nat
  deriving DecidableEq, Repr

/-- Rig, flash and fuses: sealed RWS fields (R6, R346), the apply, flash operation and CALWRITE in progress, the rollback
fuses (R342), the key slots and their fuses (R341), the calibration set in effect (R352), the cell facts of the
applied rig: EtherType (R10), ENDAMAP (R221), arm base poses (R13), and the flash sectors whose erase or programming a power loss cut
off (R345, R353). -/
structure RigSt where
  sealed : Bool
  job : Option RigJob
  flash : Option FlashJob
  calJob : Bool
  roll : Nat
  keys : Tab Nat
  keyset : BitVec 4
  keyrev : BitVec 4
  keylock : Bool
  cal : Tab Byte
  etherType : Nat
  endaMap : Nat
  bases : List Byte
  torn : List Nat
  deriving DecidableEq, Repr

def RigSt.reset : RigSt := ⟨false, none, none, false, 0, [], 0, 0, false, [], 0x88B5, 0, [], []⟩

/-! ### The spar array (chapter The Spar Array Solver) -/

/-- A submission as accepted (the descriptor, R109): deadline and its tags; `acc` counts acceptances. -/
structure SparJob where
  inst : Nat
  slot : Nat
  warm : Bool
  nosolve : Bool
  wsrc : Nat
  deadline : Nat
  nent : Nat
  flow : Nat
  prio : Nat
  ent : Nat
  seq : Nat
  acc : Nat
  deriving DecidableEq, Repr

/-- The factors of a problem: columns of L below the diagonal, 1/D, saturation, replaced pivots (R103, R115). -/
structure SparFac where
  cols : List (List (Nat × Int))
  dinv : List Int
  fsat : Bool
  pividx : Nat
  pivcnt : Nat
  deriving DecidableEq, Repr

/-- A problem on a lane: when it was dispatched, how far its work is in lane clocks times `laneUnit` (R122), whether its intake is done,
the flags of its record, its initial vectors, its factors. -/
structure SparRun where
  job : SparJob
  since : Nat
  pos : Nat
  taken : Bool
  paged : Bool
  mismatch : Bool
  noWarm : Bool
  warmed : Bool
  x : List Int
  z : List Int
  y : List Int
  fac : SparFac
  deriving DecidableEq, Repr

/-- A lane: its problem, its structure cache as slots with their last use, whether it is out of service (R107, R120). -/
structure SparLane where
  run : Option SparRun
  cache : List (Nat × Nat)
  out : Bool
  deriving DecidableEq, Repr

def SparLane.reset : SparLane := ⟨none, [], false⟩

/-- An instance: bound slot, values by group and index, the draw that names its undefined values, the last solve's x, z, y
and whether it was reliable (R111, R119). -/
structure SparInst where
  bound : Option Nat
  vals : Tab Int
  undef : Nat
  sol : Option (List Int × List Int × List Int × Bool)
  deriving DecidableEq, Repr

def SparInst.reset : SparInst := ⟨none, [], 0, none⟩

/-- The spar array: the submission queue in order of acceptance, lanes, instances. -/
structure SparSt where
  queue : List SparJob
  lanes : Tab SparLane
  insts : Tab SparInst
  acc : Nat
  deriving DecidableEq, Repr

def SparSt.reset : SparSt := ⟨[], [], [], 0⟩

/-! ### The canvas map (chapter The Canvas Map) -/

/-- A request of the canvas engine as taken in (R128, R129), and for a waiting claim its last conflict mask and first
conflicting voxel. `shape` holds the words of the shape list; `acc` counts acceptances. -/
structure CvReq where
  addr : Nat
  op : Nat
  arm : Nat
  wait : Bool
  prio : Nat
  kind : Nat
  nshape : Nat
  sowner : Nat
  tout : Nat
  shapeAt : Nat
  ticket : Nat
  flow : Nat
  hprio : Nat
  target : Nat
  seq : Nat
  rsv : Bool
  tacc : Nat
  acc : Nat
  shape : List Nat
  mask : Nat
  first : Nat
  deriving DecidableEq, Repr

/-- An accepted request that is not taken in yet: descriptor address, count and short time of its acceptance (R128). -/
structure CvHead where
  addr : Nat
  acc : Nat
  tacc : Nat
  deriving DecidableEq, Repr

/-- A step that the engine carries over ticks: the ticks before it starts, those it then runs, its length in engine clocks (R145). -/
structure CvBusy where
  wait : Nat
  left : Nat
  len : Nat
  deriving DecidableEq, Repr

/-- The canvas engine: queued requests, the step in hand, waiting claims in order of acceptance, stored shapes of the live tickets,
the ticket allocated last (R134), acceptances, and the bricks made keep-out by an error since the rig apply (R148). -/
structure CanvasSt where
  queue : List CvHead
  busy : Option CvBusy
  waiting : List CvReq
  shapes : Tab (List Nat)
  last : Option Nat
  acc : Nat
  faulted : List Nat
  deriving DecidableEq, Repr

def CanvasSt.reset : CanvasSt := ⟨[], none, [], [], none, 0, []⟩

/-! ### The shroud monitor (chapter Speed and Separation Monitoring) -/

/-- A complete scan: receive time in units of 2⁻¹⁶ ns, FAULT, RESTART, boxes, whether a snapshot used it (R151). -/
structure Scan where
  seq : Nat
  at_ : Nat
  fault : Bool
  boxes : List Box
  used : Bool
  deriving DecidableEq, Repr

/-- A scan being collected: SEQ, NSEG, flags, the segments that arrived. -/
structure ScanIn where
  seq : Nat
  nseg : Nat
  flags : Nat
  segs : Tab (List Box)
  got : List Nat
  deriving DecidableEq, Repr

/-- A sensor: stored scan, the one before it (R20), scan being collected, the last complete SEQ and its RESTART flag, whether it was stale at the
previous snapshot of this stay under way (R152). -/
structure Sensor where
  scan : Option Scan
  prev : Option Scan
  inc : Option ScanIn
  last : Option Nat
  lastRst : Bool
  was : Bool
  deriving DecidableEq, Repr

def Sensor.reset : Sensor := ⟨none, none, none, none, false, false⟩

/-- A channel's result for an arm: separation in µm, end points and radii of its capsules, the chosen outputs. -/
structure ChRes where
  sep : Nat
  caps : List (Ends × Nat)
  scale : Nat
  pstop : Bool
  band : Nat
  cause : Nat
  deriving DecidableEq, Repr

/-- An arm in a snapshot: placed, active capsules, scale and ramp bound then in effect, channel 1's pose block, channel 2's raw
counts with offsets. -/
structure SnapArm where
  placed : Bool
  active : List Nat
  sOut : Nat
  sb : Nat
  pose : Option (List Ends)
  raw : Option (List (Nat × Int))
  deriving DecidableEq, Repr

/-- A snapshot: its time in ns, the occupied boxes, the arms, the results by channel; none until the channel ends. -/
structure Snap where
  b : Nat
  boxes : List Box
  arms : List (Nat × SnapArm)
  r1 : Option (List (Nat × Option ChRes))
  r2 : Option (List (Nat × Option ChRes))
  deriving DecidableEq, Repr

/-- What the overspeed test keeps of an arm's previous snapshot: active capsules, end points, ramp bound (R161). -/
structure PrevPose where
  active : List Nat
  ends : List Ends
  sb : Nat
  deriving DecidableEq, Repr

/-- The shroud monitor beside its registers: whether its first snapshot was taken (R169), the last cycle start taken, the time of
a pending SH_APPLY, sensors, the snapshot under evaluation, previous poses by channel, pose blocks copied with their time (R154),
accepted offsets (R155), accepted RELEASEs (R164), the outputs and the apply last sent to the partner (R170), the safety
section in effect, and the plan snapshot's time with the records by line (R22). -/
structure ShroudSt where
  started : Bool
  cycAt : Option Nat
  applyAt : Option Nat
  sensors : Tab Sensor
  snap : Option Snap
  prev1 : Tab (Option PrevPose)
  prev2 : Tab (Option PrevPose)
  poses : Tab (Option (Nat × List Ends))
  ofs : Tab (Option Int)
  sent : List (Fin 8 × BitVec 16 × Bool)
  sentApply : Option Word
  safety : SafetyCfg
  planAt : Option Nat
  planRecs : List (Nat × Tab (List Byte))
  deriving DecidableEq, Repr

def ShroudSt.reset : ShroudSt :=
  ⟨false, none, none, [], none, [], [], [], [], [], none, .none, none, []⟩

/-! ### PWM and sampling (chapter Local Axes: PWM and Current Sampling) -/

/-- A PWM group beside its registers: the staged PER, DT, CMP0 to CMP3 (R273), PAIREN in effect, pairs held in their trip
state until the next boundary (R277), the last boundary in units of the counter, suppressed H pulses of this period, suppressed L pulses around the
last and around the next boundary (R272), for each pair the demand before the last boundary and for how long it had stood in 1/32
ticks, the pairs whose demand begins anew at it, whether a parallel-wired group has left high impedance (R238), and whether this period's peak
is past (R273). -/
structure PwGroup where
  stage : Option (List Nat)
  pairEn : Nat
  hold : Bool
  bnd : Nat
  supH : Nat
  supL : Nat
  supN : Nat
  prev : List (Bool × Nat)
  fresh : Nat
  open_ : Bool
  peaked : Bool
  deriving DecidableEq, Repr

def PwGroup.reset : PwGroup := ⟨none, 0, false, 0, 0, 0, 0, [], 0, false, false⟩

/-- A sampling channel beside its registers: triggers counted (R278), the hold that waits for its conversion (ns), the hold of
the last conversion, and for each engine whether it converted since that engine's words were last taken, and whether the words taken
for its next input block have it (R281). -/
structure AdcCh where
  cnt : Nat
  held : Option Nat
  tsConv : Nat
  conv : Nat
  took : Nat
  deriving DecidableEq, Repr

def AdcCh.reset : AdcCh := ⟨0, none, 0, 0, 0⟩

/-- PWM and sampling: groups, channels, delay lines out of lock (R274), each converter's channel and the start of its conversion in ns
(R279), and by engine the input-block words taken at the cycle
start (R281, R304) and those received from the active module (R235). -/
structure PwmSt where
  groups : Tab PwGroup
  chans : Tab AdcCh
  lost : Tab Bool
  conv : Tab (Option (Nat × Nat))
  locIn : Tab (List (Nat × Nat))
  locGot : Tab (Option (List (Nat × Nat)))
  deriving DecidableEq, Repr

def PwmSt.reset : PwmSt := ⟨[], [], [], [], [], []⟩

/-! ### Feedback ports and step axes (chapter Local Axes: Feedback and Step Generation) -/

/-- A line of a feedback port: received and filtered level, last accepted edge in 2⁻¹⁶ ns (R285). -/
structure FbLine where
  raw : Bool
  flt : Bool
  last : Option Int
  deriving DecidableEq, Repr

def FbLine.reset : FbLine := ⟨false, false, none⟩

/-- A feedback port beside its registers: its lines, the last count change (2⁻¹⁶ ns), counts at the past tick boundaries newest
first (R291), SSI: frame running since, end of the previous frame (ns), the last value (R289,
R290), receiver pairs in fault, for each engine the events since its words were last taken and those in the words taken for its next
input block (R304), and the instant of the last SSI trigger (2⁻¹⁶ ns). -/
structure FbPort where
  a : FbLine
  b : FbLine
  z : FbLine
  chg : Option Int
  hist : List (Nat × Int)
  ssiRun : Bool
  ssiEnd : Option Nat
  ssiPrev : Option Nat
  faults : Nat
  since : Nat
  took : Nat
  ssiAt : Int
  deriving DecidableEq, Repr

def FbPort.reset : FbPort := ⟨.reset, .reset, .reset, none, [], false, none, none, 0, 0, 0, 0⟩

def StAxis.reset : StAxis :=
  ⟨0, 0, none, 0, false, .none, false, false, none, 0, 0, false, false, false, none, 0, none, false, 0, false⟩

/-! ### Field inputs and outputs, CAN (chapter Field Inputs, Outputs and CAN) -/

/-- A field input: filter count (R306), the last raw edges toward 1 and toward 0 (R307), the pending change's level and
timestamp and its MERGED count (R309). -/
structure FiIn where
  cnt : Nat
  rise : Word
  fall : Word
  pend : Option (Bool × Word)
  merged : Nat
  deriving DecidableEq, Repr

def FiIn.reset : FiIn := ⟨0, 0, 0, none, 0⟩

/-- An entry of the event FIFO (R308, R309). -/
structure CosEnt where
  input : Nat
  level : Bool
  merged : Nat
  ts : Word
  deriving DecidableEq, Repr

/-- Field inputs and outputs beside their registers: the levels at the input terminals, inputs, event FIFO, whether FI_COS0 has
been read for the head entry, output states held while reefed (R315), whether parallel-wired outputs wait for the next 125 µs before
they leave high impedance, the states last forwarded to them (R238), and the last halyard tick boundary handled (ns). -/
structure FieldSt where
  pins : Nat
  ins : Tab FiIn
  cos : List CosEnt
  cosRead : Bool
  kept : Nat
  parWait : Bool
  fwd : Nat
  tickAt : Option Nat
  deriving DecidableEq, Repr

def FieldSt.reset : FieldSt := ⟨0, [], [], false, 0, false, 0, none⟩

/-- A CAN controller beside its registers: receive entries as words, the lock's initiator and time in ns (R330), the buffer on the
bus and whether its abort was requested (R326), whether the controller has integrated (R334), whether it resumes sending at the
next bus idle (R333), whether a frame of another node is known to be on the bus, exact TEC and REC, launches that have become
eligible (R324). -/
structure CanSt where
  fifo : List (List Nat)
  lock : Option (Initiator × Nat)
  active : Option Nat
  abortAct : Bool
  integ : Bool
  wait : Bool
  busy : Bool
  tec : Nat
  rec_ : Nat
  early : Tab Bool
  deriving DecidableEq, Repr

def CanSt.reset : CanSt := ⟨[], none, none, false, false, false, false, 0, 0, []⟩

/-! ### The whole module -/

/-- The state of the module and the queue of waiting commands. -/
structure State where
  /-- Registers by device address; an unlisted one holds its reset value. -/
  regs : Tab Word
  /-- Values in effect of shadowed registers (R71, R153), by device address; reset value where unlisted. -/
  eff : Tab Word
  /-- Bytes of the memories by device address. -/
  mem : Tab Byte
  /-- Bytes of the flash by flash address. -/
  flash : Tab Byte
  /-- Memory words with an uncorrectable error, rising (R371). -/
  eccBad : List Nat
  time : TimeSt
  ini : Tab IniSt
  hal : HalSt
  cores : CoreSt
  log : LogSt
  rigging : RiggingSt
  host : HostSt
  power : PowerSt
  joints : Tab Joint
  arms : Tab Arm
  engines : Tab Engine
  lines : Tab Line
  fta : FtaSt
  spar : SparSt
  canvas : CanvasSt
  shroud : ShroudSt
  pwm : PwmSt
  ports : Tab FbPort
  axes : Tab StAxis
  field : FieldSt
  can : Tab CanSt
  pair : PairSt
  rig : RigSt
  /-- The data that the last read returned, and the bytes of a burst read. -/
  data : Word
  burst : List Byte
  /-- The model's own counter of free values drawn. -/
  freeCtr : Nat
  /-- The commands that wait, first in, first out. -/
  pending : List Instr
  deriving DecidableEq, Repr

/-- The module right after reset. -/
def State.reset : State where
  regs := []
  eff := []
  mem := []
  flash := []
  eccBad := []
  time := .reset
  ini := []
  hal := .reset
  cores := .reset
  log := .reset
  rigging := .reset
  host := .reset
  power := .reset
  joints := []
  arms := []
  engines := []
  lines := []
  fta := .reset
  spar := .reset
  canvas := .reset
  shroud := .reset
  pwm := .reset
  ports := []
  axes := []
  field := .reset
  can := []
  pair := .reset
  rig := .reset
  data := 0
  burst := []
  freeCtr := 0
  pending := []

end Sys2Proof.Machine
end

