-- ==== Sys2Proof/Machine/Ops.lean ====
section
/-! DEFINITION. The named operations over registers, memories, time, the sticky record, interrupts, nets and the
halyard that the commands share. -/

namespace Sys2Proof.Machine

/-! ### Registers -/

/-- The register rows of a 64 KiB block (R355). -/
def regBlock (b : Nat) : List RegRow :=
  match b with
  | 0 => regRowsGLB | 1 => regRowsCT | 2 => regRowsHAL | 3 => regRowsJC | 4 => regRowsSE | 5 => regRowsSP
  | 6 => regRowsCV | 7 => regRowsSH | 8 => regRowsTL | 9 => regRowsPR | 10 => regRowsPW | 11 => regRowsFB
  | 12 => regRowsFI | 13 => regRowsCN | 14 => regRowsPE | 15 => regRowsRG | _ => []

/-- Whether an offset lies at a multiple of each step below each count. -/
def idxMatch : List (Nat × Nat) → Nat → Bool
  | [], o => o == 0
  | (c, st) :: r, o => decide (o / st < c) && idxMatch r (o % st)

/-- The register row that holds an address. -/
def findRow (a : Nat) : Option RegRow :=
  (regBlock (a / 0x10000)).find? (fun r => decide (r.base ≤ a) && idxMatch r.idx (a - r.base))

/-- The reset word of a row's fields. -/
def fieldsReset (fs : List FieldRow) : Nat :=
  fs.foldl (fun v f => v + (f.reset % 2 ^ f.width) * 2 ^ f.lo) 0

/-- The reset value of the register at an address (the Reset columns; R372, R380 for the two that differ by word,
the default microstep table). -/
def resetWord (a : Nat) : Word :=
  if a = 0x200 then 0x200 else
  if a = 0x244 then 0x5 else
  if a = 0x248 then 0x14 else
  if 0xBC000 ≤ a ∧ a < 0xBC400 ∧ a % 4 = 0 then BitVec.ofNat 32 (sinTab ((a - 0xBC000) / 4)) else
  match findRow a with
  | some r => BitVec.ofNat 32 (fieldsReset r.fields)
  | none => 0

/-- The word that the register at an address holds. -/
def State.reg (s : State) (a : Nat) : Word := tabGet resetWord s.regs a

/-- The register at an address replaced. -/
def State.setReg (s : State) (a : Nat) (v : Word) : State := { s with regs := tabSet resetWord s.regs a v }

/-- The value of a field. -/
def State.fld (s : State) (f : Fld) : Nat := bits (s.reg f.addr).toNat f.lo f.width

/-- Whether a field is not 0. -/
def State.flag (s : State) (f : Fld) : Bool := s.fld f != 0

/-- A field replaced, its register's other bits kept. -/
def State.setFld (s : State) (f : Fld) (v : Nat) : State :=
  s.setReg f.addr (BitVec.ofNat 32 (putBits (s.reg f.addr).toNat f.lo f.width v))

/-- A field set to 1 or 0. -/
def State.setFlag (s : State) (f : Fld) (b : Bool) : State := s.setFld f (b2n b)

/-- A counting field incremented, saturating. -/
def State.incFld (s : State) (f : Fld) : State := s.setFld f (satInc f.width (s.fld f))

/-- A field that holds a largest value, raised to `v` if lower. -/
def State.maxFld (s : State) (f : Fld) (v : Nat) : State :=
  if s.fld f < v then s.setFld f (min v (2 ^ f.width - 1)) else s

/-- The value in effect of a shadowed register (R71, R153). -/
def State.effReg (s : State) (a : Nat) : Word := tabGet resetWord s.eff a

/-- The value in effect of a field of a shadowed register. -/
def State.effFld (s : State) (f : Fld) : Nat := bits (s.effReg f.addr).toNat f.lo f.width

/-- The value in effect of a shadowed register replaced. -/
def State.setEff (s : State) (a : Nat) (v : Word) : State := { s with eff := tabSet resetWord s.eff a v }

/-! ### Records by index -/

def State.tmr (s : State) (n : Nat) : Timer := tabGet (fun _ => Timer.reset) s.time.timers n
def State.setTmr (s : State) (n : Nat) (t : Timer) : State :=
  { s with time := { s.time with timers := tabSet (fun _ => Timer.reset) s.time.timers n t } }
def State.win (s : State) (n : Nat) : Window := tabGet (fun _ => Window.reset) s.time.windows n
def State.setWin (s : State) (n : Nat) (w : Window) : State :=
  { s with time := { s.time with windows := tabSet (fun _ => Window.reset) s.time.windows n w } }
def State.lat (s : State) (n : Nat) : Latch := tabGet (fun _ => Latch.reset) s.time.latches n
def State.setLat (s : State) (n : Nat) (l : Latch) : State :=
  { s with time := { s.time with latches := tabSet (fun _ => Latch.reset) s.time.latches n l } }
def State.inis (s : State) (i : Initiator) : IniSt := tabGet (fun _ => IniSt.reset) s.ini i.num
def State.setIni (s : State) (i : Initiator) (x : IniSt) : State :=
  { s with ini := tabSet (fun _ => IniSt.reset) s.ini i.num x }
def State.wobj (s : State) (w : Nat) : WaitObj := tabGet (fun _ => WaitObj.reset) s.hal.waits w
def State.setWobj (s : State) (w : Nat) (o : WaitObj) : State :=
  { s with hal := { s.hal with waits := tabSet (fun _ => WaitObj.reset) s.hal.waits w o } }
def State.serv (s : State) (c : Nat) : Option Service := tabGet (fun _ => none) s.hal.serv c
def State.setServ (s : State) (c : Nat) (x : Option Service) : State :=
  { s with hal := { s.hal with serv := tabSet (fun _ => none) s.hal.serv c x } }
def State.joint (s : State) (k : Nat) : Joint := tabGet (fun _ => Joint.reset) s.joints k
def State.setJoint (s : State) (k : Nat) (j : Joint) : State :=
  { s with joints := tabSet (fun _ => Joint.reset) s.joints k j }
def State.arm (s : State) (n : Nat) : Arm := tabGet (fun _ => Arm.reset) s.arms n
def State.setArm (s : State) (n : Nat) (a : Arm) : State :=
  { s with arms := tabSet (fun _ => Arm.reset) s.arms n a }
def State.eng (s : State) (n : Nat) : Engine := tabGet (fun _ => Engine.reset) s.engines n
def State.setEng (s : State) (n : Nat) (e : Engine) : State :=
  { s with engines := tabSet (fun _ => Engine.reset) s.engines n e }
def State.line (s : State) (n : Nat) : Line := tabGet (fun _ => Line.reset) s.lines n
def State.setLine (s : State) (n : Nat) (x : Line) : State :=
  { s with lines := tabSet (fun _ => Line.reset) s.lines n x }
def State.spLane (s : State) (k : Nat) : SparLane := tabGet (fun _ => SparLane.reset) s.spar.lanes k
def State.setSpLane (s : State) (k : Nat) (x : SparLane) : State :=
  { s with spar := { s.spar with lanes := tabSet (fun _ => SparLane.reset) s.spar.lanes k x } }
def State.spInst (s : State) (i : Nat) : SparInst := tabGet (fun _ => SparInst.reset) s.spar.insts i
def State.setSpInst (s : State) (i : Nat) (x : SparInst) : State :=
  { s with spar := { s.spar with insts := tabSet (fun _ => SparInst.reset) s.spar.insts i x } }
def State.pwg (s : State) (g : Nat) : PwGroup := tabGet (fun _ => PwGroup.reset) s.pwm.groups g
def State.setPwg (s : State) (g : Nat) (x : PwGroup) : State :=
  { s with pwm := { s.pwm with groups := tabSet (fun _ => PwGroup.reset) s.pwm.groups g x } }
def State.adc (s : State) (c : Nat) : AdcCh := tabGet (fun _ => AdcCh.reset) s.pwm.chans c
def State.setAdc (s : State) (c : Nat) (x : AdcCh) : State :=
  { s with pwm := { s.pwm with chans := tabSet (fun _ => AdcCh.reset) s.pwm.chans c x } }
def State.port (s : State) (p : Nat) : FbPort := tabGet (fun _ => FbPort.reset) s.ports p
def State.setPort (s : State) (p : Nat) (x : FbPort) : State :=
  { s with ports := tabSet (fun _ => FbPort.reset) s.ports p x }
def State.axis (s : State) (k : Nat) : StAxis := tabGet (fun _ => StAxis.reset) s.axes k
def State.setAxis (s : State) (k : Nat) (x : StAxis) : State :=
  { s with axes := tabSet (fun _ => StAxis.reset) s.axes k x }
def State.fin (s : State) (i : Nat) : FiIn := tabGet (fun _ => FiIn.reset) s.field.ins i
def State.setFin (s : State) (i : Nat) (x : FiIn) : State :=
  { s with field := { s.field with ins := tabSet (fun _ => FiIn.reset) s.field.ins i x } }
def State.cn (s : State) (k : Nat) : CanSt := tabGet (fun _ => CanSt.reset) s.can k
def State.setCn (s : State) (k : Nat) (x : CanSt) : State :=
  { s with can := tabSet (fun _ => CanSt.reset) s.can k x }
def State.pline (s : State) (n : Nat) : PairLine := tabGet (fun _ => PairLine.reset) s.pair.lines n
def State.setPline (s : State) (n : Nat) (p : PairLine) : State :=
  { s with pair := { s.pair with lines := tabSet (fun _ => PairLine.reset) s.pair.lines n p } }
def State.pe (s : State) (p : Nat) : PePort := tabGet (fun _ => PePort.reset) s.host.ports p
def State.setPe (s : State) (p : Nat) (x : PePort) : State :=
  { s with host := { s.host with ports := tabSet (fun _ => PePort.reset) s.host.ports p x } }
def State.net (s : State) (n : Nat) : Net := tabGet (fun _ => Net.reset) s.rigging.nets n
def State.setNet (s : State) (n : Nat) (x : Net) : State :=
  { s with rigging := { s.rigging with nets := tabSet (fun _ => Net.reset) s.rigging.nets n x } }
def State.netFn (s : State) (n : Nat) : NetFn := tabGet (fun _ => NetFn.reset) s.rigging.fns n

/-! ### Time -/

/-- Cell time in ns, 64 bits. -/
def State.nowNs (s : State) : Nat := s.time.ct / 2 ^ 32 % 2 ^ 64

/-- Short time: its low 32 bits. -/
def State.now (s : State) : Nat := s.nowNs % 2 ^ 32

/-- The present fraction of a nanosecond, UQ0.16. -/
def State.nowFrac (s : State) : Nat := s.time.ct / 2 ^ 16 % 2 ^ 16

/-- Whether the module is under way: GLB_PWR_STAT.STATE reads UNDER_WAY (R388), or a REEF waits for the items in service or for the lines' cycle starts (R389). -/
def State.underWay (s : State) : Bool := !s.power.furled && (s.fld GLB_PWR_STAT_STATE == 0 || s.power.reefWait)

/-- The start of the cycle of period `p` in which cell time lies (R15, R16). -/
def State.cycleStart (s : State) (p : Nat) : Nat := s.nowNs / p * p

/-- The word answered to a reader. -/
def State.answer (s : State) (v : Word) : State := { s with data := v }

/-! ### Free values -/

/-- A value that the spec leaves open, and the state that has drawn it. -/
def State.draw (s : State) (w : Nat) : BitVec w × State :=
  (Config.free w s.freeCtr, { s with freeCtr := s.freeCtr + 1 })

/-! ### Memory -/

/-- What a byte of memory that nothing has written reads as: 0, but for the staging area, whose contents are undefined after an
apply (R346). -/
def memDefault (a : Nat) : Byte := if 0x4E000000 ≤ a ∧ a < 0x50000000 then Config.stageByte a else 0

/-- The byte at a device address. -/
def State.rdB (s : State) (a : Nat) : Byte := tabGet memDefault s.mem a

/-- A byte of memory replaced. -/
def State.wrB (s : State) (a : Nat) (b : Byte) : State := { s with mem := tabSet memDefault s.mem a b }

/-- `n` bytes from an address on. -/
def State.rdBytes (s : State) (a n : Nat) : List Byte := (List.range n).map (fun i => s.rdB (a + i))

/-- Bytes stored from an address on. -/
def State.putBytes (s : State) : Nat → List Byte → State
  | _, [] => s
  | a, b :: bs => (s.wrB a b).putBytes (a + 1) bs

/-- A write of bytes: a word that is written in full loses its uncorrectable error (R371). -/
def State.wrBytes (s : State) (a : Nat) (bs : List Byte) : State :=
  let s' := s.putBytes a bs
  { s' with eccBad := s'.eccBad.filter (fun w => !(decide (a ≤ w) && decide (w + 4 ≤ a + bs.length))) }

/-- The little-endian word at an address (R10). -/
def State.rd32 (s : State) (a : Nat) : Nat := leNat (s.rdBytes a 4)

/-- A word stored at an address (R10). -/
def State.wr32 (s : State) (a v : Nat) : State := s.wrBytes a (leBytes 4 v)

/-- Whether a word with an uncorrectable error lies in `n` bytes from an address on. -/
def State.eccHit (s : State) (a n : Nat) : Option Nat :=
  s.eccBad.find? (fun w => decide (w < a + n) && decide (a < w + 4))

/-- The device address of byte `a` of engine `e`'s data memory (R81). -/
def seData (e a : Nat) : Nat := 0x01000000 + 0x40000 * e + 0x10000 + a

/-- The device address of instruction word `w` of engine `e`'s program memory (R81). -/
def seProg (e w : Nat) : Nat := 0x01000000 + 0x40000 * e + 4 * w

/-- A flash byte that nothing has written: factory contents below the slots, erased elsewhere (R335, R411). -/
def flashDefault (a : Nat) : Byte := if a < 0x20000 then Config.factoryByte a else 0xFF

/-- The byte at a flash address. -/
def State.flB (s : State) (a : Nat) : Byte := tabGet flashDefault s.flash a

/-- A flash byte replaced. -/
def State.setFlB (s : State) (a : Nat) (b : Byte) : State := { s with flash := tabSet flashDefault s.flash a b }

/-- Bytes written to the flash. -/
def State.flPut (s : State) : Nat → List Byte → State
  | _, [] => s
  | a, b :: bs => (s.setFlB a b).flPut (a + 1) bs

/-- `n` flash bytes from an address on. -/
def State.flBytes (s : State) (a n : Nat) : List Byte := (List.range n).map (fun i => s.flB (a + i))

/-! ### MSI-X (R360, R361) -/

/-- A cause of vector `v`: its bit is set; when it was 0 the message is sent, or the PBA bit set while masked. -/
def State.cause (s : State) (v : Nat) : State :=
  let c := s.reg GLB_HIRQ_STAT
  if c.getLsbD v then s else
  let s := s.setReg GLB_HIRQ_STAT (c ||| BitVec.ofNat 32 (2 ^ v))
  if s.host.mask.getLsbD v then { s with host := { s.host with pba := s.host.pba ||| BitVec.ofNat 32 (2 ^ v) } }
  else if s.host.msixEn then
    { s with host := { s.host with sent := tabSet (fun _ => 0) s.host.sent v (tabGet (fun _ => 0) s.host.sent v + 1) } }
  else s

/-! ### Nets (R350, R351) -/

/-- The raw level of field input `i`: its terminal, inverted by INV (R306). -/
def State.rawLevel (s : State) (i : Nat) : Bool := s.field.pins.testBit i != s.flag (FI_DI_CFG_INV i)

/-- A routed level: RXNE and BOFF of a CAN controller, the event FIFO's not-empty level (R308, R332). -/
def State.routeLevel (s : State) (k : Nat) : Bool :=
  if k = 16 then !s.field.cos.isEmpty
  else if k % 4 = 0 then !(s.cn (k / 4)).fifo.isEmpty
  else k % 4 == 2 && s.fld (CN_STAT_STATE (k / 4)) == 2

/-- Whether a block holds a net high: an open window, an input's filtered or raw level, a routed level (R45, R307, R308, R332);
drivers of one net are ORed (R351). -/
def State.blockHigh (s : State) (n : Nat) : Bool :=
  (List.range 8).any (fun w => s.flag (CT_WIN_STAT_ACTIVE w) && s.flag (CT_WIN_CTL_NETEN w) && s.fld (CT_WIN_CTL_NET w) == n) ||
  (List.range 32).any (fun i =>
    ((s.fld FI_DIN_V).testBit i && s.flag (FI_DI_NET_FLTEN i) && s.fld (FI_DI_NET_FLTNET i) == n) ||
    (s.rawLevel i && s.flag (FI_DI_NET_RAWEN i) && s.fld (FI_DI_NET_RAWNET i) == n)) ||
  s.rigging.routes.any (fun r => r.2 == n && s.routeLevel r.1)

/-- Whether a pulse on the net is still high: ticks of it are left. -/
def Net.high (x : Net) : Bool := decide (0 < x.left)

/-- A pulse of `w` ticks on a net from the present tick on; of two that overlap, the one that ends later goes on (R351). -/
def State.pulseNet (s : State) (n w : Nat) : State := s.setNet n { s.net n with left := max (s.net n).left w }

/-- A source word of a function: a constant, a net by `lvl`, a pin RIG_IN (R350). -/
def State.netSrc (s : State) (lvl : Nat → Bool) (w : Nat) : Bool :=
  match w / 4096 with
  | 0 => false
  | 1 => true
  | 2 => lvl (w % 512)
  | _ => tabGet (fun _ => false) s.rigging.pins (w % 8)

/-- The value of a net's truth table on its sources. -/
def State.netTable (s : State) (lvl : Nat → Bool) (f : NetFn) : Bool :=
  f.tt.testBit ((f.src.map (s.netSrc lvl)).foldr (fun b a => b2n b + 2 * a) 0)

/-- What drives a net beside a combinational function: blocks, pulses, its registered function. -/
def State.netHeld (s : State) (n : Nat) : Bool :=
  s.blockHigh n || (s.net n).high || ((s.netFn n).mode == 2 && (s.net n).reg)

/-- The level of a net: its drivers ORed (R351), combinational functions to a depth of `fuel` (R350). -/
def State.netLevel (s : State) : Nat → Nat → Bool
  | 0, n => s.netHeld n
  | fuel + 1, n => s.netHeld n || ((s.netFn n).mode == 1 && s.netTable (s.netLevel fuel) (s.netFn n))

/-- The value that a registered function takes at the tick (R350, MODE 2). -/
def State.netNext (s : State) (n : Nat) : Bool := s.netTable (s.netLevel 4) (s.netFn n)

/-- The word of pin output `k` (R350). -/
def State.outWord (s : State) (k : Nat) : Nat := tabGet (fun _ => 0) s.rigging.outs k

/-- The level of RIG_OUT`k`: its net's, inverted by INV; none while the pin is high impedance (EN 0) (R350, R351). -/
def State.rigOut (s : State) (k : Nat) : Option Bool :=
  let w := s.outWord k
  if w.testBit 9 then some (s.netLevel 4 (w % 512) != w.testBit 10) else none

/-- The pin outputs driven by a net (R350). -/
def State.pinsOf (s : State) (n : Nat) : List Nat :=
  (List.range 6).filter (fun k => (s.outWord k).testBit 9 && s.outWord k % 512 == n)

/-! ### Halyard: slots and hardware sources (R244, R246, R247, R259) -/

/-- The items in service. -/
def State.inService (s : State) : List Item :=
  s.hal.serv.filterMap (fun e => e.2.map (fun x => x.item))

/-- The items that wait on wait objects. -/
def State.waiters (s : State) : List DelayEnt := s.hal.waits.flatMap (fun e => e.2.queue)

/-- Every item that holds a slot. -/
def State.slotItems (s : State) : List Item :=
  s.hal.ready ++ s.hal.delays.map (fun d => d.item) ++ s.waiters.map (fun d => d.item) ++ s.inService

/-- Free item slots of the 4 096 (R244). -/
def State.freeSlots (s : State) : Nat := 4096 - s.slotItems.length

/-- Delay entries in use (R254, R256). -/
def State.delaysUsed (s : State) : Nat := s.hal.delays.length + s.waiters.length

/-- Slots that a flow holds. -/
def State.flowHeld (s : State) (f : Nat) : Nat := (s.slotItems.filter (fun i => i.flow == f)).length

/-- Whether a flow is at its quota (R246). -/
def State.atQuota (s : State) (f : Nat) : Bool :=
  let q := s.fld (HAL_FLOW_CFG_QUOTA f)
  q != 0 && decide (q ≤ s.flowHeld f)

/-- Whether a hardware source of a flow obtains a slot now. -/
def State.hwSlot (s : State) (f : Nat) : Bool :=
  s.flag HAL_CTL_RUN && decide (0 < s.freeSlots) && !s.atQuota f

/-- The place of row `r` of R247's table, with the order within the row. -/
def rowRank (r within : Nat) : Nat := r * 2 ^ 200 + within

/-- The order of the hardware sources (R247). -/
def State.srcRank (s : State) (x : HalSrc) : Nat :=
  match x with
  | .ev c => rowRank 3 (64 * s.fld (HAL_EV_CFG_NET c) + c)
  | .tmr n => rowRank 4 n
  | .win n => rowRank 4 (100 + 2 * n)
  | .spar i => rowRank 5 i
  | .canvas e => rowRank 5 (1000 + e)
  | .shroud => rowRank 5 (2 ^ 100)
  | .pair => rowRank 5 (2 ^ 100 + 1)

/-- The place of an event's item: a window's open, whose ARG0 is its number, comes before its close (R247). -/
def State.itemRank (s : State) (x : HalSrc) (arg0 : Nat) : Nat :=
  match x with
  | .win _ => s.srcRank x + arg0 / 256
  | _ => s.srcRank x

/-- An item put into the ready lists behind all but those of the same clock that R247 places after it. -/
def insertReady (i : Item) : List Item → List Item
  | [] => [i]
  | x :: xs => if (x :: xs).all (fun y => y.tick == i.tick && decide (i.rank < y.rank)) then i :: x :: xs else x :: insertReady i xs

/-- An item that becomes ready at the present moment (R247). -/
def State.pushReady (s : State) (i : Item) : State :=
  { s with hal := { s.hal with ready := insertReady { i with time := s.now, tick := s.time.ct } s.hal.ready } }

/-- A held item put in by rank. -/
def insertHeld (s : State) (h : HeldItem) : List HeldItem → List HeldItem
  | [] => [h]
  | x :: xs => if s.srcRank h.src < s.srcRank x.src then h :: x :: xs else x :: insertHeld s h xs

/-- An event of a hardware source: merged into its held item, ready when a slot is free, held otherwise (R259).
A flow of 0 means none. -/
def State.hwPost (s : State) (src : HalSrc) (flow prio kind arg0 arg1 : Nat) : State :=
  if flow = 0 then s
  else if s.hal.held.any (fun h => h.src == src) then
    { s with hal := { s.hal with held := s.hal.held.map (fun (h : HeldItem) =>
        if h.src = src then { h with item := { h.item with count := min 255 (h.item.count + 1) } } else h) } }.incFld HAL_CNT_MERGES
  else
    let it : Item := ⟨flow, prio, kind, 0, 1, false, arg0, arg1, 0, s.itemRank src arg0, 0⟩
    if s.hwSlot flow then s.pushReady it
    else { s with hal := { s.hal with held := insertHeld s ⟨src, it⟩ s.hal.held } }

/-- Held items that obtain a slot become ready, in the order of R247 (R259). -/
def takeHeld : List HeldItem → State → State
  | [], s => s
  | h :: hs, s =>
    if s.hwSlot h.item.flow then
      takeHeld hs ({ s with hal := { s.hal with held := s.hal.held.filter (fun x => x.src != h.src) } }.pushReady h.item)
    else takeHeld hs s

/-- The held items served from the slots that are free. -/
def State.serveHeld (s : State) : State := takeHeld s.hal.held s

/-! ### The calibration set (R352) -/

/-- The defaults of the calibration set by offset; PINDLY and PHY are design values held in the controller. -/
def calDefault (o : Nat) : Byte :=
  if o = 0x21 then 0x80
  else if 0x24 ≤ o ∧ o < 0x28 then BitVec.ofNat 8 (0x77359400 / 256 ^ (o - 0x24))
  else if (0x40 ≤ o ∧ o < 0x140) ∨ (0x1300 ≤ o ∧ o < 0x1580) then Config.designByte o
  else if 0x200 ≤ o ∧ o < 0x1200 then BitVec.ofNat 8 (o % 32)
  else if (0x1200 ≤ o ∧ o < 0x1260) ∨ (0x12A0 ≤ o ∧ o < 0x12A4) then (if o % 4 = 1 then 0x40 else 0)
  else 0

/-- The number of `n` bytes at an offset of the calibration set in effect. -/
def State.cal (s : State) (o n : Nat) : Nat := leNat ((List.range n).map (fun i => tabGet calDefault s.rig.cal (o + i)))

/-! ### Timestamps (R40) -/

/-- Whether delay line `d` is out of lock (R274; the numbers of R352's table). -/
def State.lineLost (s : State) (d : Nat) : Bool := tabGet (fun _ => false) s.pwm.lost d

/-- The fixed pin delay of delay line `d` in 2⁻³² ns; 0 for a number that is no delay line (R352). -/
def State.pinDelay (s : State) (d : Nat) : Nat := if d < 128 then s.cal (0x40 + 2 * d) 2 * 2 ^ 24 else 0

/-- The timestamp of an event on delay line `d`: the counter at the last tick before it, plus one thirty-second of the increment
in effect for each tap passed, less the fixed pin delay (R40). FRAC is 0 while the line is out of lock (R274). -/
def State.stampOn (s : State) (d : Nat) (t : Stamp) : Stamp :=
  let v := ((t.ns.toNat * 2 ^ 32 + t.frac.toNat * 2 ^ 16 + t.taps.val * s.time.incr / 32 : Nat) : Int) - s.pinDelay d
  let w := (v / 65536 % 2 ^ 48).toNat
  ⟨BitVec.ofNat 32 (w / 65536), if s.lineLost d then 0 else BitVec.ofNat 16 (w % 65536), 0⟩

/-- The number that stands for no delay line: an event seen inside the module or on a pin without one. -/
def noLine : Nat := 128

/-- The delay line of a net's edges: that of the field input whose raw level drives the net, if any (R40, R307, R352). -/
def State.netLine (s : State) (n : Nat) : Nat :=
  match (List.range 32).find? (fun i => s.flag (FI_DI_NET_RAWEN i) && s.fld (FI_DI_NET_RAWNET i) == n) with
  | some i => 90 + i
  | none => noLine

/-- A frame at an end of line `n`, its timestamp taken on that port's delay line: 72 to 79 for A0 to A7, 80 to 87 for B0 to B7. -/
def State.stamped (s : State) (n : Nat) (f : LineFrame) : LineFrame :=
  { f with sfd := s.stampOn (if f.endB then 80 + n else 72 + n) f.sfd }

/-- A short time as the cell time nearest the present. -/
def State.fullTime (s : State) (t : Nat) : Int := (s.nowNs : Int) + diff32 t s.now

/-- A timestamp as a full instant in 2⁻¹⁶ ns. -/
def State.full16 (s : State) (t : Stamp) : Int := s.fullTime t.ns.toNat * 65536 + t.frac.toNat

/-! ### Role changes, the sticky record and the log -/

/-- The present role (PR_STAT.ROLE). -/
def State.role (s : State) : Nat := s.fld PR_STAT_ROLE

/-- The CAN controllers resume normal operation at the next bus idle when the role becomes ALONE or ACTIVE (R333). -/
def State.canResume (s : State) (was now : Nat) : State :=
  if 2 ≤ was ∧ now < 2 then (List.range 4).foldl (fun (t : State) k => t.setCn k { t.cn k with wait := true }) s else s

/-- Whether the module's role is ACTIVE or ALONE. -/
def State.commands (s : State) : Bool := s.role == 0 || s.role == 1

/-- Whether the role keeps the module from taking spar and canvas requests (R109, R128, the role table): STANDBY, STALE, and HALTED in a
pair. -/
def State.refuses (s : State) : Bool := s.role == 2 || s.role == 3 || (s.role == 4 && s.flag PR_CTL_PAIREN)

/-- The source in effect (R30): 0 FREE, 1 LINE, 2 PTP. -/
def State.effSrc (s : State) : Nat :=
  if s.role = 2 ∨ s.role = 3 then 1
  else match s.fld CT_CTL_CFGSRC with
    | 1 => 1
    | 2 => 2
    | _ => 0

/-- base and rate begun when the corrections begin (R206). -/
def State.beginRate (s : State) : State :=
  { s.setReg TL_FTA_RATE 0 with fta := { s.fta with base := s.time.incr } }

/-- TL_FTA_STAT.APPLIED follows the source in effect and the role; base and rate begin as it becomes 1 (R206). -/
def State.refreshApplied (s : State) : State :=
  let app := s.effSrc == 1 && s.commands
  if app == s.flag TL_FTA_STAT_APPLIED then s
  else (if app then s.beginRate else s).setFlag TL_FTA_STAT_APPLIED app

/-- What a new role does to time keeping: a module that begins to follow its partner begins base and rate anew (R206, R209). -/
def State.roleTime (s : State) : State :=
  let sl := s.role == 2 || s.role == 3
  let s := if sl && !s.fta.slave then s.beginRate else s
  { s with fta := { s.fta with slave := sl } }.refreshApplied

/-- A change of role: time keeping, the pair vector and the halyard notification (R206, R238, R360). -/
def State.setRole (s : State) (r : Nat) : State :=
  if s.role = r then s else
  let s := ((s.setFld PR_STAT_ROLE r).canResume s.role r).roleTime
  let s := if s.flag PR_CTL_IRQ then s.cause 4 else s
  s.hwPost .pair (s.fld PR_CTL_HALFLOW) (s.fld PR_CTL_HPRIO) 7 r (s.fld PR_EPOCH_EPOCH)

/-- The module goes HALTED with a cause and falls silent (R223, R240). -/
def State.goHalted (s : State) (cause : Nat) : State :=
  let s := (s.setRole 4).setFld PR_STAT_HALTCAUSE cause
  let s := (List.range 8).foldl (fun (t : State) g => t.setPwg g { t.pwg g with open_ := false }) (s.setFld PR_STAT_RESYNC 0)
  { s with pair := { s.pair with muted := true, seenActive := false, hoAt := none, adoptAt := none, joinReq := false } }

/-- GLB_PWR_STAT as the log reports it (R375). -/
def State.pstate (s : State) : Nat :=
  if s.power.furled then 2 else match s.fld GLB_PWR_STAT_STATE with
  | 0 => 0
  | 1 => 1
  | _ => 3

/-- The four words of a log entry (R375). -/
def LogEntry.words (e : LogEntry) : List Nat :=
  [e.ns % 2 ^ 32, e.ns / 2 ^ 32,
   e.bit + 256 * e.inst + 65536 * e.count + 2 ^ 24 * e.role + 2 ^ 27 * e.pstate + 2 ^ 31, e.detail]

/-- A log entry's 16 bytes. -/
def LogEntry.bytes (e : LogEntry) : List Byte := e.words.flatMap (leBytes 4)

/-- The DRAM ring's next place, and WR advanced (R378). -/
def State.ringNew (s : State) (e : LogEntry) : State :=
  let len := s.fld GLB_RING_LEN_LEN * 4096
  let at_ := (s.reg GLB_RING_BASE).toNat + s.fld GLB_RING_WR_WR
  let s := (s.wrBytes at_ e.bytes).setFld GLB_RING_WR_WR ((s.fld GLB_RING_WR_WR + 16) % len)
  { s with log := { s.log with ringAt := some at_ } }

/-- The newest entry written to the ring: new, or in place (R378). -/
def State.ringPut (s : State) (e : LogEntry) (merge : Bool) : State :=
  if s.fld GLB_RING_LEN_LEN = 0 then (if merge then s else { s with log := { s.log with ringAt := none } })
  else if s.underWay then
    match merge, s.log.ringAt with
    | true, some a => s.wrBytes a e.bytes
    | _, _ => s.ringNew e
  else if merge then s
  else { (s.incFld GLB_LOG_STAT_RINGSKIP) with log := { s.log with ringAt := none } }

/-- The log entry of an occurrence (R375 to R378). -/
def State.logIt (s : State) (bit inst detail : Nat) : State :=
  match s.log.entries with
  | e :: es =>
    if e.bit = bit ∧ e.inst = inst then
      let e' := { e with count := min 255 (e.count + 1) }
      { s with log := { s.log with entries := e' :: es } }.ringPut e' true
    else
      let n : LogEntry := ⟨s.nowNs, bit, inst, 1, s.role, s.pstate, detail⟩
      { s with log := { s.log with entries := (n :: e :: es).take 64, total := (s.log.total + 1) % 65536 } }.ringPut n false
  | [] =>
    let n : LogEntry := ⟨s.nowNs, bit, inst, 1, s.role, s.pstate, detail⟩
    { s with log := { s.log with entries := [n], total := (s.log.total + 1) % 65536 } }.ringPut n false

/-- The escalation of a newly set sticky bit: HALTED at once, or when the apply or flash operation ends (R379). -/
def State.escalate (s : State) : State :=
  if s.rig.job.isSome || s.rig.flash.isSome then { s with log := { s.log with escPend := true } }
  else s.goHalted 1

/-- An occurrence of sticky bit `b` (R372 to R379). -/
def State.sticky (s : State) (b inst detail : Nat) : State :=
  let a := GLB_FAULT_STICKY (b / 32)
  let m := BitVec.ofNat 32 (2 ^ (b % 32))
  let was := (s.reg a).getLsbD (b % 32)
  let s := (s.setReg a (s.reg a ||| m)).logIt b inst (detail % 2 ^ 32)
  if was then s else
  let s := if (s.reg (GLB_FAULT_IRQEN (b / 32))).getLsbD (b % 32) then s.cause 0 else s
  if (s.reg (GLB_FAULT_HALT (b / 32))).getLsbD (b % 32) then s.escalate else s

/-- A waiting escalation carried out once no operation runs (R379). -/
def State.settleEsc (s : State) : State :=
  if s.log.escPend && !(s.rig.job.isSome || s.rig.flash.isSome) then
    { s with log := { s.log with escPend := false } }.goHalted 1
  else s

/-- A STANDBY module becomes STALE with a cause (R223, R373). -/
def State.goStale (s : State) (cause : Nat) : State :=
  if s.role = 2 then
    ((s.setRole 3).setFld PR_STAT_STALECAUSE cause).sticky 130 0 cause
  else s

/-- The sticky bit of an uncorrectable error that a unit without an initiator number read in general SRAM or DRAM (R371): the
number that the log shows is open. -/
def State.eccNote (s : State) (a : Nat) : State :=
  let d := s.draw 8
  d.2.sticky (if 0x40000000 ≤ a ∧ a < 0x50000000 then 33 else 32) d.1.toNat a

/-- An exception raised in a core (R263, R265, R371). -/
def State.raise (s : State) (i : Initiator) (e : CoreExc) : State :=
  { s with cores := { s.cores with exc := tabSet (fun _ => none) s.cores.exc i.num (some e) } }

/-! ### Power domains and host accesses (R359, R386, R387) -/

/-- Whether a rig is applied (RG_STAT.STATE APPLIED). -/
def State.hasRig (s : State) : Bool := s.fld RG_STAT_STATE == 2

/-- Whether the domain of lane `k` is on (R387). -/
def State.laneOn (s : State) (k : Nat) : Bool := s.underWay && !s.power.sparOff.testBit (k / 16)

/-- Whether the domain that holds an address is on, retained parts counting as off (R386); an address of no listed range lies in none (R355). -/
def State.domainOn (s : State) (a : Nat) : Bool :=
  if s.power.furled then false
  else if s.underWay then
    (if 0x02000000 ≤ a ∧ a < 0x02800000 then s.laneOn ((a - 0x02000000) / 0x40000) else true)
  else if a < 0x100000 then
    match a / 0x10000 with
    | 0 | 13 | 14 | 15 => true
    | 1 => decide (a < 0x10030)
    | 12 => s.hasRig
    | _ => false
  else !((decide (0x01000000 ≤ a) && decide (a < 0x01200000)) || (decide (0x02000000 ≤ a) && decide (a < 0x02800000)) ||
    (decide (0x04000000 ≤ a) && decide (a < 0x06000000)) || (decide (0x40000000 ≤ a) && decide (a < 0x50000000)))

/-- A register access by its effect `f`: a host access to a domain that is off has none, and sets BUS_DOMAIN_OFF (R359);
cores do not run while a domain that they could reach is off. -/
def State.gated (s : State) (i : Initiator) (a : Nat) (f : State → State) : State :=
  if s.domainOn a then f s
  else if s.power.furled then s
  else (s.answer 0).sticky 2 i.num a

/-! ### Plain register access by the access types (R6, R7, R8) -/

/-- A field written by its access type: the new register word, and whether a sealed field would change. -/
def fieldWrite (isSealed : Bool) (w : Nat × Bool) (v : Nat) (f : FieldRow) : Nat × Bool :=
  let old := bits w.1 f.lo f.width
  let new := bits v f.lo f.width
  match f.acc with
  | .rw => (putBits w.1 f.lo f.width new, w.2)
  | .rws => if isSealed then (w.1, w.2 || old != new) else (putBits w.1 f.lo f.width new, w.2)
  | .w1c => (putBits w.1 f.lo f.width (old - (old &&& new)), w.2)
  | .w1s => (putBits w.1 f.lo f.width (old ||| new), w.2)
  | .ro | .rc | .wo => w

/-- A write to a register by the access types of its fields (R6, R8). -/
def State.plainWrite (s : State) (i : Initiator) (a : Nat) (v : Word) : State :=
  match findRow a with
  | none => s
  | some r =>
    let w := r.fields.foldl (fun w f => fieldWrite s.rig.sealed w v.toNat f) ((s.reg a).toNat, false)
    let s := s.setReg a (BitVec.ofNat 32 w.1)
    if w.2 then s.sticky 1 i.num a else s

/-- What a register reads: its fields but for the write-only ones. -/
def State.plainValue (s : State) (a : Nat) : Word :=
  match findRow a with
  | none => 0
  | some r => BitVec.ofNat 32 (r.fields.foldl (fun v f =>
      if f.acc = .wo then v else putBits v f.lo f.width (bits (s.reg a).toNat f.lo f.width)) 0)

/-- The RC fields of a register returned to reset (R7). -/
def State.clearRc (s : State) (a : Nat) : State :=
  match findRow a with
  | none => s
  | some r => s.setReg a (BitVec.ofNat 32 (r.fields.foldl (fun v f =>
      if f.acc = .rc then putBits v f.lo f.width f.reset else v) (s.reg a).toNat))

/-- The command rows of one initiator's access: the outcome of a meaning that gives a next state. -/
abbrev Out := Host.Outcome State Fault Refusal

end Sys2Proof.Machine
end

