-- ==== Sys2Proof/Machine/Can.lean ====
section
/-! DEFINITION. The CAN controllers (R321 to R334). The table has no row for the start of a frame: a controller starts the buffer that
R323 selects at every end of a frame on the bus, and at a REQ when the bus, whose state a free value gives, is idle. -/

namespace Sys2Proof.Machine

/-- The controller behaves as with LISTEN set (R328, R333). -/
def State.canListen (s : State) (k : Nat) : Bool := s.flag (CN_CTL_LISTEN k) || decide (2 ≤ s.role)

/-- The controller takes part in the bus (R327, R334). -/
def State.canHear (s : State) (k : Nat) : Bool :=
  s.underWay && s.flag (CN_CTL_EN k) && (s.cn k).integ && decide (s.fld (CN_STAT_STATE k) < 2)

/-- The controller may send. -/
def State.canSend (s : State) (k : Nat) : Bool := s.canHear k && !(s.cn k).wait && !s.canListen k

/-- TXEV: a pulse on the net to which the rig routes it (R332). -/
def State.txEv (s : State) (k : Nat) : State :=
  let n := tabGet (fun _ => 0) s.rigging.routes (4 * k + 1)
  if n = 0 then s else s.pulseNet n 1

/-- A buffer's state. -/
def State.txState (s : State) (k b : Nat) : Nat := s.fld (CN_TX_STAT_STATE k b)

/-- A buffer that leaves PENDING or ACTIVE (R332). -/
def State.txLeave (s : State) (k b st : Nat) : State := (s.setFld (CN_TX_STAT_STATE k b) st).txEv k

/-- Whether a buffer competes at an opportunity (R323, R324). -/
def State.txEligible (s : State) (k b : Nat) : Bool :=
  s.txState k b == 1 && (!s.flag (CN_TX_CTRL_LAUNCHEN k b) || tabGet (fun _ => false) (s.cn k).early b)

/-- The arbitration field of a buffer's frame as a number: the lower one wins under ISO 11898-1. -/
def State.txKey (s : State) (k b : Nat) : Nat :=
  let id := s.fld (CN_TX_ID_ID k b)
  let rtr := if s.flag (CN_TX_CTRL_FDF k b) then 0 else s.fld (CN_TX_ID_RTR k b)
  if s.flag (CN_TX_ID_IDE k b) then id / 2 ^ 18 * 2 ^ 21 + 3 * 2 ^ 19 + id % 2 ^ 18 * 2 + rtr
  else id / 2 ^ 18 * 2 ^ 21 + rtr * 2 ^ 20

/-- The buffer that the next opportunity starts (R323). -/
def State.txPick (s : State) (k : Nat) : Option Nat :=
  let l := (List.range 3).filter (fun b => s.txEligible k b)
  match l with
  | [] => none
  | b :: bs => if s.flag (CN_CTL_TXORD k) then some b
               else some (bs.foldl (fun m c => if s.txKey k c < s.txKey k m then c else m) b)

/-- An arbitration opportunity (R323). -/
def State.canStart (s : State) (k : Nat) : State :=
  if s.canSend k && (s.cn k).active.isNone && !(s.cn k).busy then
    match s.txPick k with
    | none => s
    | some b => (s.setCn k { s.cn k with active := some b, abortAct := false }).setFld (CN_TX_STAT_STATE k b) 2
  else s

/-- Whether an attempt of buffer `b` was under way: it is ACTIVE, or it was the one to start at an opportunity of which the
controller has not told. -/
def State.txRan (s : State) (k b : Nat) : Bool :=
  (s.cn k).active == some b || ((s.cn k).active.isNone && s.canSend k && s.txPick k == some b)

/-- The counters as CN_STAT shows them, and the error state that follows from them (R327). -/
def State.canCount (s : State) (k tec rc : Nat) : State :=
  let s := s.setCn k { s.cn k with tec := tec, rec_ := rc }
  let s := (s.setFld (CN_STAT_TEC k) (min 255 tec)).setFld (CN_STAT_REC k) (min 255 rc)
  if 255 < tec then
    (if s.fld (CN_STAT_STATE k) < 2 then
      (s.setFld (CN_STAT_STATE k) 2).sticky 195 k (s.fld (CN_STAT_LASTERR k)) else s)
  else s.setFld (CN_STAT_STATE k) (if 128 ≤ tec ∨ 128 ≤ rc then 1 else 0)

/-- TEC after an errored attempt: 8 more; a passive controller without acknowledgement, and a stuff error, may leave it; a bit error in
an error or overload flag, and each 8 dominant bits after a flag, add 8 again: the bits on the bus decide, here a free value (R327,
ISO 11898-1). -/
def State.tecError (s : State) (k err : Nat) : Nat × State :=
  let t := (s.cn k).tec
  let d := s.draw 6
  let n := d.1.toNat / 2
  (if ((err = 3 ∧ s.fld (CN_STAT_STATE k) = 1) ∨ err = 1) ∧ d.1.toNat % 2 = 0 then t + 8 * n else t + 8 + 8 * n, d.2)

/-- The bus is free after a frame: the next opportunity. -/
def State.canIdle (s : State) (k : Nat) : State := (s.setCn k { s.cn k with busy := false }).canStart k

/-! ### Transmission (R323 to R328) -/

/-- REQ (R323, R324, R328, R333). -/
def execReq (i : Initiator) (k : Fin 4) (b : Fin 3) (s : State) : Out :=
  .next (s.gated i (CN_TX_CMD k.val b.val) (fun s =>
    if s.txState k.val b.val = 1 ∨ s.txState k.val b.val = 2 then s
    else if s.canListen k.val then s.setFld (CN_TX_STAT_STATE k.val b.val) 6
    else
      let ready := s.flag (CN_TX_CTRL_LAUNCHEN k.val b.val) && reached (s.fld (CN_TX_LAUNCH_T k.val b.val)) s.now
      let s := (s.setFld (CN_TX_STAT_STATE k.val b.val) 1).setFld (CN_TX_STAT_ERRS k.val b.val) 0
      let s := s.setCn k.val { s.cn k.val with early := tabSet (fun _ => false) (s.cn k.val).early b.val ready }
      let d := s.draw 1
      let s := d.2
      let idle := d.1 == 1 && !(s.cn k.val).busy && (s.cn k.val).active.isNone
      let s := if ready && !idle then s.incFld (CN_CNT_LATE k.val) else s
      if idle then s.canStart k.val else s))

/-- ABORT (R326). -/
def execAbort (i : Initiator) (k : Fin 4) (b : Fin 3) (s : State) : Out :=
  .next (s.gated i (CN_TX_CMD k.val b.val) (fun s =>
    if s.txState k.val b.val = 1 then s.txLeave k.val b.val 4
    else if s.txState k.val b.val = 2 then s.setCn k.val { s.cn k.val with abortAct := true }
    else s))

/-- CAN_LAUNCH (R324). -/
def execCanLaunch (k : Fin 4) (b : Fin 3) (busIdle : Bool) (s : State) : Out :=
  let c := s.cn k.val
  .next (if s.underWay && s.txState k.val b.val == 1 && s.flag (CN_TX_CTRL_LAUNCHEN k.val b.val) &&
      reached (s.fld (CN_TX_LAUNCH_T k.val b.val)) s.now && !tabGet (fun _ => false) c.early b.val then
    let s := s.setCn k.val { c with early := tabSet (fun _ => false) c.early b.val true }
    if busIdle && c.active.isNone then s.canIdle k.val else s.incFld (CN_CNT_LATE k.val)
  else s)

/-- The end of an attempt of a buffer that was under way (R325 to R327). -/
def State.txEnd (s : State) (k b : Nat) (ok : Bool) (err sof : Nat) : State :=
  let ab := (s.cn k).active == some b && (s.cn k).abortAct
  let s := s.setCn k { s.cn k with active := none, abortAct := false }
  if ok then
    (((s.setFld (CN_TX_TS_T k b) sof).txLeave k b 3).canCount k ((s.cn k).tec - 1) (s.cn k).rec_).canIdle k
  else
    let s := ((s.incFld (CN_TX_STAT_ERRS k b)).incFld (CN_CNT_TXERR k)).setFld (CN_STAT_LASTERR k) err
    let n := s.fld (CN_TX_CTRL_RLIM k b)
    let s := if ab then s.txLeave k b 4
      else if n ≠ 0 ∧ n ≤ s.fld (CN_TX_STAT_ERRS k b) then s.txLeave k b 5
      else s.setFld (CN_TX_STAT_STATE k b) 1
    let t := s.tecError k err
    (t.2.canCount k t.1 (s.cn k).rec_).canIdle k

/-- CAN_TX_END (R325, R326, R327). -/
def execCanTxEnd (k : Fin 4) (b : Fin 3) (ok : Bool) (err : Fin 8) (sof : Word) (s : State) : Out :=
  .next (if s.txRan k.val b.val then s.txEnd k.val b.val ok err.val sof.toNat else s)

/-- ARBITRATION_LOST (R325, R326): no attempt; the winner's frame is on the bus. -/
def execArbitrationLost (k : Fin 4) (b : Fin 3) (s : State) : Out :=
  let c := s.cn k.val
  .next (if s.txRan k.val b.val then
    let ab := c.active == some b.val && c.abortAct
    let s := s.setCn k.val { c with active := none, abortAct := false, busy := true }
    if ab then s.txLeave k.val b.val 4 else s.setFld (CN_TX_STAT_STATE k.val b.val) 1
  else s)

/-- RECOVER (R327). -/
def execRecover (i : Initiator) (k : Fin 4) (s : State) : Out :=
  .next (s.gated i (CN_CMD k.val) (fun s =>
    if s.fld (CN_STAT_STATE k.val) = 2 then s.setFld (CN_STAT_STATE k.val) 3 else s))

/-- RECOVERY_END (R327). -/
def execRecoveryEnd (k : Fin 4) (s : State) : Out :=
  .next (if s.underWay && s.flag (CN_CTL_EN k.val) && s.fld (CN_STAT_STATE k.val) == 3 then
    (((s.setFld (CN_STAT_STATE k.val) 0).canCount k.val 0 0).setCn k.val
      { s.cn k.val with tec := 0, rec_ := 0, integ := true, wait := false }).canIdle k.val
  else s)

/-- CAN_BUS_INTEGRATION (R333, R334). -/
def execCanBusIntegration (k : Fin 4) (s : State) : Out :=
  .next (if s.underWay && s.flag (CN_CTL_EN k.val) then
    (s.setCn k.val { s.cn k.val with integ := true, wait := false }).canIdle k.val else s)

/-- A write of CN_CTL: LISTEN only while EN is 0 (R328); an enabled controller has yet to integrate (R334). -/
def State.canCtl (s : State) (i : Initiator) (k : Nat) (v : Word) : State :=
  let was := s.flag (CN_CTL_EN k)
  let v' := if was then BitVec.ofNat 32 (putBits v.toNat 1 1 (s.fld (CN_CTL_LISTEN k))) else v
  let s := s.plainWrite i (CN_CTL k) v'
  if !was && s.flag (CN_CTL_EN k) then s.setCn k { s.cn k with integ := false } else s

/-- The buffers when the module leaves under way (R334). -/
def State.canLeave (s : State) : State :=
  (List.range 4).foldl (fun (t : State) k =>
    let t := (List.range 3).foldl (fun (t : State) b =>
      if t.txState k b = 1 ∨ t.txState k b = 2 then t.txLeave k b 4 else t) t
    t.setCn k { t.cn k with active := none, abortAct := false, integ := false, busy := false }) s

/-- The controllers on the return to under way (R334). -/
def State.canEnter (s : State) : State :=
  (List.range 4).foldl (fun (t : State) k =>
    let t := (t.setCn k { t.cn k with fifo := [], lock := none, integ := false, wait := false, tec := 0, rec_ := 0 })
    let t := ((t.setFld (CN_STAT_STATE k) 0).setFld (CN_STAT_TEC k) 0).setFld (CN_STAT_REC k) 0
    (t.setFld (CN_STAT_RXLOCK k) 0).setFld (CN_RXSTAT_COUNT k) 0) s

/-! ### Reception (R329 to R331) -/

/-- The data bytes of a frame by DLC, as ISO 11898-1 codes them. -/
def canLen (fdf rtr : Bool) (dlc : Nat) : Nat :=
  if rtr && !fdf then 0
  else if dlc ≤ 8 then dlc
  else if !fdf then 8
  else match dlc with
    | 9 => 12 | 10 => 16 | 11 => 20 | 12 => 24 | 13 => 32 | 14 => 48 | _ => 64

/-- The identifier in the form of R329: a standard one occupies bits 28:18. -/
def canId (f : CanFrame) : Nat := if f.ide then f.id.toNat else f.id.toNat / 2 ^ 18 * 2 ^ 18

/-- Whether filter `x` matches (R329). -/
def State.fltMatch (s : State) (k : Nat) (f : CanFrame) (x : Nat) : Bool :=
  s.flag (CN_FLT_ID_EN k x) &&
  ((canId f ^^^ s.fld (CN_FLT_ID_ID k x)) &&& s.fld (CN_FLT_MASK_MASK k x)) == 0 &&
  (!s.flag (CN_FLT_MASK_IDEM k x) || f.ide == s.flag (CN_FLT_ID_IDE k x))

/-- The words of a receive entry (R330). -/
def canEntry (f : CanFrame) (flt sof : Nat) : List Nat :=
  let len := canLen f.fdf f.rtr f.dlc.val
  let d := sliceB f.data 0 len
  [canId f + 2 ^ 29 * b2n f.ide + 2 ^ 30 * b2n f.rtr + 2 ^ 31,
   f.dlc.val + 16 * b2n f.fdf + 32 * b2n f.brs + 64 * b2n f.esi + 256 * flt + 65536 * len, sof] ++
  (List.range ((len + 3) / 4)).map (fun w => leAt d (4 * w) 4)

/-- The receive FIFO replaced, with its count and lock flag. -/
def State.setRx (s : State) (k : Nat) (l : List (List Nat)) (lock : Option (Initiator × Nat)) : State :=
  ((s.setCn k { s.cn k with fifo := l, lock := lock }).setFld (CN_RXSTAT_COUNT k) l.length).setFld (CN_STAT_RXLOCK k) (b2n lock.isSome)

/-- An accepted frame enters the FIFO or is discarded (R330, R331). -/
def State.rxPush (s : State) (k : Nat) (f : CanFrame) (flt sof : Nat) : State :=
  let c := s.cn k
  if c.fifo.length < 64 then s.setRx k (c.fifo ++ [canEntry f flt sof]) c.lock
  else (s.incFld (CN_CNT_RXOVF k)).sticky 196 k (canId f)

/-- REC after a frame received without error: 1 less, or a value of 119 to 127 from above 127 (R327, ISO 11898-1). -/
def State.recGood (s : State) (k : Nat) : Nat × State :=
  let r := (s.cn k).rec_
  if 127 < r then
    let d := s.draw 4
    (119 + d.1.toNat % 9, d.2)
  else (r - 1, s)

/-- CAN_FRAME_RX (R329 to R331). -/
def execCanFrameRx (k : Fin 4) (f : CanFrame) (sof : Word) (s : State) : Out :=
  .next (if s.canHear k.val && (s.cn k.val).active.isNone && (!f.fdf || s.flag (CN_CTL_FDEN k.val)) then
    let g := s.recGood k.val
    let s := g.2.canCount k.val (s.cn k.val).tec g.1
    let on := (List.range 16).any (fun x => s.flag (CN_FLT_ID_EN k.val x))
    let s := match (List.range 16).find? (fun x => s.fltMatch k.val f x) with
      | some x => s.rxPush k.val f x sof.toNat
      | none => if on then s else
        let d := s.draw 4
        d.2.rxPush k.val f d.1.toNat sof.toNat
    s.canIdle k.val
  else s)

/-- CAN_RECEIVE_ERROR (R327): REC rises by 1, and by 8 for each dominant bit that follows the error flag, bit error in a flag and run of
8 dominant bits after one (ISO 11898-1); a free value says how many there were. -/
def execCanReceiveError (k : Fin 4) (err : Fin 8) (s : State) : Out :=
  .next (if s.canHear k.val && (s.cn k.val).active.isNone then
    let s := (s.incFld (CN_CNT_RXERR k.val)).setFld (CN_STAT_LASTERR k.val) err.val
    let d := s.draw 5
    (d.2.canCount k.val (s.cn k.val).tec ((s.cn k.val).rec_ + 1 + 8 * d.1.toNat)).canIdle k.val
  else s)

/-- RXW_READ (R330). -/
def execRxwRead (i : Initiator) (k : Fin 4) (w : Fin 19) (s : State) : Out :=
  .next (s.gated i (CN_RXW k.val w.val) (fun s =>
    let c := s.cn k.val
    match c.lock, c.fifo with
    | none, e :: es =>
      if w.val = 0 then (s.setRx k.val (e :: es) (some (i, s.nowNs))).answer (BitVec.ofNat 32 (e.getD 0 0)) else s.answer 0
    | none, [] => s.answer 0
    | some l, e :: es =>
      if l.1 = i then
        let s := s.answer (BitVec.ofNat 32 (e.getD w.val 0))
        if w.val + 1 = e.length then s.setRx k.val es none else s
      else (s.setFld (CN_STAT_RXCONFL k.val) 1).answer 0
    | some _, [] => s.answer 0))

/-- RX_LOCK_TIMEOUT (R330). -/
def execRxLockTimeout (k : Fin 4) (s : State) : Out :=
  let c := s.cn k.val
  .next (match c.lock with
    | none => s
    | some l => if l.2 + 20000 ≤ s.nowNs then (s.setRx k.val c.fifo none).setFld (CN_STAT_RXLTO k.val) 1 else s)

/-- RXUNLOCK (R330). -/
def execRxunlock (i : Initiator) (k : Fin 4) (s : State) : Out :=
  .next (s.gated i (CN_CMD k.val) (fun s => s.setRx k.val (s.cn k.val).fifo none))

end Sys2Proof.Machine
end

