-- ==== Sys2Proof/Machine/Halyard.lean ====
section
/-! DEFINITION. The halyard: posts, delay list, wait objects, ready lists, dispatch, service and hardware events
(R244 to R262). -/

namespace Sys2Proof.Machine

/-- ITEM0 as delivered (the item table). -/
def Item.word0 (i : Item) : Nat :=
  i.flow + 256 * i.prio + 4096 * i.kind + 65536 * i.result + 2 ^ 20 * i.count + 2 ^ 28 * b2n i.reefed

/-- The outcome kept for an initiator's read of HAL_POST (R253). -/
def State.halOutcome (s : State) (i : Initiator) (v : Nat) : State := s.setIni i { s.inis i with halOut := v }

/-- The item that a software post makes (R253): PRIO from the write when PRIOSEL is 1, else the flow's. -/
def State.postItem (s : State) (i : Initiator) (v : Nat) (result : Nat) : Item :=
  let f := v % 256
  let prio := if v.testBit 11 then bits v 8 3 else s.fld (HAL_FLOW_CFG_PRIO f)
  ⟨f, prio, 0, result, 1, false, (s.inis i).parg0.toNat, (s.inis i).parg1.toNat, 0,
    rowRank 6 i.num, 0⟩

/-- A new entry of the delay list or of a wait queue, and the insertion counter advanced. -/
def State.newEnt (s : State) (tgt : Nat) (it : Item) : DelayEnt × State :=
  (⟨tgt, (s.nowNs : Int) + diff32 tgt s.now, s.hal.seq, it⟩, { s with hal := { s.hal with seq := s.hal.seq + 1 } })

/-- Entries put in ascending target, then in order of insertion (R247 row 2). -/
def insertEnt (e : DelayEnt) : List DelayEnt → List DelayEnt
  | [] => [e]
  | x :: xs => if e.abs < x.abs ∨ (e.abs = x.abs ∧ e.seq < x.seq) then e :: x :: xs else x :: insertEnt e xs

def sortEnts : List DelayEnt → List DelayEnt
  | [] => []
  | x :: xs => insertEnt x (sortEnts xs)

/-- A waiter put in behind those of higher or equal priority (R256). -/
def insertWaiter (e : DelayEnt) : List DelayEnt → List DelayEnt
  | [] => [e]
  | x :: xs => if e.item.prio < x.item.prio then e :: x :: xs else x :: insertWaiter e xs

/-- Whether a post needs a delay entry (R254, R256). -/
def State.needsDelay (s : State) (i : Initiator) (v mode : Nat) : Bool :=
  let r := reached (s.inis i).ptime.toNat s.now
  match mode with
  | 1 => !r
  | 2 => (s.wobj (bits v 16 8)).count == 0 && !r
  | _ => false

/-- Waits ended by time-out counted (HAL_CNT). -/
def State.countTimeouts (s : State) (n : Nat) : State := (List.range n).foldl (fun t _ => t.incFld HAL_CNT_TIMEOUTS) s

/-- An accepted post takes effect (R253, R254, R256). -/
def State.accept (s : State) (i : Initiator) (v mode : Nat) : State :=
  let tgt := (s.inis i).ptime.toNat
  let r := reached tgt s.now
  let w := bits v 16 8
  match mode with
  | 1 =>
    if r then (s.pushReady (s.postItem i v 1)).halOutcome i 9
    else
      let e := s.newEnt tgt (s.postItem i v 1)
      { e.2 with hal := { e.2.hal with delays := insertEnt e.1 e.2.hal.delays } }.halOutcome i 1
  | 2 =>
    let o := s.wobj w
    if 0 < o.count then ((s.setWobj w { o with count := o.count - 1 }).pushReady (s.postItem i v 2)).halOutcome i 1
    else if r then ((s.countTimeouts 1).pushReady (s.postItem i v 3)).halOutcome i 9
    else
      let e := s.newEnt tgt (s.postItem i v 3)
      (e.2.setWobj w { o with queue := insertWaiter e.1 o.queue }).halOutcome i 1
  | _ => (s.pushReady (s.postItem i v 0)).halOutcome i 1

/-- A write of HAL_POST with its mode (R253): NOT_RUNNING, BAD, FULL, DLYFULL, ACCEPTED in that order. -/
def State.post (s : State) (i : Initiator) (v mode : Nat) : State :=
  let f := v % 256
  if !s.flag HAL_CTL_RUN || !s.underWay then s.halOutcome i 5
  else if f == 0 || !s.flag (HAL_FLOW_CFG_USED f) || mode == 3 then s.halOutcome i 4
  else if decide (s.freeSlots ≤ s.fld HAL_CTL_HWRES) || s.atQuota f then (s.incFld HAL_CNT_FULL).halOutcome i 2
  else if s.needsDelay i v mode && decide (1024 ≤ s.delaysUsed) then (s.incFld HAL_CNT_DLYFULL).halOutcome i 3
  else s.accept i v mode

/-- Head waiters released while the count lasts (R257). -/
def releaseHeads (w : Nat) : Nat → State → State
  | 0, s => s
  | fuel + 1, s =>
    let o := s.wobj w
    match o.queue with
    | [] => s
    | e :: es =>
      if 0 < o.count then
        releaseHeads w fuel ((s.setWobj w ⟨o.count - 1, es⟩).pushReady { e.item with result := 2, rank := rowRank 1 0 })
      else s

/-- A signal of `n` on wait object `w` (R257). -/
def State.signal (s : State) (w n : Nat) : State :=
  let o := s.wobj w
  let c := o.count + (if n = 0 then 1 else n)
  let s := if 65535 < c then s.setFld HAL_STAT_WSAT 1 else s
  releaseHeads w o.queue.length (s.setWobj w { o with count := min c 65535 })

/-- The last tick boundary, in short time (R17). -/
def State.tickBoundary (s : State) : Nat := s.cycleStart 1000 % 2 ^ 32

/-- Entries whose items become ready with a TIME, in ascending target, then in order of insertion (R247 row 2). -/
def State.pushEnts (s : State) (t : Nat) (es : List DelayEnt) : State :=
  (sortEnts es).foldl (fun s e =>
    let i := { e.item with time := t, rank := rowRank 2 ((e.abs + 2 ^ 40).toNat * 2 ^ 64 + e.seq), tick := s.time.ct }
    { s with hal := { s.hal with ready := insertReady i s.hal.ready } }) s

/-- The delayed items whose target the last tick boundary reaches become ready with EXPIRED (R254, R255). -/
def State.expireDelays (s : State) : State :=
  let b := s.tickBoundary
  let due := s.hal.delays.filter (fun e => reached e.target b)
  let s' := { s with hal := { s.hal with delays := s.hal.delays.filter (fun e => !reached e.target b) } }
  s'.pushEnts b (due.map (fun e => { e with item := { e.item with result := 1 } }))

/-- The waits whose time-out the last tick boundary reaches end with TIMEOUT; counts are unchanged (R258). -/
def State.expireWaits (s : State) : State :=
  let b := s.tickBoundary
  let due := s.waiters.filter (fun e => reached e.target b)
  let s' := s.hal.waits.foldl (fun t o =>
    t.setWobj o.1 { o.2 with queue := o.2.queue.filter (fun e => !reached e.target b) }) s
  (s'.countTimeouts due.length).pushEnts b (due.map (fun e => { e with item := { e.item with result := 3 } }))

/-- On return to under way every delay and wait ends, with REEFED set (R260). -/
def State.endDelays (s : State) : State :=
  let ds := s.hal.delays.map (fun e => { e with item := { e.item with result := 1, reefed := true } })
  let ws := s.waiters.map (fun e => { e with item := { e.item with result := 3, reefed := true } })
  let s' := s.hal.waits.foldl (fun t o => t.setWobj o.1 { o.2 with queue := [] }) s
  let s' := { s' with hal := { s'.hal with delays := [] } }
  (s'.countTimeouts ws.length).pushEnts s.now (ds ++ ws)

/-! ### Dispatch (R248, R249) -/

/-- Whether an atomic flow has an item in service. -/
def State.flowBusy (s : State) (f : Nat) : Bool :=
  s.flag (HAL_FLOW_CFG_ATOMIC f) && s.inService.any (fun i => i.flow == f)

/-- Whether core `c` may take item `i` now. -/
def State.suits (s : State) (c : Nat) (i : Item) : Bool :=
  (s.fld (HAL_FLOW_CFG_CORES i.flow)).testBit c && !s.flowBusy i.flow

/-- The first suitable item in a list, and the list without it. -/
def takeFirst (p : Item → Bool) : List Item → Option (Item × List Item)
  | [] => none
  | x :: xs => if p x then some (x, xs) else (takeFirst p xs).map (fun r => (r.1, x :: r.2))

/-- The item that core `c` takes: by priority, then list order (R248). -/
def State.selectItem (s : State) (c : Nat) : Nat → Nat → Option (Item × List Item)
  | 0, _ => none
  | fuel + 1, p =>
    match takeFirst (fun i => i.prio == p && s.suits c i) s.hal.ready with
    | some r => some r
    | none => s.selectItem c fuel (p + 1)

/-- Delivery of an item to a core's registers (R249). -/
def State.deliver (s : State) (c : Nat) (i : Item) (rest : List Item) : State :=
  let s := { s with hal := { s.hal with ready := rest } }
  let s := s.setServ c (some ⟨i, false, false, s.nowNs⟩)
  let s := (s.setReg (HAL_C_ITEM0 c) (BitVec.ofNat 32 i.word0)).setReg (HAL_C_ARG0 c) (BitVec.ofNat 32 i.arg0)
  let s := (s.setReg (HAL_C_ARG1 c) (BitVec.ofNat 32 i.arg1)).setReg (HAL_C_TIME c) (BitVec.ofNat 32 i.time)
  s.setReg (HAL_C_ENTRY c) (s.reg (HAL_FLOW_ENTRY i.flow))

/-- Selection and delivery for core `c`, if it is idle and enabled (R248, R252). -/
def State.dispatchCore (s : State) (c : Nat) : State :=
  if (s.serv c).isSome || !s.flag (HAL_C_CTL_EN c) || s.hal.stopped || !s.flag HAL_CTL_RUN || !s.underWay then s
  else match s.selectItem c 8 0 with
    | some r => s.deliver c r.1 r.2
    | none => s

/-- The µs for which a core's item has been in service, saturating. -/
def State.svcTime (s : State) (x : Service) : Nat := min 65535 ((s.nowNs - x.since) / 1000)

/-- The service limit judged (R252): OVERRUN and HAL_OVERRUN once per item. -/
def State.judgeSvc (s : State) (c : Nat) : State :=
  match s.serv c with
  | none => s
  | some x =>
    let lim := s.fld (HAL_C_CTL_SVCLIM c)
    if lim ≠ 0 ∧ !x.overrun ∧ lim * 1000 ≤ s.nowNs - x.since then
      ((s.setServ c (some { x with overrun := true })).setFld (HAL_C_STAT_OVERRUN c) 1).sticky 67 c x.item.word0
    else s

/-- DONE written for core `c` (R249): the slot is freed, and held items take it first (R259). -/
def State.doneCore (s : State) (c : Nat) : State :=
  match s.serv c with
  | none => s.setFld (HAL_C_STAT_BADDONE c) 1
  | some x => ((s.setFld (HAL_C_STAT_SVC c) (s.svcTime x)).setServ c none).serveHeld

/-- A core's MEIP (R262). -/
def State.meip (s : State) (c : Nat) : Bool :=
  match s.serv c with
  | some x => !x.acked && s.flag (HAL_C_CTL_IE c)
  | none => false

/-- A read of HAL_Cc_ITEM0 (R249, R262). -/
def State.readItem0 (s : State) (c : Nat) : State :=
  match s.serv c with
  | none => s.answer 0
  | some x => (s.setServ c (some { x with acked := true })).answer (s.reg (HAL_C_ITEM0 c))

/-! ### The commands -/

/-- The mode of a post row: its own, unless the write spells the invalid mode 3 (R253). -/
def rowMode (v : Word) (m : Nat) : Nat := if bits v.toNat 12 2 = 3 then 3 else m

/-- POST_NOW (R253). -/
def execPostNow (i : Initiator) (v : Word) (s : State) : Out := .next (s.gated i HAL_POST fun s => s.post i v.toNat (rowMode v 0))
/-- POST_DELAY (R253, R254). -/
def execPostDelay (i : Initiator) (v : Word) (s : State) : Out := .next (s.gated i HAL_POST fun s => s.post i v.toNat (rowMode v 1))
/-- POST_WAIT (R253, R256). -/
def execPostWait (i : Initiator) (v : Word) (s : State) : Out := .next (s.gated i HAL_POST fun s => s.post i v.toNat (rowMode v 2))
/-- SIGNAL (R257). -/
def execSignal (i : Initiator) (v : Word) (s : State) : Out :=
  .next (s.gated i HAL_WSIG fun s => s.signal (v.toNat % 256) (bits v.toNat 8 16))
/-- DELAY_EXPIRY (R255). -/
def execDelayExpiry (s : State) : Out := .next (if s.underWay then s.expireDelays else s)
/-- WAIT_TIMEOUT (R258). -/
def execWaitTimeout (s : State) : Out := .next (if s.underWay then s.expireWaits else s)
/-- DELIVERY (R248, R249): cores in ascending order. -/
def execDelivery (s : State) : Out :=
  .next ((((s.dispatchCore 0).dispatchCore 1).dispatchCore 2).dispatchCore 3)
/-- ITEM_ACKNOWLEDGE (R262). -/
def execItemAcknowledge (i : Initiator) (c : Fin 4) (s : State) : Out :=
  .next (s.gated i (HAL_C_ITEM0 c) fun s => s.readItem0 c)
/-- SERVICE_OVERRUN (R252). -/
def execServiceOverrun (c : Fin 4) (s : State) : Out := .next (s.judgeSvc c)
/-- EVENT_POST (R247, R259). -/
def execEventPost (c : Fin 64) (ts : Word) (s : State) : Out :=
  .next (if s.underWay && s.flag (HAL_EV_CFG_EN c) && !s.flag (HAL_EV_CFG_MODE c) then
    s.hwPost (.ev c) (s.fld (HAL_EV_CFG_FLOW c)) (s.fld (HAL_EV_CFG_PRIO c)) 1 c ts.toNat else s)
/-- EVENT_SIGNAL (R257). -/
def execEventSignal (c : Fin 64) (s : State) : Out :=
  .next (if s.underWay && s.flag (HAL_EV_CFG_EN c) && s.flag (HAL_EV_CFG_MODE c) then
    s.signal (s.fld (HAL_EV_CFG_FLOW c)) 1 else s)
/-- HELD_ITEM_SLOT (R259). -/
def execHeldItemSlot (s : State) : Out := .next (if s.underWay then s.serveHeld else s)

end Sys2Proof.Machine
end

