-- ==== Sys2Proof/Machine/Canvas.lean ====
section
/-! DEFINITION. The canvas map: rasterisation, claims and tickets, waits, the engine step and its results (R123 to R148). -/

namespace Sys2Proof.Machine

/-! ### Geometry (R123, R124) -/

/-- The pitch p in µm of a PITCH code; 7 acts as 2 (R123). -/
def pitchUm (c : Nat) : Nat := [10000, 15000, 20000, 25000, 30000, 40000, 50000].getD c 20000

/-- The half-diagonal h in µm (R123, the table of pitch choices). -/
def halfDiag (c : Nat) : Nat := [8661, 12991, 17321, 21651, 25981, 34642, 43302].getD c 17321

/-- The voxel offset's indices (i, j, k) (R124). -/
def voxIdx (off : Nat) : Nat × Nat × Nat :=
  let b := off / 512
  let v := off % 512
  (b % 64 * 8 + v % 8, b / 64 % 64 * 8 + v / 8 % 8, b / 4096 * 8 + v / 64)

/-- The offset of voxel (i, j, k) (R124). -/
def voxOff (i j k : Nat) : Nat :=
  512 * (k / 8 * 4096 + j / 8 * 64 + i / 8) + (k % 8 * 64 + j % 8 * 8 + i % 8)

/-- The device address of a voxel byte (R124). -/
def voxAddr (off : Nat) : Nat := 0x04000000 + off

/-! ### Rasterisation (R130 to R132) -/

/-- A capsule: end points and radius in µm. -/
structure Capsule where
  a : Int × Int × Int
  b : Int × Int × Int
  r : Nat
  deriving DecidableEq, Repr

/-- Vector difference and dot product. -/
def vsub (x y : Int × Int × Int) : Int × Int × Int := (x.1 - y.1, x.2.1 - y.2.1, x.2.2 - y.2.2)
def vdot (x y : Int × Int × Int) : Int := x.1 * y.1 + x.2.1 * y.2.1 + x.2.2 * y.2.2

/-- The capsules of a list's words, eight words each. -/
def capsulesOf (ws : List Nat) (n : Nat) : List Capsule :=
  (List.range n).map (fun k =>
    let g := fun (i : Nat) => toS 32 (ws.getD (8 * k + i) 0)
    ⟨(g 0, g 1, g 2), (g 3, g 4, g 5), ws.getD (8 * k + 6) 0⟩)

/-- The brick numbers of a brick list's words, two to a word. -/
def bricksOf (ws : List Nat) (n : Nat) : List Nat :=
  (List.range n).map (fun k => (ws.getD (k / 2) 0) / (if k % 2 = 0 then 1 else 65536) % 65536)

/-- Whether a capsule covers the point `c`, with `rh` = r + h (R131). -/
def covers (q : Capsule) (rh : Int) (c : Int × Int × Int) : Bool :=
  let ab := vsub q.b q.a
  let ac := vsub c q.a
  let t := vdot ac ab
  let l2 := vdot ab ab
  if t ≤ 0 then decide (vdot ac ac ≤ rh * rh)
  else if l2 ≤ t then decide (vdot (vsub c q.b) (vsub c q.b) ≤ rh * rh)
  else decide (vdot ac ac * l2 - t * t ≤ rh * rh * l2)

/-- The centre of a voxel in µm. -/
def voxCentre (p off : Nat) : Int × Int × Int :=
  let v := voxIdx off
  let c := fun (i : Nat) => ((((2 * i + 1) * p / 2 : Nat)) : Int)
  (c v.1, c v.2.1, c v.2.2)

/-- The bricks on one axis, of `n`, that meet a closed interval: first, and how many. -/
def axisBricks (p n : Nat) (lo hi : Int) : Nat × Nat :=
  let e : Int := 8 * p
  let a := max 0 (lo / e)
  let b := min ((n : Int) - 1) (hi / e)
  if a ≤ b then (a.toNat, (b - a + 1).toNat) else (0, 0)

/-- A capsule's interval on an axis, grown by r + h. -/
def grown (x y : Int) (rh : Int) : Int × Int := (min x y - rh, max x y + rh)

/-- The candidate bricks of a capsule on the three axes (R132). -/
def capBox (c : Nat) (q : Capsule) : (Nat × Nat) × (Nat × Nat) × (Nat × Nat) :=
  let p := pitchUm c
  let rh : Int := q.r + halfDiag c
  let x := grown q.a.1 q.b.1 rh
  let y := grown q.a.2.1 q.b.2.1 rh
  let z := grown q.a.2.2 q.b.2.2 rh
  (axisBricks p 64 x.1 x.2, axisBricks p 64 y.1 y.2, axisBricks p 16 z.1 z.2)

/-- How many they are. -/
def capCount (c : Nat) (q : Capsule) : Nat := let b := capBox c q; b.1.2 * b.2.1.2 * b.2.2.2

/-- Whether the grown box extends beyond the map (R132). -/
def capClipped (c : Nat) (q : Capsule) : Bool :=
  let p := pitchUm c
  let rh : Int := q.r + halfDiag c
  let out := fun (x y : Int) (n : Nat) => let g := grown x y rh; decide (g.1 < 0 ∨ ((n * p : Nat) : Int) < g.2)
  out q.a.1 q.b.1 512 || out q.a.2.1 q.b.2.1 512 || out q.a.2.2 q.b.2.2 128

/-- The candidate bricks of a capsule, ascending. -/
def capBricks (c : Nat) (q : Capsule) : List Nat :=
  let b := capBox c q
  (List.range b.2.2.2).flatMap (fun z => (List.range b.2.1.2).flatMap (fun y => (List.range b.1.2).map (fun x =>
    (b.2.2.1 + z) * 4096 + (b.2.1.1 + y) * 64 + (b.1.1 + x))))

/-- A number put into a rising list once. -/
def insNat (x : Nat) : List Nat → List Nat
  | [] => [x]
  | y :: ys => if x < y then x :: y :: ys else if x = y then y :: ys else y :: insNat x ys

/-- The voxels of one brick that a list of capsules covers, ascending. -/
def brickVoxels (c : Nat) (qs : List Capsule) (b : Nat) : List Nat :=
  ((List.range 512).map (fun v => 512 * b + v)).filter (fun off =>
    qs.any (fun q => covers q (q.r + halfDiag c) (voxCentre (pitchUm c) off)))

/-- The set S of a shape list in ascending offset (R132). -/
def shapeSet (c kind n : Nat) (ws : List Nat) : List Nat :=
  if kind = 0 then
    let qs := capsulesOf ws n
    ((qs.flatMap (capBricks c)).foldr insNat []).flatMap (brickVoxels c qs)
  else ((bricksOf ws n).foldr insNat []).flatMap (fun b => (List.range 512).map (fun v => 512 * b + v))

/-- The candidate-brick count B (R132). -/
def shapeB (c kind n : Nat) (ws : List Nat) : Nat :=
  if kind = 0 then ((capsulesOf ws n).map (capCount c)).sum else n

/-- Bt: candidate bricks with a voxel of S, per capsule (R145). -/
def shapeBt (c kind n : Nat) (ws : List Nat) : Nat :=
  if kind = 0 then
    let qs := capsulesOf ws n
    (qs.map (fun q => ((capBricks c q).filter (fun b => !(brickVoxels c qs b).isEmpty)).length)).sum
  else n

/-- CLIPPED of a shape list (R132). -/
def shapeClipped (c kind n : Nat) (ws : List Nat) : Bool :=
  kind == 0 && (capsulesOf ws n).any (capClipped c)

/-- The words of a shape list. -/
def shapeWords (kind n : Nat) : Nat := if kind = 0 then 8 * n else (n + 1) / 2

/-- BAD_SHAPE: NSHAPE, reserved fields, RAD, B (R130). -/
def badShape (c kind n : Nat) (ws : List Nat) : Bool :=
  if kind = 0 then
    decide (n < 1 ∨ 16 < n) || (List.range n).any (fun k => ws.getD (8 * k + 7) 0 != 0 || decide (2000000 < ws.getD (8 * k + 6) 0)) ||
    decide (4096 < shapeB c kind n ws)
  else decide (n < 1 ∨ 128 < n)

/-! ### The map -/

/-- Whether a device address lies in the canvas SRAM. -/
def inMap (a : Nat) : Bool := decide (0x04000000 ≤ a) && decide (a < 0x06000000)

/-- The voxel byte at an offset. -/
def State.vox (s : State) (off : Nat) : Nat := (s.rdB (voxAddr off)).toNat

/-- A voxel byte replaced. -/
def State.setVox (s : State) (off v : Nat) : State := s.wrB (voxAddr off) (BitVec.ofNat 8 v)

def voxOwner (v : Nat) : Nat := v % 16
def voxHold (v : Nat) : Nat := bits v 4 3
def voxPinned (v : Nat) : Bool := v.testBit 7

/-- The PITCH code. -/
def State.cvPitch (s : State) : Nat := s.fld CV_CTL_PITCH

/-- The summary of a brick (R127): kind, owner, some voxel pinned, largest HOLD, voxels not free. -/
structure BrickSum where
  kind : Nat
  owner : Nat
  pinany : Bool
  holdmax : Nat
  used : Nat
  deriving DecidableEq, Repr

/-- A brick's summary, computed from its bytes. -/
def State.brickSum (s : State) (b : Nat) : BrickSum :=
  let vs := (List.range 512).map (fun v => s.vox (512 * b + v))
  let o := voxOwner (vs.getD 0 0)
  let empty := vs.all (fun v => v == 0)
  let uni := o != 0 && vs.all (fun v => voxOwner v == o)
  { kind := if empty then 0 else if uni then 1 else 2, owner := if uni then o else 0, pinany := vs.any voxPinned,
    holdmax := vs.foldl (fun m v => max m (voxHold v)) 0, used := (vs.filter (fun v => v != 0)).length }

/-- CV_BRICK_DATA for the selected brick. -/
def State.brickWord (s : State) : Nat :=
  let x := s.brickSum (s.fld CV_BRICK_SEL_BRICK)
  x.kind + 16 * x.owner + 256 * b2n x.pinany + 4096 * x.holdmax + 65536 * x.used

/-- The brick of a set that has an uncorrectable voxel which the engine reads: a brick that its summary decides is not read
(R127, R148). -/
def State.voxBad (s : State) (arm : Nat) (claim : Bool) (vs : List Nat) : Option Nat :=
  (s.eccBad.filter inMap).findSome? (fun w =>
    let b := (w - 0x04000000) / 512
    let u := s.brickSum b
    let decided := u.kind == 0 || (claim && u.kind == 1 && u.owner == arm + 1 && !u.pinany && decide (u.holdmax < 7))
    if !decided && vs.any (fun v => decide (w ≤ voxAddr v ∧ voxAddr v < w + 4)) then some b else none)

/-- A brick made keep-out until the next rig apply, CV_MAP_ECC set (R148). -/
def State.voxFault (s : State) (b : Nat) : State :=
  let s := { s with canvas := { s.canvas with faulted := insNat b s.canvas.faulted } }
  (s.wrBytes (voxAddr (512 * b)) (List.replicate 512 0x8A)).sticky 36 0 b

/-- Whether a voxel lies in a brick that an error made keep-out (R148). -/
def State.voxKept (s : State) (off : Nat) : Bool := s.canvas.faulted.contains (off / 512)

/-! ### Results (R144) -/

/-- What a result says. -/
structure CvRes where
  status : Nat
  clipped : Bool
  overlap : Bool
  ticket : Nat
  own : Nat
  cmask : Nat
  first : Nat
  nvox : Nat
  ownmask : Nat
  nother : Nat
  deriving DecidableEq, Repr

/-- A result with a status alone: the fields that do not apply read 0. -/
def cvRes (status : Nat) : CvRes := ⟨status, false, false, 0, 0, 0, 0, 0, 0, 0⟩

/-- A step in progress: the state, its clocks so far, what it did, the requests that ended in it, and the brick in which it read a
voxel with an uncorrectable error. -/
structure CvStep where
  s : State
  clocks : Nat
  freed : Bool
  granted : Bool
  changed : Bool
  ended : List (CvReq × CvRes)
  bad : Option Nat
  deriving DecidableEq, Repr

/-- A step before its first action. -/
def CvStep.start (s : State) (clocks : Nat) : CvStep := ⟨s, clocks, false, false, false, [], none⟩

/-- A request ended. -/
def CvStep.fin (t : CvStep) (r : CvReq) (x : CvRes) : CvStep :=
  { t with
    s := { t.s with canvas := { t.s.canvas with waiting := t.s.canvas.waiting.filter (fun w => w.acc != r.acc) } },
    ended := t.ended ++ [(r, x)] }

/-- The voxels of a request's own shape list. -/
def State.setOf (s : State) (r : CvReq) : List Nat := shapeSet s.cvPitch r.kind r.nshape r.shape

/-- The clocks of a pass over a request's shape (R145). -/
def State.passOf (s : State) (r : CvReq) : Nat :=
  shapeB s.cvPitch r.kind r.nshape r.shape + 16 * shapeBt s.cvPitch r.kind r.nshape r.shape

/-- A result about a request's set: NVOX and CLIPPED apply. -/
def State.resOf (s : State) (r : CvReq) (status : Nat) : CvRes :=
  { cvRes status with nvox := (s.setOf r).length, clipped := shapeClipped s.cvPitch r.kind r.nshape r.shape }

/-! ### Claims (R133, R134) -/

/-- What the visit of a claim's voxels finds. -/
inductive Visit where
  | stop (status off : Nat)
  | pass (mask first : Nat)
  deriving DecidableEq, Repr

/-- The visit in ascending offset (R133). -/
def visit (s : State) (arm : Nat) : List Nat → Nat → Nat → Visit
  | [], m, f => .pass m f
  | off :: rest, m, f =>
    let v := s.vox off
    let o := voxOwner v
    if o = 0 then visit s arm rest m f
    else if o = arm + 1 then
      if voxPinned v then visit s arm rest m f
      else if voxHold v = 7 then .stop 9 off
      else visit s arm rest m f
    else if voxPinned v then .stop 8 off
    else visit s arm rest (m ||| 2 ^ (o - 1)) (if m = 0 then off else f)

/-- Whether the visit stops at a voxel (R133). -/
def State.visitStops (s : State) (arm off : Nat) : Bool :=
  let v := s.vox off
  let o := voxOwner v
  o != 0 && ((o == arm + 1 && !voxPinned v && voxHold v == 7) || (o != arm + 1 && voxPinned v))

/-- The voxels that a visit reads: those up to the one at which it stops. -/
def upTo (stop : Nat → Bool) : List Nat → List Nat
  | [] => []
  | x :: xs => if stop x then [x] else x :: upTo stop xs

/-- The conflict mask and first conflicting voxel alone (R138, recomputation). -/
def maskOf (s : State) (arm : Nat) (vs : List Nat) : Nat × Nat :=
  vs.foldl (fun x off =>
    let v := s.vox off
    let o := voxOwner v
    if o = 0 ∨ o = arm + 1 ∨ voxPinned v then x else (x.1 ||| 2 ^ (o - 1), if x.1 = 0 then off else x.2)) (0, 0)

/-- The ticket that a grant allocates: the lowest free one above the last, wrapping (R134). -/
def State.allocTicket (s : State) : Option Nat :=
  let b := match s.canvas.last with | some t => t + 1 | none => 0
  ((List.range 1024).map (fun i => (b + i) % 1024)).find? (fun t => !s.flag (CV_TKT_STAT_LIVE t))

/-- The voxels of a granted claim taken: each unpinned one gains a HOLD; whether some HOLD rose above 1 (R133). -/
def takeVoxels (arm : Nat) (vs : List Nat) (s : State) : State × Bool :=
  vs.foldl (fun x off =>
    let v := x.1.vox off
    if voxPinned v then x
    else (x.1.setVox off (arm + 1 + 16 * (voxHold v + 1)), x.2 || decide (0 < voxHold v))) (s, false)

/-- A ticket recorded (R134). -/
def State.putTicket (s : State) (t arm kind nshape seq : Nat) (ws : List Nat) : State :=
  let s := s.setReg (CV_TKT_STAT t) (BitVec.ofNat 32 (1 + 2 * arm + 16 * kind + 32 * nshape + 65536 * seq))
  { s with canvas := { s.canvas with shapes := tabSet (fun _ => []) s.canvas.shapes t ws } }

/-- A ticket freed. -/
def State.dropTicket (s : State) (t : Nat) : State :=
  let s := s.setReg (CV_TKT_STAT t) 0
  { s with canvas := { s.canvas with shapes := tabSet (fun _ => []) s.canvas.shapes t [] } }

/-- A claim evaluated (R133): `new` for a request taken in by this step. -/
def CvStep.evaluate (t : CvStep) (r : CvReq) (new : Bool) : CvStep :=
  let s := t.s
  let vs := s.setOf r
  let t := { t with clocks := t.clocks + s.passOf r }
  match s.voxBad r.arm true (upTo (s.visitStops r.arm) vs) with
  | some b => { t with bad := some b }
  | none =>
    match visit s r.arm vs 0 0 with
    | .stop st off => t.fin r { s.resOf r st with first := off, own := voxOwner (s.vox off) }
    | .pass 0 _ =>
      match s.allocTicket with
      | none => t.fin r (s.resOf r 10)
      | some k =>
        let x := takeVoxels r.arm vs s
        let s' := x.1.putTicket k r.arm r.kind r.nshape r.seq r.shape
        let s' := { s' with canvas := { s'.canvas with last := some k } }
        { t with s := s', granted := true, changed := t.changed || vs.any (fun off => !voxPinned (s.vox off)) }.fin r
          { s.resOf r 1 with ticket := k, overlap := x.2 }
    | .pass mask first =>
      let res := fun (st : Nat) => { s.resOf r st with first := first, own := voxOwner (s.vox first), cmask := mask }
      let r' := { r with mask := mask, first := first }
      if !r.wait then t.fin r (res 5)
      else if new && reached r.tout s.now then t.fin r (res 6)
      else if new then { t with s := { s with canvas := { s.canvas with waiting := s.canvas.waiting ++ [r'] } } }
      else { t with s := { s with canvas := { s.canvas with waiting := s.canvas.waiting.map (fun w => if w.acc = r.acc then r' else w) } } }

/-! ### Release and the other operations (R139 to R143) -/

/-- Whether arm `a`'s adopted horizon names a ticket (R139). -/
def State.ticketInUse (s : State) (a t : Nat) : Bool :=
  let m := s.arm a
  (m.mode == .traj && (match m.hor with | some h => h.ticket == t | none => false)) ||
  (m.mode == .jstop && m.stopTkt == some t)

/-- A ticket's voxels released and the ticket freed (R139). -/
def CvStep.freeTicket (t : CvStep) (k : Nat) : CvStep :=
  let s := t.s
  let arm := s.fld (CV_TKT_STAT_ARM k)
  let kind := s.fld (CV_TKT_STAT_KIND k)
  let n := s.fld (CV_TKT_STAT_NSHAPE k)
  let ws := tabGet (fun _ => []) s.canvas.shapes k
  let vs := shapeSet s.cvPitch kind n ws
  let mine := vs.filter (fun off => let v := s.vox off; !voxPinned v && voxOwner v == arm + 1)
  let s' := mine.foldl (fun u off =>
    let h := voxHold (u.vox off)
    u.setVox off (if h ≤ 1 then 0 else arm + 1 + 16 * (h - 1))) s
  { t with
    s := s'.dropTicket k, clocks := t.clocks + shapeB s.cvPitch kind n ws + 16 * shapeBt s.cvPitch kind n ws,
    freed := t.freed || mine.any (fun off => decide (voxHold (s.vox off) ≤ 1)), changed := t.changed || !mine.isEmpty }

/-- The set of a live ticket. -/
def State.ticketSet (s : State) (k : Nat) : List Nat :=
  shapeSet s.cvPitch (s.fld (CV_TKT_STAT_KIND k)) (s.fld (CV_TKT_STAT_NSHAPE k)) (tabGet (fun _ => []) s.canvas.shapes k)

/-- RELEASE (R139). -/
def CvStep.opRelease (t : CvStep) (r : CvReq) : CvStep :=
  let s := t.s
  if !(s.flag (CV_TKT_STAT_LIVE r.ticket) && s.fld (CV_TKT_STAT_ARM r.ticket) == r.arm) then t.fin r { cvRes 11 with ticket := r.ticket }
  else if s.ticketInUse r.arm r.ticket then t.fin r { cvRes 12 with ticket := r.ticket }
  else
    let vs := s.ticketSet r.ticket
    match s.voxBad r.arm false vs with
    | some b => { t with bad := some b, clocks := (t.freeTicket r.ticket).clocks }
    | none => (t.freeTicket r.ticket).fin r { cvRes 2 with ticket := r.ticket, nvox := vs.length }

/-- The live tickets of an arm, ascending. -/
def State.ticketsOf (s : State) (a : Nat) : List Nat :=
  (List.range 1024).filter (fun t => s.flag (CV_TKT_STAT_LIVE t) && s.fld (CV_TKT_STAT_ARM t) == a)

/-- RELALL (R140). -/
def CvStep.opRelall (t : CvStep) (r : CvReq) : CvStep :=
  let ts := t.s.ticketsOf r.arm
  if ts.any (fun k => t.s.ticketInUse r.arm k) then t.fin r (cvRes 12)
  else
    match ts.findSome? (fun k => t.s.voxBad r.arm false (t.s.ticketSet k)) with
    | some b => { t with bad := some b, clocks := (ts.foldl (fun u k => u.freeTicket k) t).clocks }
    | none =>
      let t := ts.foldl (fun u k => u.freeTicket k) t
      let t := (t.s.canvas.waiting.filter (fun w => w.arm == r.arm)).foldl (fun u w => u.fin w (u.s.resOf w 14)) t
      t.fin r { cvRes 4 with nvox := ts.length }

/-- CANCEL (R141). -/
def CvStep.opCancel (t : CvStep) (r : CvReq) : CvStep :=
  match t.s.canvas.waiting.find? (fun w => w.addr == r.target && w.arm == r.arm) with
  | none => t.fin r (cvRes 17)
  | some w => (t.fin w (t.s.resOf w 14)).fin r (cvRes 4)

/-- PROBE (R142). -/
def CvStep.opProbe (t : CvStep) (r : CvReq) : CvStep :=
  let s := t.s
  let vs := s.setOf r
  let t := { t with clocks := t.clocks + s.passOf r }
  match s.voxBad r.arm false vs with
  | some b => { t with bad := some b }
  | none =>
    let owns := vs.map (fun off => voxOwner (s.vox off))
    let others := vs.filter (fun off => let o := voxOwner (s.vox off); o != 0 && o != r.arm + 1)
    let f := others.headD 0
    t.fin r { s.resOf r 3 with
      ownmask := owns.foldl (fun m o => m ||| 2 ^ o) 0, nother := others.length, first := f,
      own := if others.isEmpty then 0 else voxOwner (s.vox f) }

/-- SETSTATIC (R143). -/
def CvStep.opSetStatic (t : CvStep) (r : CvReq) : CvStep :=
  let s := t.s
  let vs := s.setOf r
  let t := { t with clocks := t.clocks + s.passOf r }
  match s.voxBad r.arm false vs with
  | some b => { t with bad := some b }
  | none =>
    let armed := vs.filter (fun off => let o := voxOwner (s.vox off); decide (1 ≤ o ∧ o ≤ 8))
    match armed with
    | f :: _ =>
      t.fin r { s.resOf r 5 with
        cmask := armed.foldl (fun m off => m ||| 2 ^ (voxOwner (s.vox off) - 1)) 0, first := f, own := voxOwner (s.vox f) }
    | [] =>
      let b := r.sowner + 128
      let vs := vs.filter (fun off => !s.voxKept off)
      let ch := vs.any (fun off => s.vox off != b)
      { t with s := vs.foldl (fun u off => u.setVox off b) s, freed := t.freed || ch, changed := t.changed || ch }.fin r (s.resOf r 4)

/-- CLRSTATIC (R143). -/
def CvStep.opClrStatic (t : CvStep) (r : CvReq) : CvStep :=
  let s := t.s
  let vs := s.setOf r
  let t := { t with clocks := t.clocks + s.passOf r }
  match s.voxBad r.arm false vs with
  | some b => { t with bad := some b }
  | none =>
    let own := vs.filter (fun off => voxOwner (s.vox off) == r.sowner && !s.voxKept off)
    { t with
      s := own.foldl (fun u off => u.setVox off 0) s, freed := t.freed || !own.isEmpty,
      changed := t.changed || !own.isEmpty }.fin r (s.resOf r 4)

/-! ### Waiters and cycles (R135, R137) -/

/-- A waiter put before the first that follows it: PRIO, then acceptance (R135). -/
def insWaiter (r : CvReq) : List CvReq → List CvReq
  | [] => [r]
  | x :: xs => if r.prio < x.prio ∨ (r.prio = x.prio ∧ r.acc < x.acc) then r :: x :: xs else x :: insWaiter r xs

/-- Every waiting claim evaluated in order, each against the map left by those before (R135). -/
def CvStep.reevaluate (t : CvStep) : CvStep :=
  (t.s.canvas.waiting.foldr insWaiter []).foldl (fun u r => u.evaluate r false) t

/-- The masks of the claims that still wait, against the final map (R138). -/
def CvStep.recompute (t : CvStep) : CvStep :=
  let s := t.s
  let bad := s.canvas.waiting.findSome? (fun w => s.voxBad w.arm true (s.setOf w))
  let t := { t with bad := match t.bad with | some b => some b | none => bad }
  let ws := s.canvas.waiting.map (fun w => let m := maskOf s w.arm (s.setOf w); { w with mask := m.1, first := m.2 })
  { t with s := { s with canvas := { s.canvas with waiting := ws } }, clocks := t.clocks + (ws.map (fun w => s.passOf w)).sum }

/-- The arms that arm `a` waits for (R137). -/
def waitsFor (ws : List CvReq) (a : Nat) : Nat := (ws.filter (fun w => w.arm == a)).foldl (fun m w => m ||| w.mask) 0

/-- The arms reached from a set of arms. -/
def reachArms (ws : List CvReq) : Nat → Nat → Nat
  | 0, m => m
  | fuel + 1, m => reachArms ws fuel ((List.range 8).foldl (fun x a => if m.testBit a then x ||| waitsFor ws a else x) m)

/-- Whether a claim's edge lies on a cycle of arms. -/
def onCycle (ws : List CvReq) (w : CvReq) : Bool :=
  (List.range 8).any (fun b => w.mask.testBit b && (reachArms ws 8 (2 ^ b)).testBit w.arm)

/-- The claim that ends with YIELD: highest PRIO value, ties to the latest accepted (R137). -/
def yieldPick (ws : List CvReq) : Option CvReq :=
  (ws.filter (onCycle ws)).foldl (fun b w => match b with
    | none => some w
    | some x => if x.prio < w.prio ∨ (x.prio = w.prio ∧ x.acc < w.acc) then some w else some x) none

/-- A waiter's result from its last evaluation. -/
def State.waitRes (s : State) (w : CvReq) (status : Nat) : CvRes :=
  { s.resOf w status with first := w.first, own := voxOwner (s.vox w.first), cmask := w.mask }

/-- Wait-for cycles resolved (R137). -/
def CvStep.resolve : Nat → CvStep → CvStep
  | 0, t => t
  | fuel + 1, t =>
    match yieldPick t.s.canvas.waiting with
    | none => t
    | some y => CvStep.resolve fuel (t.fin y (t.s.waitRes y 7))

/-! ### The step (R138, R144, R145) -/

/-- A result's words 0x24 to 0x3C and word 0x20, the latter written last (R144); notification, MSI-X, counters. -/
def State.putResult (s : State) (tend : Nat) (e : CvReq × CvRes) : State :=
  let r := e.1
  let x := e.2
  let s := s.wrBytes (r.addr + 0x24)
    ([r.seq, x.first, x.nvox, r.tacc, tend % 2 ^ 32, x.ownmask, x.nother].flatMap (leBytes 4))
  let s := s.wr32 (r.addr + 0x20) (x.status + 32 * b2n x.clipped + 64 * b2n x.overlap + 256 * x.ticket + 2 ^ 20 * x.own + 2 ^ 24 * x.cmask)
  let s := match x.status with
    | 5 | 8 => s.incFld CV_CNT_CONFLICTS
    | 6 => s.incFld CV_CNT_TIMEOUTS
    | 7 => s.incFld CV_CNT_YIELDS
    | _ => s
  let s := s.hwPost (.canvas r.acc) r.flow r.hprio 5 r.addr (r.seq + 65536 * x.status)
  if s.flag CV_CTL_IRQ then s.cause 2 else s

/-- The intake of a request: the rest of its descriptor and its shape list (R129). -/
def State.cvIntake (s : State) (h : CvHead) : CvReq :=
  let addr := h.addr
  let w := fun (k : Nat) => s.rd32 (addr + 4 * k)
  let a := w 0
  let d := w 3
  let kind := bits a 11 1
  let n := bits a 12 8
  let at_ := w 2
  { addr := addr, op := a % 8, arm := bits a 4 3, wait := a.testBit 7, prio := bits a 8 3, kind := kind, nshape := n,
    sowner := bits a 20 4, tout := w 1, shapeAt := at_, ticket := d % 1024, flow := bits d 16 8, hprio := bits d 24 3, target := w 4,
    seq := w 5 % 65536, rsv := bits d 10 6 != 0 || bits d 27 5 != 0 || bits (w 5) 16 16 != 0 || w 6 != 0 || w 7 != 0, tacc := h.tacc,
    acc := h.acc, shape := (List.range (shapeWords kind n)).map (fun k => s.rd32 (at_ + 4 * k)), mask := 0, first := 0 }

/-- Action 1 of a step: the request's own operation, after the tests of its intake (R129, R130, R371). -/
def CvStep.act (t : CvStep) (r : CvReq) : CvStep :=
  let s := t.s
  let shaped := r.op == 1 || r.op == 5 || r.op == 6 || r.op == 7
  let bytes := if shaped then 4 * r.shape.length else 0
  let t := { t with clocks := t.clocks + 40 + ceilDiv bytes 8 }
  let ecc := match s.eccHit r.addr 32 with
    | some a => some a
    | none => if shaped then s.eccHit r.shapeAt bytes else none
  match ecc with
  | some a => { t with s := s.eccNote a }.fin r (cvRes 13)
  | none =>
    if r.rsv then t.fin r (cvRes 18)
    else if shaped && badShape s.cvPitch r.kind r.nshape r.shape then t.fin r (cvRes 13)
    else match r.op with
      | 1 => t.evaluate r true
      | 2 => t.opRelease r
      | 3 => t.opRelall r
      | 4 => t.opCancel r
      | 5 => t.opProbe r
      | 6 => t.opSetStatic r
      | _ => t.opClrStatic r

/-- A request's MAP_FAULT result (R148). -/
def State.faultRes (s : State) (r : CvReq) : CvRes :=
  if r.op = 2 then { cvRes 16 with ticket := r.ticket } else if r.op = 3 then cvRes 16 else s.resOf r 16

/-- The actions of a step (R138). A voxel with an uncorrectable error ends its request with MAP_FAULT in their place: nothing that
the step did stays, the brick becomes keep-out, and the waiting claims are re-evaluated (R148). -/
def cvActions (r : CvReq) : Nat → Bool → Nat → State → CvStep
  | fuel, faulted, clocks, s =>
    let t := if faulted then { CvStep.start s clocks with freed := true, changed := true }.fin r (s.faultRes r)
      else (CvStep.start s clocks).act r
    let t := if t.freed then t.reevaluate else t
    let t := if t.granted then t.recompute else t
    match t.bad, fuel with
    | some b, fuel + 1 => cvActions r fuel true t.clocks (s.voxFault b)
    | _, _ => CvStep.resolve t.s.canvas.waiting.length t

/-- The step of the request at the head of the queue, taken off it. -/
def State.cvHeadStep (s : State) (h : CvHead) : CvStep :=
  let s := { s with canvas := { s.canvas with queue := s.canvas.queue.drop 1, busy := none } }
  cvActions (s.cvIntake h) (s.eccBad.filter inMap).length false 0 s

/-! ### Records for the partner (R147, R230) -/

/-- The voxels that differ between two states of the map: offset and new byte. -/
def voxDiff (s t : State) : List (Nat × Byte) :=
  ((t.mem.filter (fun e => inMap e.1 && !s.mem.contains e)).map (fun e => (e.1 - 0x04000000, e.2))) ++
  ((s.mem.filter (fun e => inMap e.1 && !(t.mem.any (fun x => x.1 == e.1)))).map (fun e => (e.1 - 0x04000000, 0)))

/-- A live ticket as the stay link carries it (R134). -/
def State.ticketRec (s : State) (k : Nat) : TicketRec where
  ticket := k
  arm := Fin.ofNat 8 (s.fld (CV_TKT_STAT_ARM k))
  bricks := s.fld (CV_TKT_STAT_KIND k) == 1
  nshape := s.fld (CV_TKT_STAT_NSHAPE k)
  shape := (tabGet (fun _ => []) s.canvas.shapes k).map (BitVec.ofNat 32)
  seq := BitVec.ofNat 16 (s.fld (CV_TKT_STAT_SEQ k))

/-- The tickets whose status differs between two states. -/
def ticketDiff (s t : State) : List Nat := (List.range 1024).filter (fun k => t.reg (CV_TKT_STAT k) != s.reg (CV_TKT_STAT k))

/-- The outcome of a step: changed voxels, tickets granted and freed (R230). -/
def canvasRec (s t : State) : CanvasRec where
  voxels := voxDiff s t
  grants := ((ticketDiff s t).filter (fun k => t.flag (CV_TKT_STAT_LIVE k))).map t.ticketRec
  frees := (ticketDiff s t).filter (fun k => !t.flag (CV_TKT_STAT_LIVE k))

/-- The ACTIVE module sends the outcome of a step that changed the map or the tickets (R147, R230). -/
def State.noteCv (t s : State) : State :=
  if s.role ≠ 1 then t else
  let r := canvasRec s t
  if r.voxels.isEmpty && r.grants.isEmpty && r.frees.isEmpty then t
  else { t with pair := { t.pair with recsSent := t.pair.recsSent + 1, cvSent := some r } }

/-! ### The step in time (R138, R145) -/

/-- A step's end: CV_GEN, CV_MAXSTEP, the record for the partner, and the results, complete no more than 200 ns after the end of the
step, which lies `after` ns after the present (R138, R144, R145). -/
def State.cvApply (s : State) (t : CvStep) (len after : Nat) : State :=
  let u := if t.changed then t.s.setReg CV_GEN (t.s.reg CV_GEN + 1) else t.s
  let u := (u.maxFld CV_MAXSTEP_MAXSTEP len).noteCv s
  let e := u.draw 32
  t.ended.foldl (fun v x => v.putResult (e.2.now + after + e.1.toNat % 201) x) e.2

/-- The step in hand ends `after` ns after the present. -/
def State.cvFinish (s : State) (after : Nat) : State :=
  match s.canvas.busy, s.canvas.queue with
  | some b, h :: _ => s.cvApply (s.cvHeadStep h) b.len after
  | _, _ => s

/-- The engine takes up the request at the head of the queue: it starts no more than 100 ns (40 ticks) later and runs no longer than
R145's sum; both are open within that. -/
def State.cvBegin (s : State) : State :=
  match s.canvas.queue with
  | [] => s
  | h :: _ =>
    let d := s.draw 32
    let e := d.2.draw 32
    let len := e.1.toNat % ((s.cvHeadStep h).clocks + 21)
    { e.2 with canvas := { e.2.canvas with busy := some ⟨d.1.toNat % 41, max 1 (ceilDiv len 2), len⟩ } }

/-- One tick of the engine. -/
def State.cvTick (s : State) : State :=
  if !s.underWay then s else
  match s.canvas.busy with
  | none => s.cvBegin
  | some b =>
    if 0 < b.wait then { s with canvas := { s.canvas with busy := some { b with wait := b.wait - 1 } } }
    else if b.left ≤ 1 then s.cvFinish 0
    else { s with canvas := { s.canvas with busy := some { b with left := b.left - 1 } } }

/-- The queued requests carried out whole, in queue order, each when the one before it has ended (`after` ns from the present). -/
def cvDrain : Nat → Nat → State → State
  | 0, _, s => s
  | fuel + 1, after, s =>
    let s := match s.canvas.busy with | some _ => s | none => s.cvBegin
    match s.canvas.busy with
    | none => s
    | some b =>
      let after := after + ceilDiv (5 * (b.wait + b.left)) 2
      cvDrain fuel after (s.cvFinish after)

/-! ### Acceptance (R128) -/

/-- The outcome of a write to CV_REQ, in the order of R128. -/
def State.cvOutcome (s : State) (addr : Nat) : Nat :=
  let w := s.rd32 addr
  let op := w % 8
  if !s.flag CV_CTL_RUN || !s.underWay then 6
  else if s.refuses then 5
  else if addr % 64 ≠ 0 ∨ op = 0 ∨ w.testBit 3 ∨ bits w 24 8 ≠ 0 ∨
      ((op = 6 ∨ op = 7) ∧ bits w 20 4 ≠ 9 ∧ bits w 20 4 ≠ 10) then 4
  else if s.canvas.queue.any (fun r => r.addr == addr) || s.canvas.waiting.any (fun r => r.addr == addr) then 3
  else if 64 ≤ s.canvas.queue.length + s.canvas.waiting.length then 2
  else 1

/-- A request put into the queue. -/
def State.cvEnqueue (s : State) (addr : Nat) : State :=
  { s with canvas := { s.canvas with queue := s.canvas.queue ++ [⟨addr, s.canvas.acc, s.now⟩], acc := s.canvas.acc + 1 } }

/-- A write to CV_REQ: the request is accepted into the queue, or refused (R128). -/
def State.cvAccept (s : State) (i : Initiator) (addr : Nat) : State :=
  let o := s.cvOutcome addr
  let s := s.setIni i { s.inis i with cvOut := o }
  if o = 2 then s.incFld CV_CNT_FULL else if o = 1 then s.cvEnqueue addr else s

/-- A request as a whole: its write to CV_REQ and, where it is accepted, the steps up to its own. -/
def State.cvReq (s : State) (i : Initiator) (addr : Nat) : State :=
  let t := s.cvAccept i addr
  if s.cvOutcome addr = 1 then cvDrain t.canvas.queue.length 0 t else t

/-- The step in progress carried to its end; one that has not started stays queued. -/
def State.cvSettle (s : State) : State :=
  match s.canvas.busy with
  | some b => if b.wait = 0 then s.cvFinish (ceilDiv (5 * b.left) 2) else { s with canvas := { s.canvas with busy := none } }
  | none => s

/-- The claims whose time-out the last tick boundary reaches end with TIMEOUT, after the step in progress (R136). -/
def State.cvTimeouts (s : State) : State :=
  let s := s.cvSettle
  let b := s.tickBoundary
  let due := s.canvas.waiting.filter (fun w => reached w.tout b)
  if due.isEmpty then s else
  let t := due.foldl (fun u w => u.fin w (u.s.waitRes w 6)) (CvStep.start s 0)
  let e := t.s.draw 32
  t.ended.foldl (fun u x => u.putResult (e.2.now + e.1.toNat % 201) x) e.2

/-- A step in progress runs to its end; every waiting claim and queued request then ends ABORTED (R146). -/
def State.cvAbort (s : State) : State :=
  let s := s.cvSettle
  let rs := s.canvas.waiting ++ s.canvas.queue.map s.cvIntake
  if rs.isEmpty then s else
  let s := { s with canvas := { s.canvas with queue := [], busy := none } }
  let t := rs.foldl (fun u w => u.fin w (cvRes 15)) (CvStep.start s 0)
  let e := t.s.draw 32
  t.ended.foldl (fun u x => u.putResult e.1.toNat x) e.2

/-! ### Static contents and the rebuilding at rig apply -/

/-- One static shape entered: owner byte, kind, NSHAPE, words. -/
def State.cvStatic (s : State) (owner kind n : Nat) (ws : List Nat) : State :=
  (shapeSet s.cvPitch kind n ws).foldl (fun u off => u.setVox off ((if owner < 8 then owner + 1 else owner) + 128)) s

/-- The map emptied, tickets freed, the allocation at its start (Static contents, R134). -/
def State.cvClear (s : State) : State :=
  let s := (List.range 1024).foldl (fun u t => u.setReg (CV_TKT_STAT t) 0) s
  { s with
    mem := s.mem.filter (fun e => !inMap e.1),
    eccBad := s.eccBad.filter (fun w => !inMap w),
    canvas := { s.canvas with queue := [], busy := none, shapes := [], last := none, faulted := [] } }.setReg CV_GEN 0

/-! ### What the registers read -/

/-- Whether a step runs (R126). -/
def State.cvRuns (s : State) : Bool := s.canvas.busy.any (fun b => b.wait == 0)

/-- The voxel bytes that a read sees while a step runs: each before or after the step, which is open (R126). -/
def voxRead (after : State) : List Nat → State → List Byte × State
  | [], s => ([], s)
  | a :: as, s =>
    let d := s.draw 1
    let s' := if s.rdB a = after.rdB a then s else d.2
    let r := voxRead after as s'
    ((if s.rdB a = after.rdB a || d.1 = 0 then s.rdB a else after.rdB a) :: r.1, r.2)

/-- `n` bytes of the canvas SRAM as a host or core reads them (R126). -/
def State.mapBytes (s : State) (a n : Nat) : List Byte × State :=
  match s.cvRuns, s.canvas.queue with
  | true, h :: _ => voxRead (s.cvHeadStep h).s ((List.range n).map (fun i => a + i)) s
  | _, _ => (s.rdBytes a n, s)

/-- CV_STAT (R126, R128). -/
def State.cvStat (s : State) : Nat :=
  s.canvas.queue.length + s.canvas.waiting.length + 256 * s.canvas.waiting.length + 2 ^ 31 * b2n s.cvRuns +
  65536 * ((List.range 1024).filter (fun t => s.flag (CV_TKT_STAT_LIVE t))).length

/-- CV_ARMn_STAT. -/
def State.cvArmStat (s : State) (n : Nat) : Nat :=
  (s.ticketsOf n).length + 65536 * (s.canvas.waiting.filter (fun w => w.arm == n)).length

/-! ### The commands: a write of a request's descriptor address to CV_REQ -/

/-- CLAIM (R133). -/
def execClaim (i : Initiator) (d : Word) (s : State) : Out := .next (s.gated i CV_REQ fun s => s.cvReq i d.toNat)
/-- RELEASE (R139). -/
def execRelease (i : Initiator) (d : Word) (s : State) : Out := .next (s.gated i CV_REQ fun s => s.cvReq i d.toNat)
/-- RELALL (R140). -/
def execRelall (i : Initiator) (d : Word) (s : State) : Out := .next (s.gated i CV_REQ fun s => s.cvReq i d.toNat)
/-- CANCEL (R141). -/
def execCancel (i : Initiator) (d : Word) (s : State) : Out := .next (s.gated i CV_REQ fun s => s.cvReq i d.toNat)
/-- PROBE (R142). -/
def execProbe (i : Initiator) (d : Word) (s : State) : Out := .next (s.gated i CV_REQ fun s => s.cvReq i d.toNat)
/-- SETSTATIC (R143). -/
def execSetstatic (i : Initiator) (d : Word) (s : State) : Out := .next (s.gated i CV_REQ fun s => s.cvReq i d.toNat)
/-- CLRSTATIC (R143). -/
def execClrstatic (i : Initiator) (d : Word) (s : State) : Out := .next (s.gated i CV_REQ fun s => s.cvReq i d.toNat)
/-- CLAIM_TIMEOUT (R136). -/
def execClaimTimeout (s : State) : Out := .next (if s.underWay then s.cvTimeouts else s)

end Sys2Proof.Machine
end

