-- ==== Sys2Proof/Machine/Field.lean ====
section
/-! DEFINITION. Field inputs, the event FIFO, the outputs and the field supply (R305 to R320). -/

namespace Sys2Proof.Machine

/-- Whether the field part that runs under way and reefed is on (R310, R386). -/
def State.fieldOn (s : State) : Bool := s.domainOn FI_CTL

/-! ### Inputs (R306 to R310) -/

/-- One sample of the counter filter of input `i` at a halyard tick boundary; what it declares follows (State.fiTick). -/
def State.fiSample (s : State) (i : Nat) : State :=
  let x := s.fin i
  if s.fld (FI_DI_CFG_LIM i) = 0 then s.setFin i { x with cnt := 0 }
  else if s.rawLevel i = (s.fld FI_DIN_V).testBit i then s.setFin i { x with cnt := x.cnt - 1 }
  else s.setFin i { x with cnt := min 65535 (x.cnt + 1) }

/-- Whether a change of input `i` is to be declared: the count has reached LIM, or the filter is bypassed and the levels
differ. -/
def State.fiDue (s : State) (i : Nat) : Bool :=
  let lim := s.fld (FI_DI_CFG_LIM i)
  s.fieldOn && (if lim = 0 then s.rawLevel i != (s.fld FI_DIN_V).testBit i else decide (lim ≤ (s.fin i).cnt))

/-- The event FIFO replaced, and COSCNT with it. -/
def State.setCos (s : State) (l : List CosEnt) : State :=
  { s with field := { s.field with cos := l } }.setFld FI_STAT_COSCNT l.length

/-- A change-of-state event (R308, R309). -/
def State.cosEvent (s : State) (i : Nat) (level : Bool) (ts : Word) : State :=
  let x := s.fin i
  if s.field.cos.length < 128 then s.setCos (s.field.cos ++ [⟨i, level, 0, ts⟩])
  else match x.pend with
    | none => s.setFin i { x with pend := some (level, ts), merged := 0 }
    | some _ => s.setFin i { x with merged := min 255 (x.merged + 1) }

/-- The lowest-numbered pending input enters when an entry has freed (R309). -/
def State.cosAdmit (s : State) : State :=
  match (List.range 32).find? (fun i => (s.fin i).pend.isSome) with
  | none => s
  | some i =>
    let x := s.fin i
    let ts := match x.pend with | some p => p.2 | none => 0
    ((s.setFin i { x with pend := none, merged := 0 }).setCos
      (s.field.cos ++ [⟨i, (s.fld FI_DIN_V).testBit i, x.merged, ts⟩])).setFld FI_STAT_COSOVF 1

/-- The declaration of a change of input `i`: filtered level, count, timestamp, event (R306 to R308). -/
def State.declareChange (s : State) (i : Nat) : State :=
  let lvl := s.rawLevel i
  let x := s.fin i
  let ts := if lvl then x.rise else x.fall
  let s := (s.setFld ⟨FI_DIN, i, 1⟩ (b2n lvl)).setFin i { x with cnt := 0 }
  let s := s.setReg (FI_DI_TS i) ts
  if (s.fld FI_COSEN_V).testBit i then s.cosEvent i lvl ts else s

/-- Each filter as it starts after a wake from furled: the filtered level is the raw level, nothing is declared (R310). -/
def State.fiStart (s : State) : State :=
  let s := (s.setReg FI_DIN (BitVec.ofNat 32
    ((List.range 32).foldl (fun v i => v + b2n (s.rawLevel i) * 2 ^ i) 0))).setCos []
  { s with field := { s.field with ins := [], cosRead := false } }

/-- The words of the head entry (R308). -/
def CosEnt.word (e : CosEnt) : Word := BitVec.ofNat 32 (e.input + 256 * b2n e.level + 65536 * e.merged + 2 ^ 31)

/-- RAW_EDGE (R307). Watched only where the field inputs run; the terminal's level is followed always. -/
def execRawEdge (k : Fin 32) (level : Bool) (ts : Stamp) (s : State) : Out :=
  let s := { s with field := { s.field with pins := putBits s.field.pins k.val 1 (b2n level) } }
  let x := s.fin k.val
  let ts := s.stampOn (90 + k.val) ts
  .next (if s.fieldOn then
    s.setFin k.val (if s.rawLevel k.val then { x with rise := ts.ns } else { x with fall := ts.ns }) else s)

/-- COS0_READ (R308). -/
def execCos0Read (i : Initiator) (s : State) : Out :=
  .next (s.gated i FI_COS0 (fun s =>
    match s.field.cos with
    | [] => s.answer 0
    | e :: _ => { s with field := { s.field with cosRead := true } }.answer e.word))

/-- COS1_READ (R308, R309). -/
def execCos1Read (i : Initiator) (s : State) : Out :=
  .next (s.gated i FI_COS1 (fun s =>
    match s.field.cosRead, s.field.cos with
    | true, e :: es => (({ s with field := { s.field with cosRead := false } }.setCos es).cosAdmit).answer e.ts
    | _, _ => s.answer 0))

/-! ### Outputs (R311 to R316) -/

/-- The commanded state of output `j` (R311). -/
def State.doCmd (s : State) (j : Nat) : Bool :=
  if s.flag (FI_DO_CFG_SRC j) then s.netLevel 4 (s.fld (FI_DO_CFG_NET j)) else (s.fld FI_DO_OUT_V).testBit j

/-- Whether output `j` is at high impedance because it is wired in parallel (R238, R316). -/
def State.doHiZ (s : State) (j : Nat) : Bool :=
  (s.fld PR_DOMASK_DO).testBit j && (!(s.role == 0 || s.role == 1) || s.field.parWait)

/-- Whether the switch of output `j` is on (R311, R313, R315, R316, R318): FI_DO_STAT. -/
def State.doOn (s : State) (j : Nat) : Bool :=
  s.fieldOn && !s.flag FI_STAT_VFCUT && !(s.fld FI_DO_FLT_SHORT).testBit j &&
  (if s.underWay then !s.doHiZ j && s.doCmd j else s.flag (FI_DO_CFG_KEEP j) && s.field.kept.testBit j)

/-- The switches that are on. -/
def State.doStat (s : State) : Nat := (List.range 16).foldl (fun v j => v + b2n (s.doOn j) * 2 ^ j) 0

/-- The commanded states of all outputs, as a heartbeat carries them (R316). -/
def State.doCmds (s : State) : Nat := (List.range 16).foldl (fun v j => v + b2n (s.doCmd j) * 2 ^ j) 0

/-- The states that outputs with KEEP hold while reefed (R315). -/
def State.doKeep (s : State) : State := { s with field := { s.field with kept := s.doStat } }

/-- On promotion the parallel-wired outputs take the states last forwarded and wait for the next 125 µs (R238). -/
def State.doPromote (s : State) : State :=
  let m := s.fld PR_DOMASK_DO
  let v := s.fld FI_DO_OUT_V
  { (s.setFld FI_DO_OUT_V ((v - (v &&& m)) + (s.field.fwd &&& m))) with field := { s.field with parWait := true } }

/-- The multiples of 125 µs at which they leave high impedance. -/
def State.doTick (s : State) (b : Nat) : State :=
  if b % 125000 = 0 then { s with field := { s.field with parWait := false } } else s

/-- DO_SET (R311). -/
def execDoSet (i : Initiator) (v : Word) (s : State) : Out :=
  .next (s.gated i FI_DO_SET (fun s => s.setFld FI_DO_OUT_V (s.fld FI_DO_OUT_V ||| v.toNat % 65536)))

/-- DO_RES (R311). -/
def execDoRes (i : Initiator) (v : Word) (s : State) : Out :=
  .next (s.gated i FI_DO_RES (fun s => s.setFld FI_DO_OUT_V (s.fld FI_DO_OUT_V - (s.fld FI_DO_OUT_V &&& v.toNat))))

/-- OUTPUT_OVERLOAD (R313). -/
def execOutputOverload (j : Fin 16) (thermal : Bool) (s : State) : Out :=
  .next (if s.doOn j.val then (s.setFld ⟨FI_DO_FLT, j.val, 1⟩ 1).sticky 194 j.val (b2n thermal) else s)

/-- OPEN_LOAD (R314). -/
def execOpenLoad (j : Fin 16) (s : State) : Out :=
  .next (if s.doOn j.val && s.flag (FI_DO_CFG_OLEN j.val) then s.setFld ⟨FI_DO_FLT, 16 + j.val, 1⟩ 1 else s)

/-! ### The field supply (R317 to R319) -/

/-- A measurement of VFIELD: MV, MIN, and the two levels that follow it at once. -/
def State.vfMeasure (s : State) (mv : Nat) : State :=
  let s := (s.setFld FI_VFIELD_MV mv).setFld FI_VFIELD_MIN (min (s.fld FI_VFIELD_MIN) mv)
  let s := if mv ≤ 19000 then s.setFld FI_STAT_VFOK 0 else s
  if 18000 < mv then s.setFld FI_STAT_VFLOW 0 else s

/-- VFIELD_LOW (R317). -/
def execVfieldLow (mv : BitVec 16) (s : State) : Out :=
  .next (if s.fieldOn then
    let s := s.vfMeasure mv.toNat
    if mv.toNat < 18000 ∧ !s.flag FI_STAT_VFLOW then (s.setFld FI_STAT_VFLOW 1).sticky 192 0 mv.toNat else s
    else s)

/-- VFIELD_CUT (R318). -/
def execVfieldCut (mv : BitVec 16) (s : State) : Out :=
  .next (if s.fieldOn then
    let s := s.vfMeasure mv.toNat
    if mv.toNat < 15000 then (s.setFld FI_STAT_VFCUT 1).sticky 193 0 mv.toNat else s
    else s)

/-- VFOK (R319). -/
def execVfok (mv : BitVec 16) (s : State) : Out :=
  .next (if s.fieldOn then
    let s := s.vfMeasure mv.toNat
    if 19000 < mv.toNat then s.setFld FI_STAT_VFOK 1 else s
    else s)

/-- VFREARM (R319). -/
def execVfrearm (i : Initiator) (s : State) : Out :=
  .next (s.gated i FI_CMD (fun s =>
    if s.flag FI_STAT_VFOK then s.setFld FI_STAT_VFCUT 0 else s.setFld FI_STAT_REARMREF 1))

/-- VFLOW_END (R317). -/
def execVflowEnd (mv : BitVec 16) (s : State) : Out :=
  .next (if s.fieldOn then s.vfMeasure mv.toNat else s)

/-- VFOK_LOSS (R319). -/
def execVfokLoss (mv : BitVec 16) (s : State) : Out :=
  .next (if s.fieldOn then s.vfMeasure mv.toNat else s)

end Sys2Proof.Machine
end

