-- ==== Sys2Proof/Machine/Cores.lean ====
section
/-! DEFINITION. The application cores' time CSRs and data caches, and the safety cores' lockstep (R261, R264, R267). -/

namespace Sys2Proof.Machine

/-- The lines of a core's data cache. -/
def State.cache (s : State) (c : Nat) : List CacheLine := tabGet (fun _ => []) s.cores.caches c

/-- A core's data cache replaced. -/
def State.setCache (s : State) (c : Nat) (ls : List CacheLine) : State :=
  { s with cores := { s.cores with caches := tabSet (fun _ => []) s.cores.caches c ls } }

/-- Whether an address lies in DRAM, the one region that the data caches hold (R264). -/
def isDram (a : Nat) : Bool := decide (0x40000000 ≤ a) && decide (a < 0x50000000)

/-- The address of the line that holds an address. -/
def lineOf (a : Nat) : Nat := a / 64 * 64

/-- The line that holds an address, if the cache has it. -/
def State.findLine (s : State) (c a : Nat) : Option CacheLine := (s.cache c).find? (fun l => l.addr == lineOf a)

/-- Whether an address lies in the structure or the instance area (R104, R105). -/
def State.sparArea (s : State) (a : Nat) : Bool :=
  let b := s.fld SP_STRBASE_STRBASE
  let i := s.fld SP_INSTBASE_INSTBASE
  (decide (b ≤ a) && decide (a < b + 0x1000000)) || (decide (i ≤ a) && decide (a < i + 0x800000))

/-- A write to DRAM: ignored in the structure and instance areas, with SP_AREA_WRITE (R105). -/
def State.dramWrite (s : State) (i : Nat) (a : Nat) (bs : List Byte) : State :=
  if s.sparArea a then s.sticky 37 i a else s.wrBytes a bs

/-- A dirty line of core `c` written to DRAM. -/
def State.flushLine (s : State) (c : Nat) (l : CacheLine) : State := if l.dirty then s.dramWrite c l.addr l.data else s

/-- A line written back, kept clean (R264, CSR 0x7C1). -/
def State.writeBack (s : State) (c a : Nat) : State :=
  match s.findLine c a with
  | none => s
  | some l => (s.flushLine c l).setCache c ((s.cache c).map (fun x => if x.addr = l.addr then { x with dirty := false } else x))

/-- A line discarded without write-back (R264, CSR 0x7C2). -/
def State.discardLine (s : State) (c a : Nat) : State :=
  s.setCache c ((s.cache c).filter (fun x => x.addr != lineOf a))

/-- The whole cache written back and discarded (R264, CSR 0x7C0). -/
def State.flushCache (s : State) (c : Nat) : State :=
  ((s.cache c).foldl (fun t l => t.flushLine c l) s).setCache c []

/-- A byte stored in a line's data. -/
def CacheLine.put (l : CacheLine) (a : Nat) (b : Byte) : CacheLine :=
  { l with dirty := true, data := l.data.set (a - l.addr) b }

/-- One byte stored by core `c` to DRAM: into its line, which a miss loads first (R264). -/
def State.cacheByte (s : State) (c a : Nat) (b : Byte) : State :=
  match s.findLine c a with
  | some _ => s.setCache c ((s.cache c).map (fun x => if x.addr = lineOf a then x.put a b else x))
  | none => s.setCache c (s.cache c ++ [(CacheLine.mk (lineOf a) false (s.rdBytes (lineOf a) 64)).put a b])

/-- The line that holds an address loaded into a core's cache, when it is not there (R264). -/
def State.cacheLoad (s : State) (c a : Nat) : State :=
  match s.findLine c a with
  | some _ => s
  | none => s.setCache c (s.cache c ++ [⟨lineOf a, false, s.rdBytes (lineOf a) 64⟩])

/-- A DRAM byte as core `c` reads it: its line's, where it has one. -/
def State.cacheRead (s : State) (c a : Nat) : Byte :=
  match s.findLine c a with
  | some l => l.data.getD (a - l.addr) 0
  | none => s.rdB a

/-- Bytes stored by core `c` to DRAM. -/
def State.cacheBytes (s : State) (c : Nat) : Nat → List Byte → State
  | _, [] => s
  | a, b :: bs => (s.cacheByte c a b).cacheBytes c (a + 1) bs

/-- The halt of a safety core, with SC_LOCKSTEP; channel 2 has no result at the next comparison, one that it had given is void (R267). -/
def State.haltSafety (s : State) (c pc : Nat) : State :=
  { s with
    cores := { s.cores with halted := tabSet (fun _ => false) s.cores.halted c true }
    shroud := { s.shroud with snap := s.shroud.snap.map (fun (x : Snap) => { x with r2 := none }) } }.sticky 68 c pc

/-- Whether a safety core is halted. -/
def State.scHalted (s : State) (c : Nat) : Bool := tabGet (fun _ => false) s.cores.halted c

/-- The timeh CSR as application core `c` reads it: what its last read of time latched (R261). -/
def State.csrTimeh (s : State) (c : Fin 4) : Word := (s.inis (.ac c)).timeh

/-- The mip CSR of application core `c`: MEIP, bit 11, while an item is delivered and not acknowledged and IE is 1; MTIP and MSIP
read 0 (R261, R262). -/
def State.csrMip (s : State) (c : Fin 4) : Word := if s.meip c then 0x800 else 0

/-- TIME_CSR_READ (R261). -/
def execTimeCsrRead (c : Fin 4) (s : State) : Out :=
  .next ((s.setIni (.ac c) { s.inis (.ac c) with timeh := BitVec.ofNat 32 (s.nowNs / 2 ^ 32) }).answer (BitVec.ofNat 32 s.now))
/-- CACHE_LINE_WRITEBACK (R264). -/
def execCacheLineWriteback (c : Fin 4) (a : Word) (s : State) : Out := .next (s.writeBack c a.toNat)
/-- CACHE_LINE_DISCARD (R264). -/
def execCacheLineDiscard (c : Fin 4) (a : Word) (s : State) : Out := .next (s.discardLine c a.toNat)
/-- CACHE_FLUSH (R264). -/
def execCacheFlush (c : Fin 4) (s : State) : Out := .next (s.flushCache c)
/-- LOCKSTEP_ERROR (R267). -/
def execLockstepError (c : Fin 2) (pc : Word) (s : State) : Out := .next (s.haltSafety c pc.toNat)

end Sys2Proof.Machine
end

