-- ==== Sys2Proof/Machine/Crc.lean ====
section
/-! DEFINITION. The CRC-32C of the manual (R412). -/

namespace Sys2Proof.Machine

/-- Eight steps of the reflected register. -/
def crcShift : Nat → BitVec 32 → BitVec 32
  | 0, c => c
  | n + 1, c => crcShift n (if c.getLsbD 0 then (c >>> 1) ^^^ 0x82F63B78#32 else c >>> 1)

/-- A byte enters the register, least significant bit first. -/
def crcByte (c : BitVec 32) (b : Byte) : BitVec 32 := crcShift 8 (c ^^^ b.setWidth 32)

/-- CRC-32C with a 16-bit seed (R412). -/
def crc32c (seed : Nat) (bs : List Byte) : BitVec 32 :=
  bs.foldl crcByte (0xFFFFFFFF#32 ^^^ BitVec.ofNat 32 (seed * 65536)) ^^^ 0xFFFFFFFF#32

end Sys2Proof.Machine
end

