-- ==== Sys2Proof/Machine/Flags.lean ====
section
/-! DEFINITION. The flags of the servo engines' status register (chapter Servo Engine Programming, SR table). -/

namespace Sys2Proof.Machine

/-- A bit of SR replaced. -/
def srPut (sr : BitVec 6) (k : Nat) (b : Bool) : BitVec 6 := BitVec.ofNat 6 (putBits sr.toNat k 1 (b2n b))

/-- Z := result is 0. -/
def srZ (sr : BitVec 6) (x : Int) : BitVec 6 := srPut sr 0 (x == 0)

/-- Z and N from a result. -/
def srZN (sr : BitVec 6) (x : Int) : BitVec 6 := srPut (srZ sr x) 1 (decide (x < 0))

/-- V := the instruction saturated; SV is sticky. -/
def srV (sr : BitVec 6) (sat : Bool) : BitVec 6 := srPut (srPut sr 2 sat) 4 (sr.getLsbD 4 || sat)

/-- Z, N, V and SV from an accumulator result. -/
def srZNV (sr : BitVec 6) (x : Int) (sat : Bool) : BitVec 6 := srV (srZN sr x) sat

/-- The flags after CLMP: N if the lower bound was applied, K if a bound was. -/
def srClamp (sr : BitVec 6) (x : Int) (lower bound : Bool) : BitVec 6 :=
  srPut (srPut (srZ sr x) 1 lower) 3 bound

/-- Whether a branch condition 0 to 11 holds (R89). -/
def condHolds (sr : BitVec 6) (c : Nat) : Bool :=
  let z := sr.getLsbD 0
  let n := sr.getLsbD 1
  match c with
  | 0 => true | 1 => z | 2 => !z | 3 => n | 4 => !n | 5 => !n && !z | 6 => n || z
  | 7 => sr.getLsbD 2 | 8 => !sr.getLsbD 2 | 9 => sr.getLsbD 3 | 10 => !sr.getLsbD 3 | _ => sr.getLsbD 5

end Sys2Proof.Machine
end

