-- ==== Sys2Proof/Machine/Operands.lean ====
section
/-! DEFINITION. The operand forms of the servo engines: data addresses, rings and post-updates, register selectors
(R82, R84, R85). -/

namespace Sys2Proof.Machine

/-- The fault codes of SE_STAT.FCODE. -/
inductive SeFault where
  | illegalOp | illegalRep | badAddr | stack | memEcc | trap (code : Nat) | area
  deriving DecidableEq, Repr

def SeFault.code : SeFault → Nat
  | .illegalOp => 1 | .illegalRep => 2 | .badAddr => 3 | .stack => 4 | .memEcc => 5 | .trap _ => 6 | .area => 7

/-- What an instruction answers: the registers and the state after it, or a fault with no effect. -/
abbrev SeRes := Except SeFault (SeRegs × State)

/-- The main bank and the coefficient bank (R81). -/
def inMain (a : Int) : Bool := decide (0 ≤ a ∧ a < 0x20000)
def inCoef (a : Int) : Bool := decide (0x20000 ≤ a ∧ a < 0x30000)
def inData (a : Int) : Bool := decide (0 ≤ a ∧ a < 0x30000)

/-- The output block, the one fixed area that the foreground may write (R82). -/
def inOutput (a : Nat) : Bool := (decide (0x3000 ≤ a) && decide (a < 0x3280)) || (decide (0x3300 ≤ a) && decide (a < 0x3400))

/-- Whether a context may write a data address (R82). -/
def seMayWrite (c : Ctx) (a : Nat) : Bool :=
  decide (0x4000 ≤ a) || (c == .fg && inOutput a)

/-- A data word of engine `e` (R83). -/
def State.seWord (s : State) (e a : Nat) : Nat := s.rd32 (seData e a)

/-- A load of a word from an address that `ok` admits: BAD_ADDR and MEM_ECC as R89 and R98 say. -/
def State.seLoad (s : State) (e : Nat) (ok : Int → Bool) (a : Int) : Except SeFault Nat :=
  if ok a then
    (if (s.eccHit (seData e a.toNat) 4).isSome then .error .memEcc else .ok (s.seWord e a.toNat))
  else .error .badAddr

/-- A store of a word: BAD_ADDR and AREA as R82 and R89 say. -/
def State.seStore (s : State) (e : Nat) (c : Ctx) (a : Int) (v : Nat) : Except SeFault State :=
  if inData a then
    (if seMayWrite c a.toNat then .ok (s.wr32 (seData e a.toNat) v) else .error .area)
  else .error .badAddr

/-- The pointer after a post-update: stride, then the ring's wrap (R85). -/
def postPtr (r : SeRegs) (k : Fin 8) : BitVec 18 :=
  let i : Int := (r.p[k].toNat : Int) + 4 * r.t[k].toInt
  let h : Int := r.h[k].toNat
  let q : Int := r.q[k].toNat
  let i' := if q = 0 then i else if h + 4 * q ≤ i then i - 4 * q else if i < h then i + 4 * q else i
  BitVec.ofInt 18 i'

/-- The post-update of a pointer, where the instruction asks for it. -/
def postUpdate (r : SeRegs) (u : Bool) (k : Fin 8) : SeRegs :=
  if u then { r with p := r.p.set k (postPtr r k) } else r

/-- The address of format L: Pk + 4 × OFF. -/
def lAddr (r : SeRegs) (m : LAddr) : Int := (r.p[m.p].toNat : Int) + 4 * m.off.toInt

/-- A pointer value as the pointer and base registers hold it: a multiple of 4 (R84). -/
def ptrOf (v : BitVec 18) : BitVec 18 := BitVec.ofNat 18 (v.toNat / 4 * 4)

/-- The register that a selector of format V names, as a signed value; none for a code that names none. -/
def selGet (r : SeRegs) (sel : Nat) : Option Int :=
  let k : Fin 8 := ⟨sel % 8, Nat.mod_lt _ (by decide)⟩
  match sel / 8 with
  | 0 => some r.d[k].toInt
  | 1 => some r.p[k].toInt
  | 2 => some r.t[k].toInt
  | 3 => some r.q[k].toInt
  | 4 => some r.e[k].toInt
  | 5 => if sel = 0x28 then some r.sr.toInt else none
  | 6 => some r.h[k].toInt
  | _ => if sel < 0x3C then some r.a[(⟨sel % 4, Nat.mod_lt _ (by decide)⟩ : Fin 4)].toInt else none

/-- Whether a selector names an accumulator. -/
def selIsAcc (sel : Nat) : Bool := decide (0x38 ≤ sel) && decide (sel < 0x3C)

/-- The register that a selector names set to a value cut to its width; `mvr` says that SV may be cleared. BGDONE is the
sequencer's (R94). -/
def selPut (r : SeRegs) (sel : Nat) (x : Int) (mvr : Bool) : SeRegs :=
  let k : Fin 8 := ⟨sel % 8, Nat.mod_lt _ (by decide)⟩
  match sel / 8 with
  | 0 => { r with d := r.d.set k (BitVec.ofInt 24 x) }
  | 1 => { r with p := r.p.set k (ptrOf (BitVec.ofInt 18 x)) }
  | 2 => { r with t := r.t.set k (BitVec.ofInt 12 x) }
  | 3 => { r with q := r.q.set k (BitVec.ofInt 12 x) }
  | 4 => { r with e := r.e.set k (BitVec.ofInt 5 x) }
  | 5 =>
    let v := BitVec.ofInt 6 x
    { r with sr := srPut (srPut v 5 (r.sr.getLsbD 5)) 4 (v.getLsbD 4 || (!mvr && r.sr.getLsbD 4)) }
  | 6 => { r with h := r.h.set k (ptrOf (BitVec.ofInt 18 x)) }
  | _ => { r with a := r.a.set (⟨sel % 4, Nat.mod_lt _ (by decide)⟩ : Fin 4) (BitVec.ofInt 56 x) }

end Sys2Proof.Machine
end

