-- ==== Sys2Proof/Machine/Engine.lean ====
section
/-! DEFINITION. The servo engines: their instructions, cycle end, background passes and debug (R84 to R99). -/

namespace Sys2Proof.Machine

/-- The 56-bit limits' saturation: the value and whether it saturated (R86). -/
def sat56 (x : Int) : Int × Bool := (satS 56 x, !fitsS 56 x)

/-- An accumulator's value. -/
def accVal (r : SeRegs) (k : Fin 4) : Int := r.a[k].toInt

/-- A data register's value. -/
def datVal (r : SeRegs) (k : Fin 8) : Int := r.d[k].toInt

/-- An accumulator set. -/
def setAcc (r : SeRegs) (k : Fin 4) (x : Int) : SeRegs := { r with a := r.a.set k (BitVec.ofInt 56 x) }

/-- A data register set. -/
def setDat (r : SeRegs) (k : Fin 8) (x : Int) : SeRegs := { r with d := r.d.set k (BitVec.ofInt 24 x) }

/-- An accumulator result with Z, N, V and SV, saturating (R86). -/
def accSat (r : SeRegs) (k : Fin 4) (x : Int) : SeRegs :=
  { setAcc r k (satS 56 x) with sr := srZNV r.sr (satS 56 x) (!fitsS 56 x) }

/-- The optional loads of format M (R89): both addresses are checked before anything is written. Two loads into one
register leave a free value there. -/
def seLoads (s : State) (e : Nat) (r : SeRegs) (l : MLoads) : SeRes := do
  let wa ← if l.laen then s.seLoad e inMain (r.p[l.pa].toNat) else .ok 0
  let wb ← if l.lben then s.seLoad e inCoef (r.p[l.pb].toNat) else .ok 0
  let r1 := if l.laen then postUpdate (setDat r l.la wa) l.ua l.pa else r
  let r2 := if l.lben then postUpdate (setDat r1 l.lb wb) l.ub l.pb else r1
  if l.laen && l.lben && l.la == l.lb then
    let x := s.draw 24
    .ok (setDat r2 l.la x.1.toInt, x.2)
  else .ok (r2, s)

/-- An instruction of format M: the loads, then the accumulator result from the operands before the loads. -/
def seM (s : State) (e : Nat) (r : SeRegs) (l : MLoads) (f : SeRegs → SeRegs) : SeRes := do
  let x ← seLoads s e r l
  .ok (f x.1, x.2)

/-- A result that the spec does not state: a free accumulator value and a free saturation (a shift out of range). -/
def accFree (s : State) (r : SeRegs) (k : Fin 4) (v : Bool) : SeRes :=
  let x := s.draw 57
  let val : Int := (BitVec.ofNat 56 x.1.toNat).toInt
  let sr := if v then srZNV r.sr val (x.1.getLsbD 56) else srZN r.sr val
  .ok ({ setAcc r k val with sr := sr }, x.2)

/-- MVD and STA: the value saturated to `w` bits, with V and SV (R88). -/
def satStore (w : Nat) (r : SeRegs) (x : Int) : Int × BitVec 6 := (satS w x, srV r.sr (!fitsS w x))

/-- CLMP between two bounds (R89). Bounds in the wrong order leave a free result. -/
def seClamp (s : State) (r : SeRegs) (ad : Fin 4) (lo hi : Int) : SeRes :=
  let x := accVal r ad
  if hi < lo then
    let y := s.draw 57
    let val : Int := (BitVec.ofNat 56 y.1.toNat).toInt
    .ok ({ setAcc r ad val with sr := srClamp r.sr val (y.1.getLsbD 56) true }, y.2)
  else
    let v := clampI lo hi x
    .ok ({ setAcc r ad v with sr := srClamp r.sr v (decide (x < lo)) (decide (v ≠ x)) }, s)

/-- The redundant sign bits of a 56-bit value, 0 to 55. -/
def redundantBits : Nat → Int → Nat
  | 0, _ => 0
  | n + 1, x => if fitsS (n + 1) x then redundantBits n x + 1 else 0

/-- A shift right by a signed amount, left when negative (R86, R87). -/
def shiftBy (x : Int) (t : Int) : Int := if 0 ≤ t then asr x t.toNat else x * ((2 ^ (-t).toNat : Nat) : Int)

/-- The registers after a register's load through format L, with the post-update. -/
def seL (s : State) (e : Nat) (r : SeRegs) (m : LAddr) (f : SeRegs → Nat → SeRegs) : SeRes := do
  let w ← s.seLoad e inData (lAddr r m)
  .ok (postUpdate (f r w) m.u m.p, s)

/-- The operation of an instruction that does not change the flow (R89). Control flow, REP, CEND and BEND are `seRun`'s. -/
def seOp (s : State) (e : Nat) (c : Ctx) (r : SeRegs) (i : SeInstr) : SeRes :=
  match i with
  | .mpy a dm dn l => seM s e r l (fun x =>
      let v := datVal r dm * datVal r dn
      { setAcc x a v with sr := srZN r.sr v })
  | .mac a dm dn l => seM s e r l (fun x => accSat x a (accVal r a + datVal r dm * datVal r dn))
  | .msu a dm dn l => seM s e r l (fun x => accSat x a (accVal r a - datVal r dm * datVal r dn))
  | .clr a l => seM s e r l (fun x => { setAcc x a 0 with sr := srZ r.sr 0 })
  | .movl l => seLoads s e r l
  | .add ad as => .ok (accSat r ad (accVal r ad + accVal r as), s)
  | .sub ad as => .ok (accSat r ad (accVal r ad - accVal r as), s)
  | .addd ad dx sh =>
    if 32 < sh.val then accFree s r ad true
    else .ok (accSat r ad (accVal r ad + datVal r dx * ((2 ^ sh.val : Nat) : Int)), s)
  | .sha ad sh => .ok (accSat r ad (shiftBy (accVal r ad) sh.toInt), s)
  | .she ad ej ek sh => .ok (accSat r ad (shiftBy (accVal r ad) (r.e[ek].toInt - r.e[ej].toInt + sh.toInt)), s)
  | .neg ad => .ok (accSat r ad (-accVal r ad), s)
  | .abs ad => .ok (accSat r ad (accVal r ad).natAbs, s)
  | .clmp ad dx dy sh =>
    if 32 < sh.val then
      let y := s.draw 57
      let val : Int := (BitVec.ofNat 56 y.1.toNat).toInt
      .ok ({ setAcc r ad val with sr := srClamp r.sr val (y.1.getLsbD 56) (y.1.getLsbD 55) }, y.2)
    else seClamp s r ad (datVal r dx * ((2 ^ sh.val : Nat) : Int)) (datVal r dy * ((2 ^ sh.val : Nat) : Int))
  | .cls dx as =>
    let n := redundantBits 55 (accVal r as)
    .ok ({ setDat r dx n with sr := srZ r.sr n }, s)
  | .mvd dx as sh =>
    if 55 < sh.val then
      let y := s.draw 25
      .ok ({ setDat r dx (BitVec.ofNat 24 y.1.toNat).toInt with sr := srV r.sr (y.1.getLsbD 24) }, y.2)
    else
      let y := satStore 24 r (asr (accVal r as) sh.val)
      .ok ({ setDat r dx y.1 with sr := y.2 }, s)
  | .mva ad dx sh =>
    if 32 < sh.val then accFree s r ad false
    else
      let v := datVal r dx * ((2 ^ sh.val : Nat) : Int)
      .ok ({ setAcc r ad v with sr := srZN r.sr v }, s)
  | .ld dk m => seL s e r m (fun r w => setDat r dk w)
  | .st dk m => do
    let s' ← s.seStore e c (lAddr r m) (ofS 32 (datVal r dk))
    .ok (postUpdate r m.u m.p, s')
  | .lda ak m => seL s e r m (fun r w => setAcc r ak (toS 32 w))
  | .sta ak m => do
    let y := satStore 32 r (accVal r ak)
    let s' ← s.seStore e c (lAddr r m) (ofS 32 y.1)
    .ok (postUpdate { r with sr := y.2 } m.u m.p, s')
  | .lde ek m => seL s e r m (fun r w => { r with e := r.e.set ek (BitVec.ofInt 5 (clampI (-16) 15 (toS 8 w))) })
  | .ldp pk m => do
    let x ← seL s e r m (fun r w => { r with p := r.p.set pk (ptrOf (BitVec.ofNat 18 w)) })
    if m.u && pk == m.p then
      let y := s.draw 18
      .ok ({ x.1 with p := x.1.p.set pk (ptrOf y.1) }, y.2)
    else .ok x
  | .mvr dst src =>
    match selGet r src.toNat with
    | none => .error .illegalOp
    | some v =>
      if (selGet r dst.toNat).isNone || selIsAcc dst.toNat != selIsAcc src.toNat then .error .illegalOp
      else .ok (selPut r dst.toNat v true, s)
  | .ldi dst imm =>
    if (selGet r dst.toNat).isNone then .error .illegalOp else .ok (selPut r dst.toNat imm.toInt false, s)
  | .clrs => .ok ({ r with sr := srPut r.sr 4 false }, s)
  | .dbnz dd _ => .ok (setDat r dd (datVal r dd - 1), s)
  | .trap code => .error (.trap code.toNat)
  | .br cond _ => if 12 ≤ cond.val then .error .illegalOp else .ok (r, s)
  | .call _ => if r.stack.length < 8 then .ok (r, s) else .error .stack
  | .ret => if r.stack.isEmpty then .error .stack else .ok (r, s)
  | .rep .. | .cend | .bend | .nop => .ok (r, s)

/-- Whether an instruction may be repeated (the REP column). -/
def seRepable (i : SeInstr) : Bool :=
  match i with
  | .mpy .. | .mac .. | .msu .. | .clr .. | .movl .. | .add .. | .sub .. | .addd .. | .sha .. | .she .. | .neg .. | .abs ..
  | .clmp .. | .mvd .. | .mva .. | .ld .. | .st .. | .lda .. | .sta .. | .lde .. => true
  | .cls .. | .ldp .. | .mvr .. | .ldi .. | .clrs | .br .. | .call .. | .ret | .dbnz .. | .rep .. | .cend | .bend | .nop
  | .trap .. => false

/-- The passes of a repeat: SV and V accumulate (R90). -/
def seRepeat (e : Nat) (c : Ctx) (i : SeInstr) : Nat → SeRegs × State → Except (SeFault × (SeRegs × State)) (SeRegs × State)
  | 0, x => .ok x
  | n + 1, x =>
    match seOp x.2 e c x.1 i with
    | .error f => .error (f, x)
    | .ok y => seRepeat e c i n ({ y.1 with sr := srPut y.1.sr 2 (y.1.sr.getLsbD 2 || x.1.sr.getLsbD 2) }, y.2)

/-! ### Contexts -/

/-- The registers of a context. -/
def Engine.ctx (x : Engine) (c : Ctx) : SeRegs := match c with | .fg => x.fg | .bg => x.bg

/-- The registers of a context replaced. -/
def Engine.setCtx (x : Engine) (c : Ctx) (r : SeRegs) : Engine :=
  match c with | .fg => { x with fg := r } | .bg => { x with bg := r }

/-- The registers of a context of engine `e` replaced. -/
def State.setSeRegs (s : State) (e : Nat) (c : Ctx) (r : SeRegs) : State := s.setEng e ((s.eng e).setCtx c r)

/-- Engine cycles counted to a context's run (R89, R93). -/
def State.seCycles (s : State) (e : Nat) (c : Ctx) (n : Nat) : State :=
  let x := s.eng e
  s.setEng e (match c with | .fg => { x with fgCyc := x.fgCyc + n } | .bg => { x with bgCyc := x.bgCyc + n })

/-- A fault stops the engine at the faulting instruction (R89). -/
def State.seFault (s : State) (e : Nat) (c : Ctx) (f : SeFault) : State :=
  let pc := ((s.eng e).ctx c).pc.toNat
  let cx := match c with | .fg => 0 | .bg => 1
  let code := match f with | .trap k => k | _ => 0
  let s := (s.setFld (SE_STAT_STATE e) 0).setFld (SE_STAT_FAULTED e) 1
  let s := (s.setFld (SE_STAT_FCODE e) f.code).setReg (SE_FAULTPC e) (BitVec.ofNat 32 (pc + cx * 2 ^ 14 + code * 2 ^ 16))
  s.sticky 66 e (pc + cx * 2 ^ 14 + f.code * 2 ^ 16)

/-- The registers with the PC moved on. -/
def pcTo (r : SeRegs) (pc : BitVec 14) : SeRegs := { r with pc := pc }

/-- A background pass starts, or is missed (R93). -/
def State.startPass (s : State) (e : Nat) : State :=
  let d := s.fld (SE_CTL_BGDIV e)
  let x := s.eng e
  if d = 0 ∨ x.runNum % d ≠ 0 then s
  else if x.bgBusy then s.incFld (SE_STAT_BGMISS e)
  else s.setEng e { x with bgBusy := true, bgEnded := false, bgCyc := 0, bg := pcTo x.bg (BitVec.ofNat 14 (s.fld (SE_BGVEC_VEC e))) }

/-- Whether the latch point of a run has passed: its cycle's, or the cycle's end with it (R92). -/
def State.pastLatch (s : State) (e : Nat) : Bool := (s.line e).latched || (s.eng e).skipped

/-- CEND of the foreground (R92, R93, R97): the run ends, a late one leaves MINSLACK 0, a background pass may start, the engine goes
IDLE or BG. -/
def State.seCend (s : State) (e : Nat) : State :=
  let x := s.eng e
  let n := min 65535 x.fgCyc
  let s := (s.setFld (SE_FGCYC_FGCYC e) n).maxFld (SE_FGMAX_FGMAX e) n
  let s := if s.pastLatch e then s.setFld (SE_MINSLACK_MINSLACK e) 0 else s
  let s := (s.setEng e { x with ended := true, endAt := s.nowNs }).startPass e
  s.setFld (SE_STAT_STATE e) (if (s.eng e).bgBusy then 3 else 1)

/-- BEND of the background (R93, R94). -/
def State.seBend (s : State) (e : Nat) : State :=
  let x := s.eng e
  let s := s.setFld (SE_BGCYC_BGCYC e) (x.bgCyc % 2 ^ 24)
  (s.setEng e { x with bgBusy := false, bgEnded := true }).setFld (SE_STAT_STATE e) 1

/-- A REP with its passes (R90): the next instruction is read from program memory. -/
def State.seRep (s : State) (e : Nat) (c : Ctx) (creg : Bool) (dd : Fin 8) (count : Fin 512) : State :=
  let r := (s.eng e).ctx c
  let n0 := if creg then (ofS 24 (datVal r dd)) % 512 else count.val
  let n := min n0 256
  let pc1 := r.pc + 1
  if n = 0 then (s.setSeRegs e c (pcTo r (pc1 + 1))).seCycles e c 1
  else
    let s1 := (s.setSeRegs e c (pcTo r pc1)).seCycles e c 1
    if (s.eccHit (seProg e pc1.toNat) 4).isSome then s1.seFault e c .memEcc
    else match decodeSe (BitVec.ofNat 32 (s.rd32 (seProg e pc1.toNat))) with
    | none => s1.seFault e c .illegalOp
    | some i =>
      if seRepable i then
        match seRepeat e c i n ({ pcTo r pc1 with sr := srPut r.sr 2 false }, s1) with
        | .error (f, x) => (x.2.setSeRegs e c x.1).seFault e c f
        | .ok x => (x.2.setSeRegs e c (pcTo x.1 (pc1 + 1))).seCycles e c n
      else s1.seFault e c .illegalRep

/-- The place to which a control-flow instruction goes, with the return stack, and its cycles (R89). -/
def seNext (r0 r : SeRegs) (i : SeInstr) : SeRegs × Nat :=
  let pc1 := r0.pc + 1
  match i with
  | .br cond tgt => if condHolds r.sr cond.val then (pcTo r tgt, 2) else (pcTo r pc1, 1)
  | .call tgt => ({ r with pc := tgt, stack := pc1 :: r.stack }, 2)
  | .ret =>
    match r.stack with
    | p :: ps => ({ r with pc := p, stack := ps }, 2)
    | [] => (pcTo r pc1, 2)
  | .dbnz dd tgt => if r.d[dd] = 0 then (pcTo r pc1, 1) else (pcTo r tgt, 2)
  | _ => (pcTo r pc1, 1)

/-- One instruction run by a context of an engine (R89): its operation, the PC, the cycles, and what CEND, BEND and REP do. -/
def State.seRun (s : State) (e : Nat) (c : Ctx) (i : SeInstr) : State :=
  match i with
  | .rep creg dd count => s.seRep e c creg dd count
  | _ =>
    let r := (s.eng e).ctx c
    match seOp s e c r i with
    | .error f => s.seFault e c f
    | .ok x =>
      let y := seNext r x.1 i
      let s' := (x.2.setSeRegs e c y.1).seCycles e c y.2
      match i, c with
      | .cend, .fg => s'.seCend e
      | .bend, .bg => s'.seBend e
      | _, _ => s'

/-- Whether a context of an engine is running (the states of SE_STAT.STATE). -/
def State.seRuns (s : State) (e : Nat) (c : Ctx) : Bool :=
  s.underWay && (s.fld (SE_STAT_STATE e) == (match c with | .fg => 2 | .bg => 3))

/-- The instruction of a command row: run where the context runs, no effect otherwise. -/
def State.seRow (s : State) (e : Nat) (c : Ctx) (i : SeInstr) : State := if s.seRuns e c then s.seRun e c i else s

/-! ### Debug (R84, R99) -/

/-- Whether a joint of an arm is ENABLING, ENABLED or DISABLING. -/
def JState.live (j : JState) : Bool :=
  match j with
  | .enabling | .enabled | .disabling => true
  | .disabled | .fault => false

/-- The configured joints of arm `n`, ascending (R12). -/
def State.armJoints (s : State) (n : Nat) : List Nat :=
  (List.range 64).filter (fun k => s.flag (JC_CFG_USED k) && s.fld (JC_CFG_ARM k) == n)

/-- Whether some joint of arm `n` is enabled or changing. -/
def State.armLive (s : State) (n : Nat) : Bool := (s.armJoints n).any (fun k => (s.joint k).state.live)

/-- A debug halt request (R99). -/
def State.dbgHalt (s : State) (e : Nat) : State :=
  if s.armLive e then s.setFld (SE_STAT_DBGREFUSED e) 1
  else ((s.setFld (SE_DBG_HALTREQ e) 1).setEng e { s.eng e with dbg := true }).setFld (SE_STAT_STATE e) 0

/-- Leaving the debug halt: a faulted or stopped engine stays HALTED (R99 and the state table: IDLE,
and from there BG when a pass is pending). -/
def State.dbgResume (s : State) (e : Nat) : State :=
  if (s.eng e).dbg then
    let s := (s.setFld (SE_DBG_HALTREQ e) 0).setEng e { s.eng e with dbg := false }
    if s.flag (SE_STAT_FAULTED e) || !s.flag (SE_CTL_RUN e) then s else s.setFld (SE_STAT_STATE e) (if (s.eng e).bgBusy then 3 else 1)
  else s

/-- The context that SE_DBGSEL names. -/
def State.dbgCtx (s : State) (e : Nat) : Ctx := if s.flag (SE_DBGSEL_CTX e) then .bg else .fg

/-- One instruction in debug halt (R90); the engine stays halted. -/
def State.dbgStep (s : State) (e : Nat) : State :=
  if (s.eng e).dbg && !s.flag (SE_STAT_FAULTED e) then
    let c := s.dbgCtx e
    let pc := ((s.eng e).ctx c).pc.toNat
    let t := if (s.eccHit (seProg e pc) 4).isSome then s.seFault e c .memEcc
      else match decodeSe (BitVec.ofNat 32 (s.rd32 (seProg e pc))) with
      | none => s.seFault e c .illegalOp
      | some i => s.seRun e c i
    t.setFld (SE_STAT_STATE e) 0
  else s

/-- A write of SE_DBG by its bits. -/
def State.writeDbg (s : State) (e : Nat) (v : Nat) : State :=
  let s := if v.testBit 0 then s.dbgHalt e else s
  let s := if v.testBit 1 then s.dbgResume e else s
  if v.testBit 2 then s.dbgStep e else s

/-- What SE_DBGDATA reads: the selected register, an accumulator by its view (R84). -/
def State.dbgValue (s : State) (e : Nat) : Word :=
  let sel := s.fld (SE_DBGSEL_SEL e)
  match selGet ((s.eng e).ctx (s.dbgCtx e)) sel with
  | none => 0
  | some x => BitVec.ofInt 32 (if selIsAcc sel && s.flag (SE_DBGSEL_PART e) then asr x 32 else x)

/-- A write of SE_DBGDATA: accepted only in debug halt (R84). -/
def State.dbgWrite (s : State) (e : Nat) (v : Word) : State :=
  let sel := s.fld (SE_DBGSEL_SEL e)
  let c := s.dbgCtx e
  let r := (s.eng e).ctx c
  if (s.eng e).dbg && (selGet r sel).isSome then
    if selIsAcc sel then
      let old := ofS 56 ((selGet r sel).getD 0)
      let new := if s.flag (SE_DBGSEL_PART e) then putBits old 32 24 v.toNat else putBits old 0 32 v.toNat
      s.setSeRegs e c (selPut r sel new true)
    else s.setSeRegs e c (selPut r sel v.toInt true)
  else s

end Sys2Proof.Machine
end

