-- ==== Sys2Proof/Machine/Joint.lean ====
section
/-! DEFINITION. Joint control: commands of joints and arms, horizons, parameter shadows, faults (R60 to R63, R71, R72,
R74 to R80). -/

namespace Sys2Proof.Machine

/-! ### Periods and shares of a line -/

/-- A line's servo period in ns (R14, TL_LCTL.PERIOD). -/
def State.linePer (s : State) (n : Nat) : Nat := 15625 * 2 ^ s.fld (TL_LCTL_PERIOD n)

/-- Whether every configured joint of an arm is ENABLED and it has one (R60). -/
def State.armReady (s : State) (n : Nat) : Bool :=
  !(s.armJoints n).isEmpty && (s.armJoints n).all (fun k => (s.joint k).state == .enabled)

/-- Whether every set-point velocity of an arm is zero (R60). -/
def State.armStill (s : State) (n : Nat) : Bool := (s.armJoints n).all (fun k => (s.joint k).spV == 0)

/-- A change of every configured joint of an arm, ascending. -/
def State.onJoints (s : State) (n : Nat) (f : State → Nat → State) : State := (s.armJoints n).foldl f s

/-- A bit field of a status word of engine `n` replaced. -/
def State.patchWord (s : State) (n a lo w v : Nat) : State := s.wr32 (seData n a) (putBits (s.seWord n a) lo w v)

/-- JC_STAT's state, homing and cause written at once, and into the joint's status word (R74, R75, R77, R80, R76). -/
def State.showJoint (s : State) (k : Nat) : State :=
  let j := s.joint k
  let n := s.fld (JC_CFG_ARM k)
  let a := 0x3300 + 4 * (s.armJoints n).idxOf k
  let s := ((s.patchWord n a 0 3 j.state.code).patchWord n a 3 1 (b2n j.homed)).patchWord n a 8 4 j.fcause
  ((s.setFld (JC_STAT_STATE k) j.state.code).setFlag (JC_STAT_HOMED k) j.homed).setFld (JC_STAT_FCAUSE k) j.fcause

/-- JC_ARM_STAT's mode and horizon outcome written at once, and into the arm's status word. -/
def State.showArm (s : State) (n : Nat) : State :=
  let a := s.arm n
  let s := ((s.patchWord n 0x33F0 0 4 a.mode.code).patchWord n 0x33F0 4 1 (b2n a.trajArm)).patchWord n 0x33F0 6 4 a.hstat
  ((s.setFld (JC_ARM_STAT_MODE n) a.mode.code).setFld (JC_ARM_STAT_HSTAT n) a.hstat).setFlag (JC_ARM_STAT_TRAJARM n) a.trajArm

/-! ### Modes -/

/-- The arm in another mode: leaving HOLD clears TRAJARM (R63), leaving TRAJ clears hold_zero (R67) and the horizon. -/
def State.setMode (s : State) (n : Nat) (m : Mode) : State :=
  let a := s.arm n
  s.setArm n { a with
    mode := m, trajArm := a.trajArm && m == .hold, holdZero := a.holdZero && m == .traj,
    hor := if m = .traj then a.hor else none,
    stopTkt := if m = .jstop then (if a.mode = .traj then a.hor.map (fun h => h.ticket) else a.stopTkt) else none }

/-- HOLD: velocity and acceleration zero, no homing (interpolator modes). -/
def State.toHold (s : State) (n : Nat) : State :=
  (s.onJoints n (fun s k => s.setJoint k { s.joint k with spV := 0, spA := 0, phase := .none, decel := false })).setMode n .hold

/-- JSTOP with a cause (R68). -/
def State.toStop (s : State) (n cause : Nat) : State :=
  let s := s.onJoints n (fun s k => s.setJoint k { s.joint k with phase := .none })
  let s := s.setMode n .jstop
  s.setArm n { s.arm n with stopCause := cause }

/-- A command refused with REASON (R60): 1 NOT_READY, 2 BUSY, 3 BAD_TARGET. -/
def State.refuse (s : State) (n r : Nat) : State :=
  ((s.setArm n { s.arm n with refused := true, reason := r }).setFld (JC_ARM_STAT_REFUSED n) 1).setFld (JC_ARM_STAT_REASON n) r

/-! ### Faults (R80) -/

/-- Whether a cause of R80 remains at a joint: its node's fault status, MISS_LIM cycles without a reply, STALE_LIM stale frames; of
the cause that is recorded on it, any cycle without a reply and any stale frame. -/
def State.causeRemains (s : State) (n k : Nat) : Bool :=
  let j := s.joint k
  (s.fld (TL_NODE_STAT_ST0 n (s.fld (JC_CFG_ADDR k) - 1))).testBit 3 ||
  decide (max 1 (s.fld (JC_ARM_CFG_MISS_LIM n)) ≤ j.missRun) || (j.fcause == 3 && decide (0 < j.missRun)) ||
  decide (max 1 (s.fld (JC_ARM_CFG_STALE_LIM n)) ≤ (s.arm n).staleRun) || (j.fcause == 6 && decide (0 < (s.arm n).staleRun))

/-- Whether some cause of an arm's fault remains. -/
def State.armCause (s : State) (n : Nat) : Bool := (s.armJoints n).any (fun k => s.causeRemains n k)

/-- A joint put into FAULT with a cause. -/
def State.faultJoint (s : State) (k cause : Nat) : State :=
  (s.setJoint k { s.joint k with state := .fault, fcause := cause, phase := .none, tout := 0, decel := false }).showJoint k

/-- An arm fault: `k` caused it, the others record ARM; with STALE every joint records STALE (R80). -/
def State.faultArm (s : State) (n k cause code : Nat) : State :=
  if (s.arm n).mode = .faulted then s else
  let s := s.onJoints n (fun s j => s.faultJoint j (if j = k ∨ cause = 6 then cause else 5))
  let s := (s.setMode n .faulted).showArm n
  s.sticky 65 n (k + cause * 256 + code * 65536)

/-- The joints cleared; the arm returns to HOLD once none is in FAULT (R80). -/
def State.clearJoints (s : State) (n : Nat) (ks : List Nat) : State :=
  let s := ks.foldl (fun s k =>
    if (s.joint k).state = .fault then
      s.setJoint k { s.joint k with state := .disabled, fcause := 0, missRun := 0, ferrRun := 0 } else s) s
  if (s.arm n).mode = .faulted ∧ (s.armJoints n).all (fun k => (s.joint k).state != .fault) then s.toHold n else s

/-! ### Commands taking effect at a cycle start (R60, R76, R78, R79) -/

/-- ENABLE of a DISABLED joint. -/
def State.enableJoint (s : State) (k : Nat) : State :=
  s.setJoint k { s.joint k with state := .enabling, since := s.nowNs, fcause := 0, missRun := 0, ferrRun := 0, hsRun := 0,
                                satDir := 0, spV := 0, spA := 0, tout := 0, decel := false }

/-- DISABLE of an ENABLED joint. -/
def State.disableJoint (s : State) (k : Nat) : State :=
  s.setJoint k { s.joint k with state := .disabling, since := s.nowNs }

/-- The offset offered to channel 2 at the completion of homing (R155). -/
def State.homeDone (s : State) (n k : Nat) : State :=
  let s := s.setJoint k { s.joint k with homed := true, phase := .none, offer := some (s.reg (JC_POS_OFS k)).toInt }
  s.toHold n

/-- HOME of joint `k` in HOLD: ABS and 3 complete at once (R78). -/
def State.homeJoint (s : State) (n k : Nat) : State :=
  let m := s.fld (JC_CFG_HMODE k)
  if m = 1 ∨ m = 2 then
    let s := s.setMode n .homing
    s.setJoint k { s.joint k with homed := false, phase := .search, rev := false, latP := false, latN := false, hsRun := 0 }
  else s.setJoint k { s.joint k with homed := true }

/-- A joint command takes effect or is refused. -/
def State.takeJoint (s : State) (n k c : Nat) : State :=
  let s := s.setJoint k { s.joint k with cmdNow := c, tgtRead := s.reg (JC_TGT k) }
  let j := s.joint k
  match c with
  | 1 => if j.state = .disabled ∧ (s.arm n).mode ≠ .faulted then s.enableJoint k else s.refuse n 2
  | 2 => if j.state = .enabled ∧ (s.arm n).mode = .hold then s.disableJoint k else s.refuse n 2
  | 3 => if !s.armReady n then s.refuse n 1 else if (s.arm n).mode = .hold then s.homeJoint n k else s.refuse n 2
  | 4 => if j.state = .fault ∧ !s.armCause n then s.clearJoints n [k] else s.refuse n 2
  | _ => s

/-- Whether a JOG velocity exceeds JC_VLIM. -/
def State.jogBad (s : State) (k : Nat) : Bool := decide ((s.effReg (JC_VLIM k)).toNat < (s.reg (JC_TGT k)).toInt.natAbs)

/-- Whether a MOVE target lies outside [JC_PMIN, JC_PMAX]. -/
def State.moveBad (s : State) (k : Nat) : Bool :=
  let t := (s.reg (JC_TGT k)).toInt
  decide (t < (s.effReg (JC_PMIN k)).toInt) || decide ((s.effReg (JC_PMAX k)).toInt < t)

/-- JC_TGT read by every joint when the command takes effect. -/
def State.readTargets (s : State) (n : Nat) : State :=
  s.onJoints n (fun s k => s.setJoint k { s.joint k with tgt := (s.reg (JC_TGT k)).toInt })

/-- The header's TGT of every joint of an arm: JC_TGT as it is when the arm's command takes effect (R82). -/
def State.noteTargets (s : State) (n : Nat) : State :=
  s.onJoints n (fun s k => s.setJoint k { s.joint k with tgtRead := s.reg (JC_TGT k) })

/-- An arm command takes effect or is refused. -/
def State.takeArm (s : State) (n c : Nat) : State :=
  let s := s.setArm n { s.arm n with cmdNow := c }
  let m := (s.arm n).mode
  if c = 0 ∨ 9 < c then s else
  let s := s.noteTargets n
  if (s.armJoints n).isEmpty then s.refuse n 1
  else match c with
  | 1 => if m ≠ .faulted ∧ s.armStill n then (if m = .hold then s else s.toHold n) else s.refuse n 2
  | 2 => if !s.armReady n then s.refuse n 1
         else if m = .hold then s.setArm n { s.arm n with trajArm := true } else s.refuse n 2
  | 3 => if !s.armReady n then s.refuse n 1
         else if m ≠ .hold ∧ m ≠ .jog then s.refuse n 2
         else if (s.armJoints n).any (fun k => s.jogBad k) then s.refuse n 3
         else (s.readTargets n).setMode n .jog
  | 4 => if !s.armReady n then s.refuse n 1
         else if m ≠ .hold then s.refuse n 2
         else if (s.armJoints n).any (fun k => s.moveBad k) then s.refuse n 3
         else (s.readTargets n).setMode n .move
  | 5 => if m = .faulted then s.refuse n 2 else if m = .jstop then s else s.toStop n 1
  | 6 => s.setArm n { s.arm n with holdZero := false }
  | 7 => if m = .faulted then s.refuse n 2
         else s.onJoints n (fun s k => if (s.joint k).state = .disabled then s.enableJoint k else s)
  | 8 => if m = .hold then s.onJoints n (fun s k => if (s.joint k).state = .enabled then s.disableJoint k else s)
         else s.refuse n 2
  | _ => if m = .faulted ∧ !s.armCause n then s.clearJoints n (s.armJoints n) else s.refuse n 2

/-- The pending commands of an arm and its joints take effect: the arm's first, then the joints' ascending (R60). -/
def State.takeCommands (s : State) (n : Nat) : State :=
  let s := s.setArm n { s.arm n with cmdNow := 0 }
  let s := match (s.arm n).pend with
    | some c => (s.setArm n { s.arm n with pend := none }).takeArm n c
    | none => s
  s.onJoints n (fun s k =>
    match (s.joint k).pend with
    | some c => (s.setJoint k { s.joint k with pend := none }).takeJoint n k c
    | none => s.setJoint k { s.joint k with cmdNow := 0 })

/-! ### Speed scale (R66, R67) -/

/-- hold_zero in this cycle: judged by the cycle's mode (R67). -/
def State.holdZeroNext (s : State) (n : Nat) : Bool :=
  let a := s.arm n
  a.mode == .traj && (a.pstop || (a.holdZero && !(s.fld (JC_ARM_CFG_AUTORESUME n) == 1)))

/-- S_eff after this cycle's update (R66): 0 in a rate acts as 1. -/
def State.seffNext (s : State) (n : Nat) : Nat :=
  let a := s.arm n
  let tgt := if a.pstop || s.holdZeroNext n then 0 else if a.scale = 0xFFFF then 65536 else a.scale
  let dn := max 1 (if a.pstop then s.effFld (JC_ARM_PSDROP_V n) else s.effFld (JC_ARM_SRATE_SDROP n))
  if tgt < a.sEff then max tgt (a.sEff - dn)
  else if a.sEff < tgt then min tgt (a.sEff + max 1 (s.effFld (JC_ARM_SRATE_SRISE n)))
  else a.sEff

/-! ### Horizons (R61, R62, R63) -/

/-- A ticket live and owned by arm `n` (R61). -/
def State.ticketOk (s : State) (n t : Nat) : Bool := s.flag (CV_TKT_STAT_LIVE t) && s.fld (CV_TKT_STAT_ARM t) == n

/-- The byte length of a horizon for `nj` joints. -/
def horLen (nknot nj : Nat) : Nat := 16 + nknot * 12 * nj

/-- The outcome of a commit (R61): BAD_HDR 5, BAD_START 6, LATE 3, NO_GRANT 4, or 1. -/
def State.judgeCommit (s : State) (n : Nat) : Nat × Horizon :=
  let a := s.fld (JC_ARM_HADDR_V n)
  let w0 := s.seWord n a
  let w1 := s.seWord n (a + 4)
  let w2 := s.seWord n (a + 8)
  let h : Horizon := ⟨false, a, bits w0 0 8, bits w0 8 16, w1, bits w2 0 10, s.seWord n (a + 12)⟩
  let nj := (s.armJoints n).length
  let code :=
    if h.nknot < 2 ∨ 64 < h.nknot ∨ h.step = 0 ∨ bits w0 24 8 ≠ 0 ∨ bits w2 10 22 ≠ 0 ∨ a % 8 ≠ 0 ∨ nj = 0 ∨
       a < 0x4000 ∨ 0x30000 < a + horLen h.nknot nj then 5
    else if s.fullTime w1 % (s.linePer n : Nat) ≠ 0 then 6
    else if reached w1 s.now then 3
    else if !s.ticketOk n h.ticket then 4
    else 1
  (code, h)

/-- A commit (R61): HSTAT reports its outcome. -/
def State.commitHorizon (s : State) (n : Nat) : State :=
  let r := s.judgeCommit n
  let a := s.arm n
  if r.1 = 1 then
    (s.setArm n { a with hstat := if a.pendHor.isSome then 9 else 1, pendHor := some r.2 }).showArm n
  else (s.setArm n { a with hstat := r.1 }).showArm n

/-- A knot word of a horizon: joint slot `q` of knot `i`, word `w` (0 position, 1 velocity, 2 acceleration). -/
def State.knot (s : State) (n : Nat) (h : Horizon) (i q w : Nat) : Int :=
  toS 32 (s.seWord n (h.addr + 16 + (i * (s.armJoints n).length + q) * 12 + 4 * w))

/-- Whether joint slot `q`, joint `k`, fails to join the horizon's first knot (R63). -/
def State.joinBad (s : State) (n : Nat) (h : Horizon) (q k : Nat) : Bool :=
  let j := s.joint k
  let dp := s.knot n h 0 q 0 * 2 ^ 24 - j.spP
  let dv := s.knot n h 0 q 1 * (s.seffNext n : Nat) * 2 ^ 8 - j.spV
  decide ((s.effReg (JC_ARM_JOINP n)).toNat * 2 ^ 24 < dp.natAbs) || decide ((s.effReg (JC_ARM_JOINV n)).toNat * 2 ^ 24 < dv.natAbs)

/-- The result of the second check of a pending horizon: NO_GRANT 4, WRONG_MODE 8, JOIN_ERR 7, or 2 (R63). -/
def State.judgeAdopt (s : State) (n : Nat) (h : Horizon) (live : Bool) : Nat :=
  let a := s.arm n
  if !live then 4
  else if !((a.mode == .hold && a.trajArm) || a.mode == .traj) then 8
  else if ((s.armJoints n).zipIdx).any (fun x => s.joinBad n h x.2 x.1) then 7
  else 2

/-- A horizon adopted, or discarded with its result (R63). -/
def State.adoptOr (s : State) (n : Nat) (h : Horizon) (live : Bool) : State :=
  let c := s.judgeAdopt n h live
  let s := s.setArm n { s.arm n with pendHor := none, hstat := c, dueHor := some (h.addr, live) }
  if c = 2 then
    let s := s.setMode n .traj
    s.setArm n { s.arm n with hor := some h, tau := 0, hseq := h.seq, trajArm := false }
  else s

/-- The pending horizon whose START is this cycle start or has passed, if any. -/
def State.dueHorizon (s : State) (n : Nat) (start : Nat) : Option Horizon :=
  match (s.arm n).pendHor with
  | some h => if reached h.start start then some h else none
  | none => none

/-- A write to `len` bytes at data address `a` of engine `n` touches a horizon pending or in use (R62). -/
def State.touchHorizon (s : State) (n a len : Nat) : State :=
  let nj := (s.armJoints n).length
  let hit := fun (h : Horizon) => decide (a < h.addr + horLen h.nknot nj) && decide (h.addr < a + len)
  let mark := fun (h : Horizon) => if hit h then { h with dirty := true } else h
  let r := s.arm n
  if (r.pendHor.any hit) || (r.hor.any hit) then
    s.setArm n { r with pendHor := r.pendHor.map mark, hor := r.hor.map mark }
  else s

/-! ### Parameter shadows (R71, R72, R416) -/

/-- The offsets of a joint's shadowed registers. -/
def jointShadows : List Nat := (List.range 29).map (fun i => 0x48 + 4 * i)

/-- The offsets of an arm's shadowed registers. -/
def armShadows : List Nat := [0x14, 0x18, 0x1C, 0x20, 0x24]

/-- A shadowed register's value brought into effect. -/
def State.putInEffect (s : State) (a : Nat) : State := s.setEff a (s.reg a)

/-- JC_DLIM brought into effect: deferred when smaller during a deceleration ramp, 0 acting as 1 (R72, R413). An APPLY that carries no
new JC_DLIM leaves a deferred value deferred. -/
def State.applyDlim (s : State) (k : Nat) : State :=
  let v := s.reg (JC_DLIM k)
  let j := s.joint k
  if j.defer.isSome && !j.dlimNew then s
  else if j.decel ∧ max 1 v.toNat < max 1 (s.effReg (JC_DLIM k)).toNat then
    s.setJoint k { j with defer := some v.toNat, dlimNew := false }
  else (s.setEff (JC_DLIM k) v).setJoint k { j with defer := none, dlimNew := false }

/-- The shadows of a joint brought into effect; PEND clears (R71, R416). -/
def State.applyJoint (s : State) (k : Nat) : State :=
  let s := (jointShadows.filter (fun o => o != 0x98)).foldl (fun s o => s.putInEffect (0x30000 + 0x100 * k + o)) s
  (s.applyDlim k).setFld (JC_STAT_PEND k) 0

/-- Every shadow of the arm and its joints brought into effect together (R71). -/
def State.applyArm (s : State) (n : Nat) : State :=
  let s := s.onJoints n (fun s k => s.applyJoint k)
  let s := armShadows.foldl (fun s o => s.putInEffect (0x34000 + 0x100 * n + o)) s
  s.setArm n { s.arm n with apply := none, paramDue := true }

/-- Whether an APPLY is due at a cycle start. -/
def State.applyDue (s : State) (n start : Nat) : Bool :=
  match (s.arm n).apply with
  | some t => reached t start
  | none => false

/-- A write of JC_ARM_APPLY (R71). -/
def State.writeApply (s : State) (n : Nat) (t : Word) : State :=
  if reached t.toNat s.now then s.setFld (JC_ARM_STAT_APPLY_LATE n) 1
  else s.setArm n { s.arm n with apply := some t.toNat }

/-- A joint or arm command written (R60): others than the listed codes have no effect. -/
def State.writeJointCmd (s : State) (k c : Nat) : State :=
  if 1 ≤ c ∧ c ≤ 4 ∧ s.flag (JC_CFG_USED k) then s.setJoint k { s.joint k with pend := some c } else s
def State.writeArmCmd (s : State) (n c : Nat) : State :=
  if 1 ≤ c ∧ c ≤ 9 then s.setArm n { s.arm n with pend := some c } else s

/-! ### The commands -/

/-- ENABLE (R60, R76). -/
def execEnable (i : Initiator) (k : Fin 64) (s : State) : Out := .next (s.gated i (JC_CMD k) fun s => s.writeJointCmd k 1)
/-- DISABLE (R60, R76). -/
def execDisable (i : Initiator) (k : Fin 64) (s : State) : Out := .next (s.gated i (JC_CMD k) fun s => s.writeJointCmd k 2)
/-- JOINT_HOME (R60, R78). -/
def execJointHome (i : Initiator) (k : Fin 64) (s : State) : Out := .next (s.gated i (JC_CMD k) fun s => s.writeJointCmd k 3)
/-- JOINT_CLEAR (R60, R80). -/
def execJointClear (i : Initiator) (k : Fin 64) (s : State) : Out := .next (s.gated i (JC_CMD k) fun s => s.writeJointCmd k 4)
/-- HOLD (R60). -/
def execHold (i : Initiator) (n : Fin 8) (s : State) : Out := .next (s.gated i (JC_ARM_CMD n) fun s => s.writeArmCmd n 1)
/-- TRAJ (R60, R63). -/
def execTraj (i : Initiator) (n : Fin 8) (s : State) : Out := .next (s.gated i (JC_ARM_CMD n) fun s => s.writeArmCmd n 2)
/-- JOG (R60). -/
def execJog (i : Initiator) (n : Fin 8) (s : State) : Out := .next (s.gated i (JC_ARM_CMD n) fun s => s.writeArmCmd n 3)
/-- ARM_MOVE (R60, R69). -/
def execArmMove (i : Initiator) (n : Fin 8) (s : State) : Out := .next (s.gated i (JC_ARM_CMD n) fun s => s.writeArmCmd n 4)
/-- ARM_STOP (R60, R68). -/
def execArmStop (i : Initiator) (n : Fin 8) (s : State) : Out := .next (s.gated i (JC_ARM_CMD n) fun s => s.writeArmCmd n 5)
/-- RESUME (R60, R67). -/
def execResume (i : Initiator) (n : Fin 8) (s : State) : Out := .next (s.gated i (JC_ARM_CMD n) fun s => s.writeArmCmd n 6)
/-- ENABLE_ALL (R60). -/
def execEnableAll (i : Initiator) (n : Fin 8) (s : State) : Out := .next (s.gated i (JC_ARM_CMD n) fun s => s.writeArmCmd n 7)
/-- DISABLE_ALL (R60). -/
def execDisableAll (i : Initiator) (n : Fin 8) (s : State) : Out := .next (s.gated i (JC_ARM_CMD n) fun s => s.writeArmCmd n 8)
/-- CLEAR_ALL (R60, R80). -/
def execClearAll (i : Initiator) (n : Fin 8) (s : State) : Out := .next (s.gated i (JC_ARM_CMD n) fun s => s.writeArmCmd n 9)
/-- HORIZON_COMMIT (R61). -/
def execHorizonCommit (i : Initiator) (n : Fin 8) (s : State) : Out :=
  .next (s.gated i (JC_ARM_HCOMMIT n) fun s => s.commitHorizon n)
/-- ARM_APPLY (R71). -/
def execArmApply (i : Initiator) (n : Fin 8) (t : Word) (s : State) : Out :=
  .next (s.gated i (JC_ARM_APPLY n) fun s => s.writeApply n t)
/-- ENABLE_TIMEOUT (the joint states' table): DISABLED after ENTO ms, with cause ENTO from ENABLING. -/
def execEnableTimeout (k : Fin 64) (s : State) : Out :=
  let j := s.joint k
  let lim := max 1 (s.fld (JC_ARM_CFG_ENTO (s.fld (JC_CFG_ARM k)))) * 1000000
  .next (if s.underWay && s.flag (JC_CFG_USED k) && decide (j.since + lim ≤ s.nowNs) then
    (if j.state = .enabling then (s.setJoint k { j with state := .disabled, fcause := 4 }).showJoint k
     else if j.state = .disabling then (s.setJoint k { j with state := .disabled }).showJoint k
     else s) else s)
/-- STALE_FAULT (R74): STALE_LIM consecutive frames were stale. -/
def execStaleFault (n : Fin 8) (s : State) : Out :=
  .next (if s.underWay && decide (max 1 (s.fld (JC_ARM_CFG_STALE_LIM n)) ≤ (s.arm n).staleRun) && (s.arm n).mode != .faulted &&
      !(s.armJoints n).isEmpty then
    (s.sticky 64 n ((s.eng n).cycNum % 2 ^ 32)).faultArm n ((s.armJoints n).headD 0) 6 0
  else s)
/-- NOFB_FAULT (R75): MISS_LIM consecutive cycles without a reply of a joint. -/
def execNofbFault (n : Fin 8) (s : State) : Out :=
  .next (if s.underWay then
    match (s.armJoints n).find? (fun k => decide (max 1 (s.fld (JC_ARM_CFG_MISS_LIM n)) ≤ (s.joint k).missRun)) with
    | some k => s.faultArm n k 3 0
    | none => s
  else s)
/-- FERR_FAULT (R77). -/
def execFerrFault (k : Fin 64) (s : State) : Out :=
  let n := s.fld (JC_CFG_ARM k)
  .next (if s.underWay && s.flag (JC_CFG_USED k) && (s.effReg (JC_FERRLIM k) != 0) && (s.joint k).state.live &&
      decide (max 1 (s.fld (JC_ARM_CFG_FERRCNT n)) ≤ (s.joint k).ferrRun) then s.faultArm n k 2 0 else s)

/-- A change of the position offset: set-point and feedback shift by the same amount (R78). -/
def State.shiftOffset (s : State) (n k : Nat) (d : Int) : State :=
  let j := s.joint k
  let s := s.setReg (JC_POS_OFS k) (BitVec.ofInt 32 ((s.reg (JC_POS_OFS k)).toInt + d))
  let s := s.setJoint k { j with spP := satS 56 (j.spP + d * 2 ^ 24), fbP := satS 32 (j.fbP + d), latPos := j.latPos + d, latPosN := j.latPosN + d }
  s.setArm n { s.arm n with paramDue := true }

/-- The sign of a number. -/
def sgn (x : Int) : Int := if 0 < x then 1 else if x < 0 then -1 else 0

/-- The search velocity with its direction (R79). -/
def State.homeVel (s : State) (k : Nat) : Int :=
  let v := (s.effReg (JC_HOME_VEL k)).toInt
  if (s.joint k).rev then -v else v

/-- HOME_HARDSTOP_DETECT (R78): 32 consecutive cycles at the hard-stop torque. -/
def execHomeHardstopDetect (k : Fin 64) (s : State) : Out :=
  let j := s.joint k
  let n := s.fld (JC_CFG_ARM k)
  .next (if s.underWay && s.flag (JC_CFG_USED k) && j.phase == .search && s.fld (JC_CFG_HMODE k) == 2 && decide (32 ≤ j.hsRun) then
    let ofs := (s.effReg (JC_HOME_OFS k)).toInt
    let s' := s.shiftOffset n k (ofs - j.fbP)
    s'.setJoint k { s'.joint k with
      phase := .backoff, hsRun := 0, tgt := ofs - sgn (s.homeVel k) * ((s.effReg (JC_HOME_REL k)).toNat : Int) }
  else s)

end Sys2Proof.Machine
end

