-- ==== Sys2Proof/Machine/Motion.lean ====
section
/-! DEFINITION. The interpolator: quintic horizons, stop_reach, the jerk-limited follower, homing phases and the modes
(R64 to R70, R78, R79, R413). Positions and velocities carry 2⁻⁴⁸ and accelerations 2⁻⁴⁴ as their least bit; quotients are
floors. -/

namespace Sys2Proof.Machine

/-- The limits of a joint in effect, in the carried units: VLIM 2⁻⁴⁸, ALIM and DLIM 2⁻⁴⁴, JLIM raw 2⁻¹⁶ (R413), PMIN and PMAX
2⁻⁴⁸. -/
structure Limits where
  v : Int
  a : Int
  d : Int
  j : Int
  pmin : Int
  pmax : Int
  deriving DecidableEq, Repr

/-- The limits in effect of joint `k`; a JC_DLIM or JC_JLIM of 0 acts as one least bit (R413). -/
def State.limits (s : State) (k : Nat) : Limits where
  v := ((s.effReg (JC_VLIM k)).toNat : Int) * 2 ^ 24
  a := ((s.effReg (JC_ALIM k)).toNat : Int) * 2 ^ 24
  d := (max 1 (s.effReg (JC_DLIM k)).toNat : Nat) * 2 ^ 24
  j := (max 1 (s.effReg (JC_JLIM k)).toNat : Nat)
  pmin := (s.effReg (JC_PMIN k)).toInt * 2 ^ 24
  pmax := (s.effReg (JC_PMAX k)).toInt * 2 ^ 24

/-! ### stop_reach -/

/-- The position gained in `n / j` seconds from velocity `v` and acceleration `a` under the jerk `r·j` (2⁻⁴⁸ units). -/
def rampPos (v a j n r : Int) : Int := (6 * v * n * j + 3 * a * n * n + r * n * n * n) / (6 * j * j)

/-- The distance of the jerk-limited stop from `v > 0`, to the first zero of the velocity (2⁻⁴⁸ units). -/
def stopFwd (v a d j : Int) : Int :=
  if -d ≤ a then
    let n0 := a + (isqrt (a * a + 2 * j * v).toNat : Int)
    if n0 ≤ a + d then rampPos v a j n0 (-1)
    else
      let n := a + d
      let v1 := max 0 (v + (a * a - d * d) / (2 * j))
      rampPos v a j n (-1) + v1 * v1 / (2 * d)
  else
    let n := -d - a
    let disc := a * a - 2 * j * v
    let n0 := -a - (isqrtUp disc.toNat : Int)
    if 0 ≤ disc ∧ n0 ≤ n then rampPos v a j n0 1
    else
      let v1 := max 0 (v + (2 * a * n + n * n) / (2 * j))
      rampPos v a j n 1 + v1 * v1 / (2 * d)

/-- stop_reach: where the velocity first reaches zero under JC_DLIM and JC_JLIM. -/
def stopReach (l : Limits) (p v a : Int) : Int :=
  let a48 := a * 16
  let d := l.d * 16
  let j := l.j * 2 ^ 32
  if 0 < v then p + stopFwd v a48 d j
  else if v < 0 then p - stopFwd (-v) (-a48) d j
  else p

/-! ### The follower -/

/-- What the follower aims at: a target velocity, a target position, or zero velocity. -/
inductive Aim where
  | vel (v : Int)
  | pos (p : Int)
  | stop
  deriving DecidableEq, Repr

/-- The follower's set-points after one cycle of `p` ns, and whether the snap rule ended a move (the follower, R68). With phase
stop and in JSTOP, a velocity that reaches zero or would change sign ends at zero. -/
def follow (l : Limits) (vlim p : Int) (aim : Aim) (sp sv sa : Int) : Int × Int × Int × Bool :=
  let d := match aim with | .pos t => t - sp | _ => 0
  let vg := match aim with
    | .vel v => clampI (-vlim) vlim v
    | .pos _ => if (d.natAbs : Int) ≤ ((stopReach l 0 sv sa).natAbs : Int) then 0 else vlim * sgn d
    | .stop => 0
  let dv := vg - sv
  let tail := sa * (sa.natAbs : Int) / (l.j * 2 ^ 25)
  let lim := if (sv.natAbs < vg.natAbs ∧ sgn vg = sgn sv) ∨ sv = 0 then l.a else l.d
  let ag := if 0 < dv - tail then lim else if dv - tail < 0 then -lim else 0
  let dj := l.j * 2 ^ 28 * p / 1000000000
  let sa1 := sa + clampI (-dj) dj (ag - sa)
  let sv1 := sv + sa1 * 16 * p / 1000000000
  let cross := aim = .stop ∧ (sv = 0 ∨ sgn sv1 ≠ sgn sv)
  let sa2 := if cross then 0 else sa1
  let sv2 := if cross then 0 else sv1
  let sp1 := sp + sv2 * p / 1000000000
  match aim with
  | .pos t =>
    if (d.natAbs : Int) ≤ (sv2.natAbs : Int) * p / 1000000000 ∧ (sv2.natAbs : Int) ≤ l.a * 16 * p / 1000000000 then (t, 0, 0, true)
    else (sp1, sv2, sa2, false)
  | _ => (sp1, sv2, sa2, false)

/-- JC_VLIM × S_eff / 65 536 (R66). -/
def State.vlimEff (s : State) (n k : Nat) : Int := (s.limits k).v * ((s.arm n).sEff : Int) / 65536

/-- A joint's set-points replaced, held in 56-bit accumulators that saturate (R54, R86). -/
def Joint.withSp (j : Joint) (p v a : Int) : Joint := { j with spP := satS 56 p, spV := satS 56 v, spA := satS 56 a }

/-- A joint's set-points of the follower; the deceleration ramp judged (R70). -/
def State.putSp (s : State) (k : Nat) (p v a : Int) : State :=
  let j := s.joint k
  s.setJoint k { j.withSp p v a with decel := decide (v.natAbs < j.spV.natAbs) && v != 0 }

/-- A joint's set-points of a horizon: no deceleration ramp in TRAJ (R70). -/
def State.putTraj (s : State) (k : Nat) (p v a : Int) : State :=
  s.setJoint k { (s.joint k).withSp p v a with decel := false }

/-- One follower cycle of a joint. -/
def State.followJoint (s : State) (n k : Nat) (aim : Aim) : State × Bool :=
  let j := s.joint k
  let r := follow (s.limits k) (s.vlimEff n k) (s.linePer n) aim j.spP j.spV j.spA
  (s.putSp k r.1 r.2.1 r.2.2.1, r.2.2.2)

/-! ### Horizons -/

/-- The six scaled coefficients of the quintic between two knots, with factor 2·10¹⁸; `t` is the spacing in ns. -/
def quinticCoef (t p0 v0 a0 p1 v1 a1 : Int) : List Int :=
  let k : Int := 2000000000000000000
  let dp := (p1 - p0) * k
  let w0 := v0 * t * 2000000000
  let w1 := v1 * t * 2000000000
  let b0 := a0 * t * t * 32
  let b1 := a1 * t * t * 32
  [p0 * k, w0, b0 / 2, 10 * dp - 6 * w0 - 4 * w1 - 3 * b0 / 2 + b1 / 2, -15 * dp + 8 * w0 + 7 * w1 + 3 * b0 / 2 - b1,
   6 * dp - 3 * w0 - 3 * w1 - b0 / 2 + b1 / 2]

/-- `Σ f(i)·cᵢ·wⁱ⁻ʳ·W⁵⁻ⁱ` over i ≥ r. -/
def polySum (cs : List Int) (w ww : Int) (r : Nat) (f : Nat → Int) : Int :=
  (cs.zipIdx.map (fun c => if c.2 < r then 0 else f c.2 * c.1 * w ^ (c.2 - r) * ww ^ (5 - c.2))).foldl (fun a b => a + b) 0

/-- Position and velocity in 2⁻⁴⁸, acceleration in 2⁻⁴⁴, jerk in 2⁻⁴⁰ of a quintic at `w` of `ww`. -/
def quinticAt (cs : List Int) (t w ww : Int) : Int × Int × Int × Int :=
  let k : Int := 2000000000000000000
  let g : Int := 1000000000
  (polySum cs w ww 0 (fun _ => 1) * 2 ^ 24 / (k * ww ^ 5),
   polySum cs w ww 1 (fun i => i) * g * 2 ^ 24 / (k * ww ^ 4 * t),
   polySum cs w ww 2 (fun i => i * (i - 1)) * g ^ 2 * 2 ^ 20 / (k * ww ^ 3 * t ^ 2),
   polySum cs w ww 3 (fun i => i * (i - 1) * (i - 2)) * g ^ 3 * 2 ^ 16 / (k * ww ^ 2 * t ^ 3))

/-- The end of a horizon, in 2⁻¹⁶ cycles. -/
def horEnd (h : Horizon) : Nat := (h.nknot - 1) * h.step * 65536

/-- The horizon's values for joint slot `q` at τ (quintic). -/
def State.horAt (s : State) (n : Nat) (h : Horizon) (q tau : Nat) : Int × Int × Int × Int :=
  let ww := h.step * 65536
  let i := min (tau / ww) (h.nknot - 2)
  let t := (h.step * s.linePer n : Nat)
  let c := quinticCoef t (s.knot n h i q 0) (s.knot n h i q 1) (s.knot n h i q 2)
    (s.knot n h (i + 1) q 0) (s.knot n h (i + 1) q 1) (s.knot n h (i + 1) q 2)
  quinticAt c t (tau - i * ww : Nat) ww

/-- The values of a horizon whose memory was written while in use: free (R62). -/
def State.horFree (s : State) : (Int × Int × Int × Int) × State :=
  let a := s.draw 56
  let b := a.2.draw 56
  let c := b.2.draw 56
  let d := c.2.draw 56
  ((a.1.toInt, b.1.toInt, c.1.toInt, d.1.toInt), d.2)

/-- Whether a joint's set-points of this cycle break a limit in TRAJ: 2 TRAJ_LIMIT, 3 SOFT_LIMIT, 0 none (R68). -/
def trajCheck (l : Limits) (se : Int) (vr ar jr sv sa sp : Int) : Nat :=
  let al := if 0 < ar * vr then l.a else l.d
  if l.v < sv.natAbs ∨ al * 2 ^ 32 < se * se * (ar.natAbs : Int) ∨ l.j * 2 ^ 72 < se * se * se * (jr.natAbs : Int) then 2
  else
    let r := stopReach l sp sv sa
    if r < l.pmin ∨ l.pmax < r then 3 else 0

/-- The set-points of the joints of a horizon, in order, until one fails a check: its joint and cause. -/
def trajJoints (n : Nat) (h : Horizon) (tau : Nat) : List (Nat × Nat) → State → State × Option (Nat × Nat)
  | [], s => (s, none)
  | (k, q) :: ks, s =>
    let a := s.arm n
    let x := if h.dirty then s.horFree else (s.horAt n h q tau, s)
    let s := x.2
    let se : Int := a.sEff
    let ds : Int := (a.sEff : Int) - a.sPrev
    let vr := x.1.2.1
    let ar := x.1.2.2.1
    let sv := satS 56 (vr * se / 65536)
    let sa := satS 56 (ar * se * se / 2 ^ 32 + ds * vr * 1000000000 / (65536 * 16 * (s.linePer n : Int)))
    match trajCheck (s.limits k) se vr ar x.1.2.2.2 sv sa x.1.1 with
    | 0 => trajJoints n h tau ks (s.putTraj k x.1.1 sv sa)
    | c => (s, some (k, c))

/-! ### JSTOP -/

/-- JSTOP ends in HOLD when every set-point velocity is zero (R68). -/
def State.stopEnds (s : State) (n : Nat) : State := if s.armStill n then s.toHold n else s

/-- One cycle of JSTOP. -/
def State.stopCycle (s : State) (n : Nat) : State :=
  (s.onJoints n (fun s k => (s.followJoint n k .stop).1)).stopEnds n

/-- A soft-limit stop marks its joint (R68). -/
def State.markSoft (s : State) (k cause : Nat) : State :=
  if cause = 3 then s.setJoint k { s.joint k with softLimit := true } else s

/-- JSTOP started in this cycle from the set-points of the cycle before, `old`, whose follower gives this cycle's (R68). -/
def State.stopFrom (s : State) (n : Nat) (old : Tab Joint) (k cause : Nat) : State :=
  let s := s.onJoints n (fun s k =>
    let o := tabGet (fun _ => Joint.reset) old k
    s.setJoint k { s.joint k with spP := o.spP, spV := o.spV, spA := o.spA, decel := o.decel })
  ((s.markSoft k cause).toStop n cause).stopCycle n

/-- One cycle of TRAJ (the interpolator update, R64, R68). -/
def State.trajCycle (s : State) (n : Nat) : State :=
  match (s.arm n).hor with
  | none => s
  | some h =>
    let old := s.joints
    let fin := horEnd h
    let tau := min (s.arm n).tau fin
    let r := trajJoints n h tau (s.armJoints n).zipIdx s
    match r.2 with
    | some (k, c) => r.1.stopFrom n old k c
    | none =>
      let s := r.1
      if tau = fin then
        let rest := ((s.armJoints n).zipIdx).all (fun x => s.knot n h (h.nknot - 1) x.2 1 == 0 && s.knot n h (h.nknot - 1) x.2 2 == 0)
        if rest then s.toHold n else s.toStop n 4
      else s.setArm n { s.arm n with tau := min fin (tau + (s.arm n).sEff) }

/-! ### JOG and MOVE -/

/-- Whether a joint's stop would leave its soft limits: the guard of JOG. -/
def State.softBad (s : State) (k : Nat) : Bool :=
  let j := s.joint k
  let l := s.limits k
  let r := stopReach l j.spP j.spV j.spA
  decide (r < l.pmin) || decide (l.pmax < r)

/-- One cycle of JOG. -/
def State.jogCycle (s : State) (n : Nat) : State :=
  let old := s.joints
  let s := s.onJoints n (fun s k => (s.followJoint n k (.vel ((s.joint k).tgt * 2 ^ 24))).1)
  match (s.armJoints n).find? (fun k => s.softBad k) with
  | some k => s.stopFrom n old k 3
  | none => s

/-- One cycle of MOVE: HOLD when every joint is done (R69). -/
def moveJoints (n : Nat) : List Nat → State → State × Bool
  | [], s => (s, true)
  | k :: ks, s =>
    let r := s.followJoint n k (.pos ((s.joint k).tgt * 2 ^ 24))
    let q := moveJoints n ks r.1
    (q.1, r.2 && q.2)

def State.moveCycle (s : State) (n : Nat) : State :=
  let r := moveJoints n (s.armJoints n) s
  if r.2 then r.1.toHold n else r.1

/-! ### Homing (R78, R79) -/

/-- The reply record used for joint `k` in this cycle, if its node's was accepted. -/
def State.jointReply (s : State) (n k : Nat) : Option (List Byte) :=
  let a := s.fld (JC_CFG_ADDR k)
  if 1 ≤ a ∧ (s.line n).rx.testBit (a - 1) then some (tabGet (fun _ => []) (s.line n).used a) else none

/-- A raw count with the joint's sign (R56). -/
def State.rawSign (s : State) (k : Nat) (raw : Int) : Int :=
  if s.flag (JC_CFG_PINV k) then (if raw = -2147483648 then 2147483647 else -raw) else raw

/-- A raw position count as a joint position (R56). -/
def State.rawPos (s : State) (k raw : Nat) : Int :=
  satS 32 (asr (s.rawSign k (toS 32 raw) * ((s.reg (JC_PSCALE k)).toNat : Int)) 24 + (s.reg (JC_POS_OFS k)).toInt)

/-- A raw velocity as a joint velocity (R179). -/
def State.rawVel (s : State) (k raw : Nat) : Int :=
  satS 32 (asr (asr (s.rawSign k (toS 32 raw) * ((s.reg (JC_PSCALE k)).toNat : Int)) 24) 8)

/-- The joint's positive and negative limits in a reply (R56). -/
def State.limitBits (s : State) (k : Nat) (r : List Byte) : Bool × Bool :=
  let b := leAt r 1 1
  if s.flag (JC_CFG_PINV k) then (b.testBit 5, b.testBit 4) else (b.testBit 4, b.testBit 5)

/-- The limit latches of a homing joint: set on the first assertion; released after JC_HOME_REL back, the limit off (R79). -/
def State.latchLimits (s : State) (n k : Nat) : State :=
  match s.jointReply n k with
  | none => s
  | some r =>
    let j := s.joint k
    let b := s.limitBits k r
    let rel := ((s.effReg (JC_HOME_REL k)).toNat : Int)
    let offP := j.latP && !b.1 && decide (j.fbP ≤ j.latPos - rel)
    let offN := j.latN && !b.2 && decide (j.latPosN + rel ≤ j.fbP)
    let newP := b.1 && !j.latP
    let newN := b.2 && !j.latN
    s.setJoint k { j with
      latP := (j.latP || b.1) && !offP, latN := (j.latN || b.2) && !offN,
      latPos := if newP then j.fbP else j.latPos, latPosN := if newN then j.fbP else j.latPosN }

/-- The search phase: an index captured, or a limit in the direction of search (R78, R79). -/
def State.searchEvents (s : State) (n k : Nat) : State :=
  let j := s.joint k
  let up := decide (0 < s.homeVel k)
  let lim := if up then j.latP else j.latN
  match s.jointReply n k with
  | some r =>
    if s.fld (JC_CFG_HMODE k) = 1 ∧ (leAt r 1 1).testBit 6 then
      let s := s.shiftOffset n k ((s.effReg (JC_HOME_OFS k)).toInt - s.rawPos k (leAt r 0x10 4))
      s.setJoint k { s.joint k with phase := .stop }
    else if lim then s.setJoint k { j with phase := if j.rev || s.flag (JC_CFG_LIMACT k) then .abort else .turn } else s
  | none => if lim then s.setJoint k { j with phase := if j.rev || s.flag (JC_CFG_LIMACT k) then .abort else .turn } else s

/-- What follows when a homing stop has reached zero velocity (R78, R79). -/
def State.homeStopped (s : State) (n k : Nat) : State :=
  let j := s.joint k
  if j.spV ≠ 0 then s else
  match j.phase with
  | .turn => s.setJoint k { j with phase := .search, rev := true }
  | .stop => s.homeDone n k
  | .abort => (s.setJoint k { j with homeLimit := true, phase := .none }).toHold n
  | _ => s

/-- One cycle of HOMING: the homing joint by its phase, the others at zero velocity. -/
def State.homeCycle (s : State) (n : Nat) : State :=
  match (s.armJoints n).find? (fun k => (s.joint k).phase != .none) with
  | none => s.toHold n
  | some k =>
    let s := s.latchLimits n k
    let s := if (s.joint k).phase = .search then s.searchEvents n k else s
    let s := s.onJoints n (fun s j => if j = k then s else (s.followJoint n j .stop).1)
    match (s.joint k).phase with
    | .search => (s.followJoint n k (.vel (s.homeVel k * 2 ^ 24))).1
    | .backoff =>
      let r := s.followJoint n k (.pos ((s.joint k).tgt * 2 ^ 24))
      if r.2 then r.1.homeDone n k else r.1
    | _ => ((s.followJoint n k .stop).1).homeStopped n k

/-! ### The cycle of an arm's interpolator -/

/-- The effective scale updated (R66, R67). -/
def State.scaleCycle (s : State) (n : Nat) : State :=
  let hz := s.holdZeroNext n
  let e := s.seffNext n
  s.setArm n { s.arm n with holdZero := hz, sPrev := (s.arm n).sEff, sEff := e }

/-- A deferred JC_DLIM applies in the first cycle with zero velocity (R72). -/
def State.settleDlim (s : State) (n k : Nat) : State :=
  let j := s.joint k
  match j.defer with
  | some v =>
    if j.spV = 0 then
      ((s.setEff (JC_DLIM k) (BitVec.ofNat 32 v)).setJoint k { j with defer := none }).setArm n { s.arm n with paramDue := true }
    else s
  | none => s

/-- One cycle of the interpolator (the modes' table, R64 to R69): a protective stop in JOG, MOVE and HOMING starts JSTOP. -/
def State.moveArm (s : State) (n : Nat) : State :=
  let m := (s.arm n).mode
  if (s.arm n).pstop ∧ (m = .jog ∨ m = .move ∨ m = .homing) then (s.toStop n 5).stopCycle n
  else match m with
  | .hold | .faulted => s
  | .traj => s.trajCycle n
  | .jog => s.jogCycle n
  | .move => s.moveCycle n
  | .jstop => s.stopCycle n
  | .homing => s.homeCycle n

end Sys2Proof.Machine
end

