-- ==== Sys2Proof/Machine/Cascade.lean ====
section
/-! DEFINITION. The joint control program of an engine: feedback, joint states, the cascade, the output block and the status
words, and what the sequencer writes and reads (R54 to R59, R75 to R77, R82, R91, R92, R97, R414, R415). -/

namespace Sys2Proof.Machine

/-! ### Stage values: mantissas with exponents, exact values in 2⁻³³ of the base least bit -/

/-- A stage exponent, held between −16 and 15 (R55). -/
def stageExp (v : Nat) : Int := clampI (-16) 15 (toS 8 v)

/-- `x · 2^e` for `e` of either sign, with `x` scaled so that nothing is lost. -/
def scaleUp (x : Int) (e : Int) : Int := x * ((2 ^ (e + 33).toNat : Nat) : Int)

/-- A value in 2⁻³³ base bits as a 24-bit mantissa at exponent `e`, truncated and saturated, and whether it saturated (R55). -/
def toMant (x e : Int) : Int × Bool :=
  let m := asr x (e + 33).toNat
  (satS 24 m, !fitsS 24 m)

/-- A value in 2⁻³³ of 2⁻²³ of peak as a 56-bit accumulator holds it whose least bit is `2^e` times 2⁻⁴⁰ of peak: saturated, and
whether it was (R86, R87, R414). -/
def torqueSat (x e : Int) : Int × Bool :=
  let w : Int := ((2 ^ (e + 16).toNat : Nat) : Int)
  let y := clampI (-(2 ^ 55 * w)) ((2 ^ 55 - 1) * w) x
  (y, y != x)

/-- One biquad section (direct form I): the accumulator in Q3.21 of mantissas and the section after it. -/
def biquad (c : List Int) (b : Biquad) (x : Int) : Int × Biquad × Bool :=
  match c with
  | [b0, b1, b2, a1, a2] =>
    let acc := b0 * x + b1 * b.x1 + b2 * b.x2 - a1 * b.y1 - a2 * b.y2
    let y := asr acc 21
    (acc, ⟨x, b.x1, satS 24 y, b.y1⟩, !fitsS 24 y)
  | _ => (0, b, false)

/-- The coefficients in effect of a biquad whose registers begin at `a`. -/
def State.bqCoef (s : State) (a : Nat) : List Int := (List.range 5).map (fun i => toS 24 (s.effReg (a + 4 * i)).toNat)

/-- What the cascade leaves: torque reference, the direction of its clamp, integrator, biquads, whether a stage saturated. -/
structure CascadeOut where
  tout : Int
  dir : Int
  integ : Int
  bq1 : Biquad
  bq2 : Biquad
  sat : Bool
  deriving DecidableEq, Repr

/-- The stages after `t` (2⁻³³ of 2⁻²³ of peak): BQ1, BQ2 and TFF as enabled, then Q1.23 (R414). -/
def State.stages (s : State) (k : Nat) (t : Int) (j : Joint) : Int × Biquad × Biquad × Bool :=
  let e1 := stageExp (s.effFld (JC_EXP1_BQ1 k))
  let e2 := stageExp (s.effFld (JC_EXP1_BQ2 k))
  let e3 := stageExp (s.effFld (JC_EXP1_TFF k))
  let r1 := if s.flag (JC_CFG_BQ1EN k) then
      let m := toMant t e1
      let b := biquad (s.bqCoef (JC_BQ1 k 0)) j.bq1 m.1
      (asr (scaleUp b.1 e1) 21, b.2.1, m.2 || b.2.2)
    else (t, j.bq1, false)
  let r2 := if s.flag (JC_CFG_BQ2EN k) then
      let m := toMant r1.1 e2
      let b := biquad (s.bqCoef (JC_BQ2 k 0)) j.bq2 m.1
      (asr (scaleUp b.1 e2) 21, b.2.1, m.2 || b.2.2)
    else (r1.1, j.bq2, false)
  let r3 := if s.flag (JC_CFG_TFFEN k) then
      let m := toMant r2.1 e3
      let f := toMant (scaleUp j.tff 0) e3
      let y := m.1 + f.1
      (scaleUp (satS 24 y) e3, m.2 || f.2 || !fitsS 24 y)
    else (r2.1, false)
  let q := toMant r3.1 0
  (q.1, r1.2.1, r2.2.1, r1.2.2 || r2.2.2 || r3.2 || q.2)

/-- The cascade of a joint in one cycle of `p` ns (the cascade, R55, R414). -/
def State.cascade (s : State) (k : Nat) (p : Int) (j : Joint) : CascadeOut :=
  let ep := stageExp (s.effFld (JC_EXP0_PERR k))
  let ev := stageExp (s.effFld (JC_EXP0_VCMD k))
  let ee := stageExp (s.effFld (JC_EXP0_VERR k))
  let ei := stageExp (s.effFld (JC_EXP0_INTEG k))
  let perr := toMant (scaleUp (asr j.spP 24 - j.fbP) 0) ep
  let kp : Int := s.effFld (JC_KP_V k)
  let kvff : Int := s.effFld (JC_KVFF_V k)
  let vcmd := toMant (asr (scaleUp perr.1 ep * kp * 4 + scaleUp (asr j.spV 24) 0 * kvff) 14) ev
  let verr := toMant (scaleUp vcmd.1 ev - scaleUp j.fbV 0) ee
  let uu := scaleUp verr.1 ee * (s.effFld (JC_KV_V k) : Int)
  let u := asr uu 17
  let il : Int := s.effFld (JC_ILIM_V k)
  let add := uu * (s.effFld (JC_KI_V k) : Int) * p / (2 ^ 17 * 4096 * 1000000000)
  let held := j.satDir ≠ 0 ∧ sgn uu = j.satDir
  let integ := if held then (j.integ, false)
    else toMant (clampI (-(scaleUp il 0)) (scaleUp il 0) (scaleUp j.integ ei + add)) ei
  let ai := torqueSat (scaleUp integ.1 ei) ee
  let t := torqueSat (u + ai.1) ee
  let r := s.stages k t.1 j
  let tpos : Int := s.effFld (JC_TLIM_TPOS k) * 128
  let tneg : Int := s.effFld (JC_TLIM_TNEG k) * 128
  let tout := clampI (-tneg) tpos r.1
  ⟨tout, sgn (r.1 - tout), integ.1, r.2.1, r.2.2.1, perr.2 || vcmd.2 || verr.2 || integ.2 || ai.2 || t.2 || r.2.2.2⟩

/-! ### Feedback (the cascade's first lines, R56, R58, R75, R179) -/

/-- A cycle of a replying line as a joint counts it: with a reply, or without (R75). -/
def State.countReply (s : State) (n k : Nat) : State :=
  match s.jointReply n k with
  | some _ => (s.setJoint k { s.joint k with nofb := false, missRun := 0 }).setFld (JC_STAT_NOFB k) 0
  | none => ((s.setJoint k { s.joint k with nofb := true, missRun := (s.joint k).missRun + 1 }).setFld (JC_STAT_NOFB k) 1).setFld
      (JC_MISSCNT_N k) (satInc 16 (s.fld (JC_MISSCNT_N k)))

/-- Every configured joint of an arm counts the cycle (R75). -/
def State.countReplies (s : State) (n : Nat) : State := s.onJoints n (fun s k => s.countReply n k)

/-- A joint's feedback of this cycle; a cycle without a reply holds it. -/
def State.feedback (s : State) (n k : Nat) : State :=
  let j := s.joint k
  let p := (s.linePer n : Int)
  match s.jointReply n k with
  | some r =>
    let fp := s.rawPos k (leAt r 4 4)
    let fv := if s.flag (JC_CFG_VSRC k) then
        (if j.fbSeen then satS 32 ((fp - j.fbP) * 1000000000 / p) else 0)
      else s.rawVel k (leAt r 8 4)
    s.setJoint k { j with fbP := fp, fbV := fv, fbSeen := true }
  | none => s.setJoint k { j with fbV := if s.flag (JC_CFG_VSRC k) then 0 else j.fbV, fbSeen := true }

/-- ENABLING becomes ENABLED when the node reports ready and brake open; DISABLING ends when it reports the brake closed
(the joint states' table, R76). -/
def State.jointStates (s : State) (n k : Nat) : State :=
  let j := s.joint k
  let b := match s.jointReply n k with | some r => leAt r 1 1 | none => 0
  match j.state with
  | .enabling =>
    if b.testBit 0 && b.testBit 1 then
      s.setJoint k { j with
        state := .enabled, spP := j.fbP * 2 ^ 24, spV := 0, spA := 0, integ := 0, bq1 := .reset,
        bq2 := .reset, fbSeen := false, satDir := 0, ferrRun := 0 }
    else s.setJoint k { j with spP := j.fbP * 2 ^ 24, spV := 0, spA := 0 }
  | .disabling => if b.testBit 2 then s.setJoint k { j with state := .disabled, tout := 0 } else s
  | .disabled | .enabled | .fault => s

/-! ### The torque feedforward pass (R59) -/

/-- In each cycle whose number is a multiple of 4: the result of the pass that ended is taken, else FFSTALE; a new pass starts,
whose result the rig's model gives (a free value). -/
def State.ffCycle (s : State) (n : Nat) : State :=
  if (s.eng n).cycNum % 4 ≠ 0 then s.setArm n { s.arm n with ffStale := false } else
  let fin := s.flag (SE_STAT_BGDONE n)
  let ran := (s.arm n).ffRun
  let s := s.onJoints n (fun s k =>
    let x := s.draw 24
    let j := x.2.joint k
    x.2.setJoint k { j with tff := if ran && fin then j.tffNext else j.tff, tffNext := x.1.toInt })
  s.setArm n { s.arm n with ffStale := ran && !fin, ffRun := decide (s.fld (SE_CTL_BGDIV n) ≠ 0) }

/-! ### The engine's fixed areas (R82, R91, R415) -/

/-- A word of engine `n`'s data memory written by the sequencer or the program. -/
def State.seDataPut (s : State) (n a v : Nat) : State := s.wr32 (seData n a) v

/-- The cycle header (R82). -/
def State.writeHeader (s : State) (n start : Nat) : State :=
  let a := s.arm n
  let hor := a.dueHor.getD (0, false)
  let s := s.seDataPut n 0 ((s.eng n).cycNum % 2 ^ 32)
  let s := s.seDataPut n 4 (start % 2 ^ 32)
  let s := s.seDataPut n 8 (a.scale + 65536 * b2n a.pstop)
  let s := s.seDataPut n 0xC a.cmdNow
  let s := (s.armJoints n).zipIdx.foldl (fun s x =>
    (s.seDataPut n (0x10 + 8 * x.2) (s.joint x.1).cmdNow).seDataPut n (0x14 + 8 * x.2) (s.joint x.1).tgtRead.toNat) s
  let s := s.seDataPut n 0x60 (hor.1 + 2 ^ 31 * b2n a.dueHor.isSome)
  let s := s.seDataPut n 0x64 (b2n hor.2)
  let s := s.seDataPut n 0x68 (s.line n).rx
  s.seDataPut n 0x6C (s.effFld (JC_ARM_MBANK_V n))

/-- The reply places: an accepted record and 24 bytes of 0, the others kept (R179). -/
def State.writeReplies (s : State) (n : Nat) : State :=
  (List.range 10).foldl (fun s i =>
    if (s.line n).rx.testBit i then
      s.wrBytes (seData n (0x100 + 0x40 * i)) (sliceB (tabGet (fun _ => []) (s.line n).used (i + 1)) 0 40 ++ List.replicate 24 0)
    else s) s

/-- The parameter area: the registers in effect of the joint slots and the arm (R82, R91). -/
def State.writeParams (s : State) (n : Nat) : State :=
  let offs := [0x08, 0x40, 0x44]
  let s := (s.armJoints n).zipIdx.foldl (fun s x =>
    let b := 0x30000 + 0x100 * x.1
    let s := offs.foldl (fun s o => s.seDataPut n (0x1000 + 0x100 * x.2 + o) (s.reg (b + o)).toNat) s
    jointShadows.foldl (fun s o => s.seDataPut n (0x1000 + 0x100 * x.2 + o) (s.effReg (b + o)).toNat) s) s
  let s := s.seDataPut n 0x1C08 (s.reg (JC_ARM_CFG n)).toNat
  let s := armShadows.foldl (fun s o => s.seDataPut n (0x1C00 + o) (s.effReg (0x34000 + 0x100 * n + o)).toNat) s
  s.setArm n { s.arm n with paramDue := false }

/-- Byte 1 of a command record by the joint's state (the joint states' table, R78). -/
def State.recFlags (s : State) (n k : Nat) : Nat :=
  let j := s.joint k
  let idx := b2n (j.phase == .search && s.fld (JC_CFG_HMODE k) == 1) * 16
  let clr := b2n (j.cmdNow == 4 || (s.arm n).cmdNow == 9) * 32
  b2n j.state.live + 2 * b2n (j.state == .disabling) + idx + clr

/-- The command record of a joint in the output block: its first 16 bytes and the reserved last 4; AUX is left (R57, R82). -/
def State.writeRecord (s : State) (n k : Nat) : State :=
  let j := s.joint k
  let a := s.fld (JC_CFG_ADDR k)
  if a = 0 then s else
  let base := seData n (0x3000 + 0x40 * (a - 1))
  let run := j.state == .enabled || j.state == .disabling
  let tq := if run then ofS 32 j.tout else 0
  let ff := if run && s.flag (JC_CFG_TFFEN k) then ofS 32 j.tff else 0
  let vf := if run then ofS 32 (asr j.spV 24) else 0
  let s := s.wrBytes base ([BitVec.ofNat 8 a, BitVec.ofNat 8 (s.recFlags n k), 0, 0] ++ leBytes 4 tq ++ leBytes 4 ff ++ leBytes 4 vf)
  s.wr32 (base + 0x14) 0

/-- The status word of a joint (R415). -/
def jointWord (j : Joint) : Nat :=
  j.state.code + 8 * b2n j.homed + 16 * b2n j.sat + 32 * b2n j.softLimit + 64 * b2n j.homeLimit + 128 * b2n j.defer.isSome +
    256 * j.fcause

/-- The status word of an arm (R415). -/
def armWord (a : Arm) : Nat :=
  a.mode.code + 16 * b2n a.trajArm + 32 * b2n a.holdZero + 64 * a.hstat + 1024 * a.stopCause + 2 ^ 14 * b2n a.ffStale +
    2 ^ 15 * b2n a.refused + 2 ^ 16 * a.reason

/-- The status words written; the bits that report one cycle are then cleared. -/
def State.writeStatus (s : State) (n : Nat) : State :=
  let s := (s.armJoints n).zipIdx.foldl (fun s x =>
    let j := s.joint x.1
    (s.seDataPut n (0x3300 + 4 * x.2) (jointWord j)).setJoint x.1 { j with sat := false, softLimit := false, homeLimit := false }) s
  let a := s.arm n
  let s := s.seDataPut n 0x33F0 (armWord a)
  let s := s.seDataPut n 0x33F4 a.sEff
  let s := s.seDataPut n 0x33F8 a.tau
  let s := s.seDataPut n 0x33FC a.hseq
  s.setArm n { a with refused := false }

/-! ### The program's cycle -/

/-- The cascade of a joint that is ENABLED or DISABLING, and the counts on it (R55, R77, R78). -/
def State.cascadeJoint (s : State) (n k : Nat) : State :=
  let j := s.joint k
  if j.state = .enabled ∨ j.state = .disabling then
    let c := s.cascade k (s.linePer n) j
    let lim : Int := (s.effReg (JC_FERRLIM k)).toNat
    let err : Int := ((asr j.spP 24 - j.fbP).natAbs : Int)
    let hs := j.phase = .search ∧ ((s.effFld (JC_HOME_TQ_V k) * 128 : Nat) : Int) ≤ (c.tout.natAbs : Int)
    s.setJoint k { j with
      tout := c.tout, satDir := c.dir, integ := c.integ, bq1 := c.bq1, bq2 := c.bq2, sat := c.sat,
      ferrRun := if lim ≠ 0 ∧ lim < err then j.ferrRun + 1 else 0,
      hsRun := if hs then j.hsRun + 1 else 0 }
  else s

/-- One cycle of the joint control program of arm `n`: scale, feedback, joint states, set-points, cascade, output block and
status words. -/
def State.armProgram (s : State) (n : Nat) : State :=
  let s := s.scaleCycle n
  let s := s.onJoints n (fun s k => s.feedback n k)
  let s := s.onJoints n (fun s k => s.jointStates n k)
  let s := s.ffCycle n
  let s := s.moveArm n
  let s := s.onJoints n (fun s k => s.settleDlim n k)
  let s := s.onJoints n (fun s k => s.cascadeJoint n k)
  let s := s.onJoints n (fun s k => s.writeRecord n k)
  s.writeStatus n

/-! ### Wake and latch -/

/-- Whether an engine's foreground still runs (R91). -/
def State.fgRuns (s : State) (n : Nat) : Bool := s.fld (SE_STAT_STATE n) == 2

/-- Whether an engine can be woken: running, not faulted, not in debug halt. -/
def State.canWake (s : State) (n : Nat) : Bool :=
  s.flag (SE_CTL_RUN n) && !s.flag (SE_STAT_FAULTED n) && !(s.eng n).dbg && !s.fgRuns n

/-- The foreground woken at SE_FGVEC; SR.BGDONE holds the sampled value (R91, R94). -/
def State.wakeEngine (s : State) (n : Nat) : State :=
  let x := s.eng n
  let fg := { x.fg with pc := BitVec.ofNat 14 (s.fld (SE_FGVEC_VEC n)),
                        sr := if s.flag (SE_STAT_BGDONE n) then x.fg.sr ||| 0x20#6 else x.fg.sr &&& 0x1F#6 }
  (s.setEng n { x with fg := fg, woken := true, wokenAt := s.nowNs, ended := false, fgCyc := 0, runNum := x.cycNum % 2 ^ 32 }).setFld
    (SE_STAT_STATE n) 2

/-- The wake, withheld from an engine that cannot run (R91). -/
def State.wakeIfAble (s : State) (n : Nat) : State := if s.canWake n then s.wakeEngine n else s

/-- The input block written, the parameter area where due, and, where the engine can run, its program's cycle and the wake (R91). -/
def State.wakeArm (s : State) (n start : Nat) : State :=
  let s := s.writeHeader n start
  let s := s.writeReplies n
  let s := if (s.arm n).paramDue then s.writeParams n else s
  if s.canWake n then (s.armProgram n).wakeEngine n else s

/-- A joint's status word copied to its registers (R415). -/
def State.copyJoint (s : State) (n q k : Nat) : State :=
  let w := s.seWord n (0x3300 + 4 * q)
  let s := (s.setFld (JC_STAT_STATE k) (bits w 0 3)).setFld (JC_STAT_HOMED k) (bits w 3 1)
  let s := if w.testBit 4 then (s.setFld (JC_STAT_SAT k) 1).incFld (JC_SATCNT_N k) else s
  let s := if w.testBit 5 then s.setFld (JC_STAT_SOFT_LIMIT k) 1 else s
  let s := if w.testBit 6 then s.setFld (JC_STAT_HOME_LIMIT k) 1 else s
  let s := (s.setFld (JC_STAT_DEFERRED k) (bits w 7 1)).setFld (JC_STAT_FCAUSE k) (bits w 8 4)
  let j := s.joint k
  let s := (s.setReg (JC_SP_POS k) (BitVec.ofInt 32 (asr j.spP 24))).setReg (JC_SP_VEL k) (BitVec.ofInt 32 (asr j.spV 24))
  let s := (s.setReg (JC_FB_POS k) (BitVec.ofInt 32 j.fbP)).setReg (JC_FB_VEL k) (BitVec.ofInt 32 j.fbV)
  let s := s.setReg (JC_FERR k) (BitVec.ofInt 32 (asr j.spP 24 - j.fbP))
  s.setFld (JC_TFF_V k) (if s.flag (JC_CFG_TFFEN k) then ofS 24 j.tff else 0)

/-- The arm's status words copied to its registers (R415). -/
def State.copyArm (s : State) (n : Nat) : State :=
  let w := s.seWord n 0x33F0
  let s := (s.setFld (JC_ARM_STAT_MODE n) (bits w 0 4)).setFld (JC_ARM_STAT_TRAJARM n) (bits w 4 1)
  let s := (s.setFld (JC_ARM_STAT_HOLDZERO n) (bits w 5 1)).setFld (JC_ARM_STAT_HSTAT n) (bits w 6 4)
  let s := s.setFld (JC_ARM_STAT_STOPCAUSE n) (bits w 10 4)
  let s := if w.testBit 14 then s.incFld (JC_ARM_CNT_FFSTALE n) else s
  let s := if w.testBit 15 then s.setFld (JC_ARM_STAT_REFUSED n) 1 else s
  let s := s.setFld (JC_ARM_STAT_REASON n) (bits w 16 2)
  let s := s.setFld (JC_ARM_SEFF_V n) (bits (s.seWord n 0x33F4) 0 17)
  let s := s.setReg (JC_ARM_TAU n) (BitVec.ofNat 32 (s.seWord n 0x33F8))
  s.setReg (JC_ARM_HSEQ n) (BitVec.ofNat 32 (s.seWord n 0x33FC))

/-- The status words copied (R415). -/
def State.copyStatus (s : State) (n : Nat) : State :=
  ((s.armJoints n).zipIdx.foldl (fun s x => s.copyJoint n x.2 x.1) s).copyArm n

/-- The output block's command places taken: the first 24 bytes of each node's (R177). -/
def State.takeOutput (s : State) (n : Nat) : State :=
  let nn := s.fld (TL_LCTL_NNODE n)
  let recs := (List.range nn).map (fun i => (i + 1, s.rdBytes (seData n (0x3000 + 0x40 * i)) 24))
  s.setLine n { s.line n with lat := recs, stale := false }

/-- Whether the foreground's run of this cycle ended before the latch point (R2, R92). -/
def State.inTime (s : State) (n latch : Nat) : Bool :=
  let x := s.eng n
  x.woken && x.ended && decide (x.endAt < latch)

/-- SE_MINSLACK at a latch point: the time from CEND to it, 0 after a CEND at or after it (R92, R97). -/
def State.noteSlack (s : State) (n latch : Nat) : State :=
  let x := s.eng n
  let slack := min 65535 (latch - x.endAt)
  if x.woken && x.ended && slack < s.fld (SE_MINSLACK_MINSLACK n) then s.setFld (SE_MINSLACK_MINSLACK n) slack else s

/-- The command latch point: the output block and status words of a run that ended in time, a stale frame otherwise; the slack;
the sampled BGDONE (R74, R92, R94, R97, R415). -/
def State.latchOutputs (s : State) (n latch : Nat) : State :=
  let s :=
    if s.inTime n latch then
      let s := ((s.takeOutput n).copyStatus n).setFld (JC_ARM_STAT_STALE n) 0
      s.setArm n { s.arm n with staleRun := 0 }
    else
      let s := s.setLine n { s.line n with stale := true }
      let s := (s.setFld (JC_ARM_STAT_STALE n) 1).incFld (JC_ARM_CNT_STALE n)
      s.setArm n { s.arm n with staleRun := (s.arm n).staleRun + 1 }
  let s := s.noteSlack n latch
  let x := s.eng n
  (s.setEng n { x with woken := false }).setFlag (SE_STAT_BGDONE n) x.bgEnded

/-- The bytes of the output block: commands and status (R82). -/
def State.outputBytes (s : State) (n : Nat) : List Byte := s.rdBytes (seData n 0x3000) 0x280 ++ s.rdBytes (seData n 0x3300) 0x100

end Sys2Proof.Machine
end

