-- ==== Sys2Proof/Machine/Time.lean ====
section
/-! DEFINITION. Cell time: the counter and its tick, increment, slew and step, the reads of cell time, timers,
windows and latches (R27 to R49). -/

namespace Sys2Proof.Machine

/-- The clock mode: 0 400 MHz, 1 TCXO, 2 32.768 kHz (R36). -/
def State.clkMode (s : State) : Nat := s.fld CT_STAT_CLKMODE

/-- Whether some line is sending CYCLE frames (R33). -/
def State.linesSending (s : State) : Bool :=
  !s.pair.muted && (List.range 8).any (fun n => s.fld (TL_LSTAT_STATE n) == 4)

/-- The least and the greatest increment within 2.5 ns ± 500 ppm, UQ8.32 (R27). -/
def incrMin : Nat := 10732049531
def incrMax : Nat := 10742786949

/-- The increment in effect replaced, clamped into its bounds (R27). -/
def clampIncr (x : Int) : Nat := (clampI incrMin incrMax x).toNat

/-- An increment put into effect: CT_INCR and CT_INCRI read it back (R27, R28). -/
def State.putIncr (s : State) (x : Nat) : State :=
  let s := (s.setFld CT_INCR_FRAC (x % 2 ^ 32)).setFld CT_INCRI_INT (x / 2 ^ 32)
  { s with time := { s.time with incr := x, heldInt := x / 2 ^ 32 } }

/-- An increment requested with the FRAC value `frac` as written: clamped with INCR_CLAMP where it is out of bounds. -/
def State.reqIncr (s : State) (x : Int) (frac : Nat) : State :=
  let c := clampIncr x
  let s := s.putIncr c
  if (c : Int) = x then s else s.sticky 7 0 frac

/-- The remaining slew replaced by an amount in ns (R31). -/
def State.putSlew (s : State) (ns : Int) : State :=
  { s with time := { s.time with slew := ns * 2 ^ 32 } }

/-- PPM as it is held: 0 acts as 1, above 200 as 200 (R32). -/
def ppmOf (v : Nat) : Nat := if v = 0 then 1 else min v 200

/-- The extra amount of one tick, in 2⁻³² ns: 2.5 ns × PPM × 10⁻⁶ (R31). -/
def State.slewStep (s : State) : Nat := 10737418240 * s.fld CT_SLEW_CTL_PPM / 1000000

/-- What a tick adds from the slew: the step with the sign of the remainder, on the final tick what remains (R31). -/
def State.slewNow (s : State) : Int :=
  clampI (-(s.slewStep : Int)) s.slewStep s.time.slew

/-- What a tick of the present clock mode adds to the counter, in 2⁻³² ns (R36). -/
def State.tickAmount (s : State) : Int :=
  match s.clkMode with
  | 0 => (s.time.incr : Int) + s.slewNow
  | 1 => 16 * (s.time.incr : Int)
  | _ => (s.fld CT_AOINCR_INT : Int) * 2 ^ 32 + (s.fld CT_AOINCR_FRAC : Int) * 2 ^ 16

/-- The nets over a tick: registered functions take their next values, pulses have one tick less (R43, R350). -/
def State.tickNets (s : State) : State :=
  let t := (s.rigging.fns.filter (fun e => e.2.mode == 2)).foldl
    (fun t e => t.setNet e.1 { t.net e.1 with reg := s.netNext e.1 }) s
  (s.rigging.nets.filter (fun e => e.2.high)).foldl
    (fun t e => t.setNet e.1 { t.net e.1 with left := e.2.left - 1 }) t

/-- The counter after the next tick: increment, slew, an accepted step (R29, R31, R33, R36). -/
def State.nextCt (s : State) : Nat :=
  ofS 96 ((s.time.ct : Int) + s.tickAmount + (match s.time.stepPend with | some d => d * 2 ^ 32 | none => 0))

/-- Whether timer `n` places its edge on pins: FINE, and its net routed to an output pin (R43). -/
def State.fineOn (s : State) (n : Nat) : Bool :=
  s.flag (CT_TMR_CTL_FINE n) && s.flag (CT_TMR_CTL_NETEN n) && !(s.pinsOf (s.fld (CT_TMR_CTL_NET n))).isEmpty

/-- What a delay line is loaded with for a target within the tick that begins now: this tick and the taps to the target's
position, in 32nds of the increment, not beyond it (R43). -/
def State.fineLoad (s : State) (tgt : Nat) : Stamp :=
  let k := (((diff32 tgt s.now * 2 ^ 32 - (s.time.ct % 2 ^ 32 : Nat)) * 32) / (max 1 s.time.incr : Nat)).toNat
  ⟨BitVec.ofNat 32 s.now, BitVec.ofNat 16 s.nowFrac, Fin.ofNat 32 (min 31 k)⟩

/-- The compare one tick ahead: each armed FINE timer whose target the next tick reaches loads its pin's delay line (R43). -/
def State.fineAhead (s : State) : State :=
  (s.time.timers.filter (fun e => e.2.armed)).foldl (fun t e =>
    let tgt := (t.reg (CT_TMR_TGT e.1)).toNat
    if t.fineOn e.1 && !reached tgt t.now && reached tgt (t.nextCt / 2 ^ 32 % 2 ^ 32) then
      t.setTmr e.1 { e.2 with fine := some (t.fineLoad tgt) }
    else t) s

/-- The windows over a tick: an edge of an occurrence that has ended is taken only in the tick of its end, unless the window is
armed on (R48). -/
def State.tickWins (s : State) : State :=
  (s.time.windows.filter (fun e => e.2.lastOcc && !e.2.armed)).foldl (fun t e => t.setWin e.1 { e.2 with lastOcc := false }) s

/-- One tick of the time base: increment, slew, an accepted step (R29, R31, R33, R36), nets, windows, and the timers' compare one
tick ahead. -/
def State.tick (s : State) : State :=
  let ct := s.nextCt
  let slew := if s.clkMode = 0 then s.time.slew - s.slewNow else s.time.slew
  let s := s.tickNets.tickWins
  { s with time := { s.time with ct := ct, slew := slew, stepPend := none } }.fineAhead

/-- A software write to a register that the LINE source owns is ignored and sets OWNED_WRITE (R30). -/
def State.owned (s : State) (f : State) : State :=
  if s.effSrc = 1 then s.setFld CT_STAT_OWNED_WRITE 1 else f

/-- A write of CT_INCRI (R28). -/
def State.writeIncri (s : State) (v : Word) : State :=
  s.owned (let s := s.setFld CT_INCRI_INT (v.toNat % 256)
           { s with time := { s.time with heldInt := v.toNat % 256 } })

/-- A write of CT_INCR (R28). -/
def State.writeIncr (s : State) (v : Word) : State :=
  s.owned (s.reqIncr (s.time.heldInt * 2 ^ 32 + v.toNat : Nat) v.toNat)

/-- A write of CT_SLEW (R31). -/
def State.writeSlew (s : State) (v : Word) : State := s.owned (s.putSlew v.toInt)

/-- A write of CT_SLEW_CTL (R32). -/
def State.writeSlewCtl (s : State) (v : Word) : State :=
  s.owned (s.setFld CT_SLEW_CTL_PPM (ppmOf (v.toNat % 256)))

/-- A step accepted: STEPPED and VALID become 1, the counter steps at the next tick (R33). -/
def State.stepBy (s : State) (d : Int) : State :=
  let s := (s.setFld CT_STAT_STEPPED 1).setFld CT_STAT_VALID 1
  { s with time := { s.time with stepPend := some d } }

/-- A write of CT_STEP_HI (R33). -/
def State.writeStep (s : State) (v : Word) : State :=
  if s.flag CT_STAT_STEPPED then s.sticky 8 0 0
  else if s.linesSending then s.sticky 8 0 1
  else s.stepBy (toS 64 (v.toNat * 2 ^ 32 + (s.reg CT_STEP_LO).toNat))

/-- A read of CT_NOW_LO: short time, and the initiator's shadow of the high word (R38). -/
def State.readNowLo (s : State) (i : Initiator) : State :=
  (s.setIni i { s.inis i with nowHi := BitVec.ofNat 32 (s.nowNs / 2 ^ 32) }).answer (BitVec.ofNat 32 s.now)

/-! ### Timers -/

/-- The period that a PER value acts as (R41). -/
def timerPer (p : Nat) : Nat := if p = 0 then 0 else max p 100

/-- The edge of a timer armed now whose target is reached within one tick: the first tick boundary after the arming, without
fraction (R43). -/
def State.tmrLate (s : State) (tgt : Nat) : Option Stamp :=
  if reached tgt (s.nextCt / 2 ^ 32 % 2 ^ 32) then
    some ⟨BitVec.ofNat 32 (s.nextCt / 2 ^ 32), BitVec.ofNat 16 (s.nextCt / 2 ^ 16), 0⟩
  else none

/-- An edge placed on the pins that a net is routed to, by their delay lines 122 to 127; a line out of lock drops the fraction
(R43, R274). -/
def State.placeEdge (s : State) (net : Nat) (e : Stamp) : State :=
  { s with rigging := { s.rigging with edges := (s.pinsOf net).foldl (fun t k =>
      tabSet (fun _ => none) t k (some (if s.lineLost (122 + k) then { e with taps := 0 } else e))) s.rigging.edges } }

/-- The FINE edge of a firing: what the arming or the tick before the target put on the delay line, else this tick (R43). -/
def State.fineEdge (s : State) (n : Nat) : Stamp :=
  match (s.tmr n).late, (s.tmr n).fine with
  | some e, _ => e
  | none, some e => e
  | none, none => ⟨BitVec.ofNat 32 s.now, BitVec.ofNat 16 s.nowFrac, 0⟩

/-- A firing: status, net pulse, halyard event, interrupt, pin edge, then the next target or the disarming (R41, R43,
R44). -/
def State.fireTimer (s : State) (n : Nat) : State :=
  let tgt := (s.reg (CT_TMR_TGT n)).toNat
  let per := timerPer (s.reg (CT_TMR_PER n)).toNat
  let s := if s.fineOn n then s.placeEdge (s.fld (CT_TMR_CTL_NET n)) (s.fineEdge n) else s
  let s := if s.flag (CT_TMR_STAT_FIRED n) then s.incFld (CT_TMR_STAT_OVER n) else s
  let s := s.setFld (CT_TMR_STAT_FIRED n) 1
  let s := if s.flag (CT_TMR_CTL_NETEN n) then
    s.pulseNet (s.fld (CT_TMR_CTL_NET n)) (max 1 (s.fld (CT_TMR_CTL_WIDTH n))) else s
  let s := if s.flag (CT_TMR_CTL_HAL n) then
    s.hwPost (.tmr n) (s.fld (HAL_CTSRC_FLOW n)) (s.fld (HAL_CTSRC_PRIO n)) 2 n tgt else s
  let s := if s.flag (CT_TMR_CTL_IRQ n) then s.cause (16 + n) else s
  if per = 0 then s.setTmr n ⟨false, none, none⟩
  else (s.setReg (CT_TMR_TGT n) (BitVec.ofNat 32 (tgt + per))).setTmr n ⟨true, none, none⟩

/-- A write of CT_TMRn_CTL arms or disarms the timer (R41). -/
def State.writeTmrCtl (s : State) (i : Initiator) (n : Nat) (v : Word) : State :=
  let s := s.plainWrite i (CT_TMR_CTL n) v
  s.setTmr n ⟨s.flag (CT_TMR_CTL_EN n), s.tmrLate (s.reg (CT_TMR_TGT n)).toNat, none⟩

/-- A write of CT_TMRn_TGT: a timer whose old target is reached in this tick fires for it first (R42). -/
def State.writeTmrTgt (s : State) (n : Nat) (v : Word) : State :=
  let s := if (s.tmr n).armed && reached (s.reg (CT_TMR_TGT n)).toNat s.now then s.fireTimer n else s
  let s := s.setReg (CT_TMR_TGT n) v
  if s.flag (CT_TMR_CTL_EN n) then s.setTmr n ⟨true, s.tmrLate v.toNat, none⟩ else s

/-! ### Windows -/

/-- An open window closes without an event: net low, ACTIVE 0, its occurrence ends at this tick (R45). -/
def State.quietClose (s : State) (n : Nat) : State :=
  let w := s.win n
  if s.flag (CT_WIN_STAT_ACTIVE n) then
    let s := s.setFld (CT_WIN_STAT_ACTIVE n) 0
    s.setWin n { w with
      armed := false, occ := false, lastOcc := true, lastOpen := w.occOpen, lastClose := BitVec.ofNat 32 s.now, lastAt := s.nowNs }
  else s.setWin n { w with armed := false, occ := false }

/-- The length of a window, CLOSE − OPEN as a signed 32-bit difference. -/
def State.winLen (s : State) (n : Nat) : Int := diff32 (s.reg (CT_WIN_CLOSE n)).toNat (s.reg (CT_WIN_OPEN n)).toNat

/-- Whether a PER that is not 0 is not greater than the window's length (R46). -/
def State.winPerBad (s : State) (n : Nat) : Bool :=
  s.flag (CT_WIN_CTL_PER n) && decide ((s.fld (CT_WIN_CTL_PER n) * 8 : Int) ≤ s.winLen n)

/-- An arming that is found EMPTY or MISSED: the window passes no edge (R48). -/
def State.winDead (s : State) (n : Nat) : State := s.setWin n { s.win n with lastOcc := false }

/-- A write of CT_WINn_CTL (R45, R46). -/
def State.writeWinCtl (s : State) (i : Initiator) (n : Nat) (v : Word) : State :=
  let s := (s.quietClose n).plainWrite i (CT_WIN_CTL n) v
  if s.flag (CT_WIN_CTL_EN n) then
    if s.winLen n ≤ 0 then (s.setFld (CT_WIN_STAT_EMPTY n) 1).winDead n
    else if reached (s.reg (CT_WIN_CLOSE n)).toNat s.now then (s.setFld (CT_WIN_STAT_MISSED n) 1).winDead n
    else if s.winPerBad n then (s.setFld (CT_WIN_STAT_EMPTY n) 1).winDead n
    else s.setWin n { s.win n with
      armed := true, occ := true, occOpen := s.reg (CT_WIN_OPEN n), occClose := s.reg (CT_WIN_CLOSE n) }
  else s

/-- Opening (R45). -/
def State.openWin (s : State) (n : Nat) : State :=
  let w := s.win n
  if w.armed && !s.flag (CT_WIN_STAT_ACTIVE n) && reached w.occOpen.toNat s.now then
    let s := s.setFld (CT_WIN_STAT_ACTIVE n) 1
    if s.flag (CT_WIN_CTL_HALOPEN n) then
      s.hwPost (.win n) (s.fld (HAL_CTSRC_FLOW (16 + n))) (s.fld (HAL_CTSRC_PRIO (16 + n))) 3 n w.occOpen.toNat
    else s
  else s

/-- Closing, and the advance of a periodic window (R45, R46). -/
def State.closeWin (s : State) (n : Nat) : State :=
  let w := s.win n
  if w.armed && s.flag (CT_WIN_STAT_ACTIVE n) && reached w.occClose.toNat s.now then
    let s := s.setFld (CT_WIN_STAT_ACTIVE n) 0
    let s := if s.flag (CT_WIN_CTL_HALCLOSE n) then
      s.hwPost (.win n) (s.fld (HAL_CTSRC_FLOW (16 + n))) (s.fld (HAL_CTSRC_PRIO (16 + n))) 3 (n + 256) w.occClose.toNat
      else s
    let done : Window := { w with
      armed := false, occ := false, lastOcc := true, lastOpen := w.occOpen, lastClose := w.occClose, lastAt := s.nowNs }
    let per := s.fld (CT_WIN_CTL_PER n) * 8
    if per = 0 then s.setWin n done
    else if s.winPerBad n then (s.setFld (CT_WIN_STAT_EMPTY n) 1).setWin n done
    else
      let o := s.reg (CT_WIN_OPEN n) + BitVec.ofNat 32 per
      let c := s.reg (CT_WIN_CLOSE n) + BitVec.ofNat 32 per
      ((s.setReg (CT_WIN_OPEN n) o).setReg (CT_WIN_CLOSE n) c).setWin n
        { done with armed := true, occ := true, occOpen := o, occClose := c }
  else s

/-! ### Latches -/

/-- Whether a timestamp lies in [open, close) (R2). -/
def inSpan (ns op cl : Word) : Bool :=
  decide (0 ≤ diff32 ns.toNat op.toNat) && decide (diff32 ns.toNat cl.toNat < 0)

/-- Whether a timestamp lies in an occurrence of a window (R48): the one armed now, or the one before it while its end lies within
half the range of short time. -/
def State.winPasses (s : State) (w : Nat) (ns : Word) : Bool :=
  let x := s.win w
  (x.occ && inSpan ns x.occOpen x.occClose) ||
  (x.lastOcc && decide (s.nowNs < x.lastAt + 2 ^ 31) && inSpan ns x.lastOpen x.lastClose)

/-- The distance between two timestamps in 2⁻¹⁶ ns. -/
def stampDiff (a b : Stamp) : Int := diff32 a.ns.toNat b.ns.toNat * 65536 + ((a.frac.toNat : Int) - b.frac.toNat)

/-- Whether an edge select value takes an edge: 0 and 3 rising, 1 falling, 2 both. -/
def edgeTakes (sel : Nat) (falling : Bool) : Bool :=
  match sel with
  | 1 => falling
  | 2 => true
  | _ => !falling

/-- A capture of an edge that the latch sees (R47). -/
def State.captureEdge (s : State) (n : Nat) (falling : Bool) (ts : Stamp) : State :=
  if s.flag (CT_LAT_STAT_VALID n) then s.setFld (CT_LAT_STAT_OVERRUN n) 1
  else
    let s := (s.setReg (CT_LAT_NS n) ts.ns).setFld (CT_LAT_FRAC_FRAC n) ts.frac.toNat
    (s.setFld (CT_LAT_STAT_VALID n) 1).setFlag (CT_LAT_STAT_POL n) falling

/-- An edge on the net of a latch: polarity, window gate, and the free loss of an edge less than 5 ns after the one
before it (R47, R48, R49). -/
def State.latchEdge (s : State) (n : Nat) (falling : Bool) (ts : Stamp) : State :=
  let at_ := s.full16 ts
  let close := match (s.lat n).last with | some l => decide ((at_ - l).natAbs < 5 * 65536) | none => false
  let s := s.setLat n ⟨some at_⟩
  let x := s.draw 1
  let lost := close && x.1.getLsbD 0
  let s := if close then x.2 else s
  if s.flag (CT_LAT_CTL_EN n) && edgeTakes (s.fld (CT_LAT_CTL_EDGE n)) falling &&
      (!s.flag (CT_LAT_CTL_WINEN n) || s.winPasses (s.fld (CT_LAT_CTL_WIN n)) ts.ns) && !lost then
    s.captureEdge n falling ts
  else s

/-- A read of CT_LATn_FRAC (R47). -/
def State.readLatFrac (s : State) (n : Nat) : State :=
  (s.answer (BitVec.ofNat 32 (s.fld (CT_LAT_FRAC_FRAC n)))).setFld (CT_LAT_STAT_VALID n) 0

/-! ### The commands -/

/-- CT_INCRI_WRITE (R28). -/
def execCtIncriWrite (i : Initiator) (v : Word) (s : State) : Out := .next (s.gated i CT_INCRI fun s => s.writeIncri v)
/-- CT_INCR_WRITE (R27, R28). -/
def execCtIncrWrite (i : Initiator) (v : Word) (s : State) : Out := .next (s.gated i CT_INCR fun s => s.writeIncr v)
/-- CT_SLEW_WRITE (R31). -/
def execCtSlewWrite (i : Initiator) (v : Word) (s : State) : Out := .next (s.gated i CT_SLEW fun s => s.writeSlew v)
/-- CT_SLEW_CTL_WRITE (R31, R32). -/
def execCtSlewCtlWrite (i : Initiator) (v : Word) (s : State) : Out := .next (s.gated i CT_SLEW_CTL fun s => s.writeSlewCtl v)
/-- STEP (R33). -/
def execStep (i : Initiator) (v : Word) (s : State) : Out := .next (s.gated i CT_STEP_HI fun s => s.writeStep v)
/-- CT_NOW_LO_READ (R38). -/
def execCtNowLoRead (i : Initiator) (s : State) : Out := .next (s.gated i CT_NOW_LO fun s => s.readNowLo i)
/-- TIMER_ARM (R41). -/
def execTimerArm (i : Initiator) (n : Fin 16) (v : Word) (s : State) : Out :=
  .next (s.gated i (CT_TMR_CTL n) fun s => s.writeTmrCtl i n v)
/-- TIMER_TARGET_WRITE (R42). -/
def execTimerTargetWrite (i : Initiator) (n : Fin 16) (v : Word) (s : State) : Out :=
  .next (s.gated i (CT_TMR_TGT n) fun s => s.writeTmrTgt n v)
/-- TIMER_FIRE (R41, R43, R44). -/
def execTimerFire (n : Fin 16) (s : State) : Out :=
  .next (if s.underWay && (s.tmr n).armed && reached (s.reg (CT_TMR_TGT n)).toNat s.now then s.fireTimer n else s)
/-- WINDOW_ARM (R45, R46). -/
def execWindowArm (i : Initiator) (n : Fin 8) (v : Word) (s : State) : Out :=
  .next (s.gated i (CT_WIN_CTL n) fun s => s.writeWinCtl i n v)
/-- WINDOW_OPEN (R45). -/
def execWindowOpen (n : Fin 8) (s : State) : Out := .next (if s.underWay then s.openWin n else s)
/-- WINDOW_CLOSE (R45, R46). -/
def execWindowClose (n : Fin 8) (s : State) : Out := .next (if s.underWay then s.closeWin n else s)
/-- LATCH_CAPTURE (R47, R48, R49). -/
def execLatchCapture (n : Fin 32) (falling : Bool) (ts : Stamp) (s : State) : Out :=
  .next (if s.underWay then s.latchEdge n falling (s.stampOn (s.netLine (s.fld (CT_LAT_CTL_NET n))) ts) else s)
/-- LATCH_FRAC_READ (R47). -/
def execLatchFracRead (i : Initiator) (n : Fin 32) (s : State) : Out :=
  .next (s.gated i (CT_LAT_FRAC n) fun s => s.readLatFrac n)

end Sys2Proof.Machine
end

