-- ==== Sys2Proof/Machine/Line.lean ====
section
/-! DEFINITION. The Tuitra lines: schedule arithmetic, frames, replies, measurements and the mailbox (R175 to R188, R197, R207,
R208). -/

namespace Sys2Proof.Machine

/-! ### Schedule (R182, R183) -/

/-- The nodes of a line. -/
def State.nodes (s : State) (n : Nat) : Nat := s.fld (TL_LCTL_NNODE n)

/-- From the port at end A, at end B, to node `a`. -/
def State.offX (s : State) (n a : Nat) : Nat := s.fld (TL_LINK_LINKA n) + (a - 1) * s.fld (TL_HOP_HOP n)
def State.offY (s : State) (n a : Nat) : Nat := s.fld (TL_LINK_LINKB n) + (s.nodes n - a) * s.fld (TL_HOP_HOP n)

/-- The offset of node `a` at an end. -/
def State.offEnd (s : State) (n a : Nat) (b : Bool) : Nat := if b then s.offY n a else s.offX n a

/-- The slot of node `a`. -/
def State.slot (s : State) (n a : Nat) : Nat := s.fld (TL_SLOT_SLOT n (a - 1))

/-- Whether this module drives an end (TL_LCTL.ENDS). -/
def State.drives (s : State) (n : Nat) (b : Bool) : Bool := if b then s.flag (TL_LCTL_ENDB n) else s.flag (TL_LCTL_ENDA n)

/-- Whether the receive window of node `a` at an end is enabled in the table. -/
def State.winOn (s : State) (n a : Nat) (b : Bool) : Bool :=
  if b then s.flag (TL_SLOT_ENB n (a - 1)) else s.flag (TL_SLOT_ENA n (a - 1))

/-- Whether this module has a receive window for node `a` at an end. -/
def State.hasWin (s : State) (n a : Nat) (b : Bool) : Bool := s.drives n b && s.winOn n a b

/-- The latest close of the receive windows enabled at the ends that `own` selects (R183). -/
def State.wakeOf (s : State) (n : Nat) (own : Bool) : Nat :=
  let close := fun (a : Nat) (b : Bool) =>
    if s.winOn n a b && (s.drives n b == own) then s.slot n a + s.offEnd n a b + s.fld (TL_HOP_G n) + 592 else 0
  ((List.range (s.nodes n)).map (fun i => max (close (i + 1) false) (close (i + 1) true))).foldl max 0

/-- The wake point: WAKE in a single module, WAKEP in a pair (R183, R228). -/
def State.wakeOff (s : State) (n : Nat) : Nat :=
  if s.nodes n = 0 then 0
  else if s.flag PR_CTL_PAIREN then max (s.wakeOf n true) (s.wakeOf n false) + 2000 else s.wakeOf n true

/-- The line schedule record (R180). -/
def State.schedRecord (s : State) (n : Nat) : List Byte :=
  let f := fun (w : Nat) (v : Nat) => leBytes w v
  f 1 (s.fld (TL_LCTL_PERIOD n)) ++ f 1 (s.fld (TL_LCTL_MODE n)) ++ f 1 (s.nodes n) ++ f 1 (s.fld (TL_LCTL_SCHID n)) ++
  f 2 (s.fld (TL_HOP_HOP n)) ++ f 2 (s.fld (TL_HOP_G n)) ++ f 2 (s.fld (TL_CWIN_V n)) ++ f 2 (s.fld (TL_LINK_LINKA n)) ++
  f 2 (s.fld (TL_LINK_LINKB n)) ++ f 2 0 ++ f 4 (s.fld (TL_ACT_V n)) ++ f 4 (s.fld (TL_SMP_V n)) ++
  f 4 (s.fld (TL_MBREQ_V n)) ++ f 4 (s.fld (TL_MBRSP_V n)) ++ f 1 (s.fld (TL_MBRSP_MBMAX n)) ++ f 1 (s.fld (TL_MBREQ_MBEN n)) ++
  f 2 0 ++ (List.range 10).flatMap (fun i => f 4 (if i < s.nodes n then s.slot n (i + 1) else 0))

/-- SCHCRC (R180). -/
def State.schCrc (s : State) (n : Nat) : Nat := (crc32c 0 (s.schedRecord n)).toNat

/-! ### Frames sent (R175 to R177, R185) -/

/-- The header of a frame that this module sends (R176). -/
def State.header (s : State) (n typ dst : Nat) (endB : Bool) (len : Nat) : List Byte :=
  [BitVec.ofNat 8 (typ + 16), BitVec.ofNat 8 (n + 8 * s.fld (TL_LCTL_MODE n)),
   BitVec.ofNat 8 (dst + 16 * b2n endB + 32 * s.fld PR_CTL_PAIRID + 64 * (s.role % 4)), 0] ++ leBytes 2 len ++ [0, 0]

/-- A payload in its envelope, as a port of line `n` sends it (R10, R175): broadcast, the port's source address, the rig's
EtherType with its high byte first, zero padding to 46 bytes. -/
def State.etherFrame (s : State) (n : Nat) (endB : Bool) (p : List Byte) : List Byte :=
  List.replicate 6 0xFF ++ [0x02, 0x4B, 0, 0, BitVec.ofNat 8 (s.fld PR_CTL_PAIRID), BitVec.ofNat 8 (n + 8 * b2n endB)] ++
    [BitVec.ofNat 8 (s.rig.etherType / 256), BitVec.ofNat 8 s.rig.etherType] ++ p ++ List.replicate (46 - p.length) 0

/-- The module's epoch as its frames carry it: 0 in a single module. -/
def State.frameEpoch (s : State) : Nat := if s.flag PR_CTL_PAIREN then s.fld PR_EPOCH_EPOCH else 0

/-- The joint that node `a` of line `n` carries (R12). -/
def State.nodeJoint (s : State) (n a : Nat) : Option Nat := (s.armJoints n).find? (fun k => s.fld (JC_CFG_ADDR k) == a)

/-- A value of `w` bits negated, saturating at its range (R56, R177). -/
def negSat (w : Nat) (x : Int) : Int := satS w (-x)

/-- The command record of node `a` as it is sent (R177): `r` is the record latched. -/
def State.sentRecord (s : State) (n a : Nat) (r : List Byte) : List Byte :=
  let inv := match s.nodeJoint n a with | some k => s.flag (JC_CFG_PINV k) | none => false
  let sg := fun (w : Nat) (x : Int) => if inv then negSat w x else x
  let fl := leAt r 1 1
  let st := (s.line n).stale
  let out := SH_ARM_OUT n
  let pstop := (s.reg out).getLsbD 16
  let flags := (fl % 4) + 4 * b2n st + 8 * b2n pstop + (bits fl 4 2) * 16
  [BitVec.ofNat 8 a, BitVec.ofNat 8 flags] ++ leBytes 2 (s.fld (SH_ARM_OUT_SCALE n)) ++
    leBytes 4 (ofS 32 (sg 24 (toS 24 (leAt r 4 3)))) ++ leBytes 4 (ofS 32 (sg 24 (toS 24 (leAt r 8 3)))) ++
    leBytes 4 (ofS 32 (sg 32 (toS 32 (leAt r 0xC 4)))) ++ leBytes 4 (leAt r 0x10 4) ++ leBytes 4 0

/-- The CYCLE frame of the cycle that starts at `start` (R176, R177). -/
def State.cycleFrame (s : State) (n start : Nat) (endB : Bool) : List Byte :=
  let nn := s.nodes n
  s.header n 1 15 endB (24 + 24 * nn) ++ leBytes 4 (start / s.linePer n) ++ leBytes 4 s.frameEpoch ++ leBytes 8 start ++
    [BitVec.ofNat 8 nn, BitVec.ofNat 8 (s.fld (TL_LCTL_SCHID n))] ++ leBytes 6 0 ++
    (List.range nn).flatMap (fun i => s.sentRecord n (i + 1) (tabGet (fun _ => []) (s.line n).lat (i + 1)))

/-- A COLD frame (R213, R216). -/
def State.coldFrame (s : State) (n start st : Nat) (endB : Bool) : List Byte :=
  s.header n 3 15 endB 24 ++ leBytes 8 start ++ leBytes 4 s.frameEpoch ++
    [BitVec.ofNat 8 (s.fld TL_FTA_CTL_RANK), BitVec.ofNat 8 st] ++ leBytes 2 0 ++ leBytes 4 (s.schCrc n) ++ leBytes 4 0

/-- Frames sent at the driven ends, at end A only with `onlyA`; each SFD leaves within 8 ns of the cycle start, by a free
amount (R185). -/
def State.sendEnds (s : State) (n : Nat) (onlyA : Bool) (f : Bool → List Byte) : State :=
  let a := s.draw 20
  let b := a.2.draw 20
  b.2.setLine n { s.line n with
    frameA := if s.drives n false then s.etherFrame n false (f false) else [], sfdA := a.1.toInt,
    frameB := if s.drives n true && !onlyA then s.etherFrame n true (f true) else [], sfdB := b.1.toInt }

/-- JC_TQ of the joints whose records a CYCLE frame carries. -/
def State.noteTorque (s : State) (n : Nat) : State :=
  s.onJoints n (fun s k => s.setFld (JC_TQ_V k) (leAt (tabGet (fun _ => []) (s.line n).lat (s.fld (JC_CFG_ADDR k))) 4 3))

/-! ### Frames received (R176) -/

/-- Whether LEN matches a frame's TYPE and body: the data of a mailbox frame stand in a WRITE request and in an OK response to READ or
IDENT; a response with another STATUS may leave them out. -/
def lenOk (p : List Byte) (len : Nat) : Bool :=
  let full := 8 + leAt p 12 2
  let op := leAt p 8 1
  match leAt p 0 1 % 16 with
  | 1 => len == 24 + 24 * leAt p 24 1
  | 2 => len == 40
  | 3 => len == 24
  | 4 => len == (if op = 2 then full else 8)
  | 5 => if op = 2 then len == 8 else if leAt p 14 1 = 0 then len == full else len == 8 || len == full
  | _ => false

/-- Whether the reserved bits of a body are 0. -/
def bodyReserved (p : List Byte) : Bool :=
  let b := fun (o : Nat) => leAt p (8 + o) 1
  match leAt p 0 1 % 16 with
  | 1 => leAt p (8 + 0x12) 6 == 0 && (List.range (b 0x10)).all (fun i =>
      let r := 0x18 + 24 * i
      b r / 16 == 0 && b (r + 1) / 64 == 0 && leAt p (8 + r + 0x14) 4 == 0)
  | 2 => b 0 / 16 == 0 && b 2 / 64 == 0 && leAt p (8 + 0x1E) 2 == 0
  | 3 => leAt p (8 + 0x0E) 2 == 0 && leAt p (8 + 0x14) 4 == 0
  | _ => b 7 == 0

/-- Whether a frame is valid at a port of line `n` (R10, R176). -/
def State.frameValid (s : State) (n : Nat) (f : LineFrame) : Bool :=
  let p := f.payload
  let len := leAt p 4 2
  f.fcsOk && !f.vlan && f.etherType.toNat == s.rig.etherType && leAt p 0 1 / 16 == 1 && lenOk p len && decide (8 + len ≤ p.length) &&
    leAt p 1 1 % 8 == n && leAt p 6 2 == 0 && bodyReserved p

/-- The port of line `n` at an end: A0 to A7 are 0 to 7, B0 to B7 are 8 to 15. -/
def portOf (n : Nat) (endB : Bool) : Nat := n + 8 * b2n endB

/-- A frame's port counters; whether it is valid (R176). -/
def State.countFrame (s : State) (n : Nat) (f : LineFrame) : State × Bool :=
  let q := portOf n f.endB
  if !f.fcsOk then (s.incFld (TL_PCNT_FCSERR q), false)
  else if s.frameValid n f then (s.incFld (TL_PRXOK_N q), true)
  else (s.incFld (TL_PCNT_OTHER q), false)

/-- The fields of the header that the rules use. -/
def frameType (f : LineFrame) : Nat := leAt f.payload 0 1 % 16
def frameSrc (f : LineFrame) : Nat := leAt f.payload 1 1 / 16
def frameRole (f : LineFrame) : Nat := leAt f.payload 2 1 / 64
def framePair (f : LineFrame) : Bool := (leAt f.payload 2 1).testBit 5
def frameEnd (f : LineFrame) : Bool := (leAt f.payload 2 1).testBit 4
def frameHops (f : LineFrame) : Nat := leAt f.payload 3 1

/-- Time of a stamp from a cycle start, in 2⁻¹⁶ ns (R3). -/
def sinceStart (t : Stamp) (start : Nat) : Int := stampDiff t ⟨BitVec.ofNat 32 start, 0, 0⟩

/-! ### Measurement of a node (R197, R207, R208) -/

/-- `d` and `θ` of a reply in 2⁻¹⁷ ns, from the times since the start: the own frame's SFD, reception, send instant in ns, node
stamp in 2⁻¹⁶ ns (R197). -/
def measure (t0 t1 : Int) (sendNs : Nat) (r : Int) : Int × Int :=
  let d := (t1 - t0) - ((sendNs : Int) * 65536 - r)
  (d, 2 * (r - t0) - d)

/-- The own SFD's deviation from the cycle start at an end. -/
def Line.sfd (l : Line) (endB : Bool) : Int := if endB then l.sfdB else l.sfdA

/-- A node's stamp of the frame at an end: RXTS since the start, and whether it is given. -/
def nodeStamp (rec : List Byte) (endB : Bool) (start : Nat) : Int × Bool :=
  let r := leAt rec (if endB then 0x18 else 0x14) 4
  let f := leAt rec (if endB then 0x1D else 0x1C) 1
  (diff32 r start * 65536 + f * 256, r != 0)

/-- A DELAY write queued for node `a`: both ends as last known (R208). -/
def State.queueDelay (s : State) (n a : Nat) : State :=
  let l := s.line n
  let d := leBytes 4 (tabGet (fun _ => 0) l.dA a) ++ leBytes 4 (tabGet (fun _ => 0) l.dB a)
  s.setLine n { l with autoQ := l.autoQ.filter (fun x => x.1 != a) ++ [(a, d)] }

/-- Whether an end's values are the ones that the registers of a node show: end A where this module drives it. -/
def State.showsEnd (s : State) (n : Nat) (endB : Bool) : Bool := endB == !s.drives n false

/-- A list of values by node with node `a`'s replaced. -/
def putNode (a v : Nat) (xs : List (Nat × Nat)) : List (Nat × Nat) := xs.filter (fun x => x.1 != a) ++ [(a, v)]

/-- A block of 256 delays complete: MEAS, which goes to the partner where it commands, DRIFT and the automatic DELAY write
(R208). -/
def State.delayBlock (s : State) (n a : Nat) (endB : Bool) (sum : Int) : State :=
  let m := (sum / 2 ^ 22).toNat % 65536
  let old := if s.showsEnd n endB then s.fld (TL_NODE_DLY_DLY n (a - 1))
             else tabGet (fun _ => 0) (if endB then (s.line n).dB else (s.line n).dA) a
  let s := if s.showsEnd n endB then s.setFld (TL_NODE_DLY_MEAS n (a - 1)) m else s
  let s := if s.flag PR_CTL_PAIREN && !(s.role == 0 || s.role == 1) then
      s.setLine n { s.line n with measSent := putNode a m (s.line n).measSent } else s
  if 128 < ((m : Int) - old).natAbs then
    let s := s.setFld (TL_NODE_TIME_DRIFT n (a - 1)) 1
    if s.flag (TL_SYNC_AUTODLY n) && (s.role == 0 || s.role == 1) then
      let l := s.line n
      let s := s.setLine n (if endB then { l with dB := tabSet (fun _ => 0) l.dB a m } else { l with dA := tabSet (fun _ => 0) l.dA a m })
      s.queueDelay n a
    else s
  else s

/-- A delay added to its block of 256 measurements (R208). -/
def State.addDelay (s : State) (n a : Nat) (endB : Bool) (d : Int) : State :=
  let l := s.line n
  let t := if endB then l.sumB else l.sumA
  let x := tabGet (fun _ => ((0 : Int), 0)) t a
  let y := if x.2 = 255 then ((0 : Int), 0) else (x.1 + d, x.2 + 1)
  let t' := tabSet (fun _ => ((0 : Int), 0)) t a y
  let s := s.setLine n (if endB then { l with sumB := t' } else { l with sumA := t' })
  if x.2 = 255 then s.delayBlock n a endB (x.1 + d) else s

/-- The measurement that an accepted reply gives (R197): θ and d of the cycle, kept until its end. -/
def State.measureReply (s : State) (n a : Nat) (f : LineFrame) (rec : List Byte) : State :=
  let st := (s.line n).cycAt
  let r := nodeStamp rec f.endB st
  if r.2 then
    let m := measure ((s.line n).sfd f.endB) (sinceStart f.sfd st) (s.slot n a) r.1
    let s := s.setFld (TL_NODE_TIME_OFS n (a - 1)) (ofS 16 (satS 16 (asr m.2 17)))
    let l := s.line n
    s.setLine n (if f.endB then
        { l with thB := tabSet (fun _ => 0) l.thB a (m.2 + 2 ^ 60), dcB := tabSet (fun _ => none) l.dcB a (some m.1) }
      else { l with thA := tabSet (fun _ => 0) l.thA a (m.2 + 2 ^ 60), dcA := tabSet (fun _ => none) l.dcA a (some m.1) })
  else s

/-! ### Replies (R186 to R188) -/

/-- Whether a line's nodes reply in their slots: RUNNING, or the VERIFY phase (R214). -/
def State.replying (s : State) (n : Nat) : Bool :=
  s.fld (TL_LSTAT_STATE n) == 4 || (s.fld (TL_LSTAT_STATE n) == 2 && s.fld (TL_TSTAT_PHASE n) == 3)

/-- The accepted records at an end. -/
def Line.acc (l : Line) (endB : Bool) : Tab (List Byte) := if endB then l.accB else l.accA

/-- A reply discarded outside its window (R186, R188). -/
def State.replyOut (s : State) (n a : Nat) (endB late : Bool) : State :=
  let q := portOf n endB
  let s := s.incFld (if late then TL_PCNT_LATE q else TL_PCNT_EARLY q)
  let s := (s.setFld (TL_NODE_STAT_LATE n (a - 1)) 1).incFld (TL_NODE_STAT_LATECNT n (a - 1))
  s.setFld (TL_NODE_TIME_INCNT n (a - 1)) 0

/-- The first copy of a reply accepted in a cycle: node status, counters, node fault (R80). -/
def State.firstCopy (s : State) (n a : Nat) (rec : List Byte) : State :=
  let st0 := leAt rec 1 1
  let st1 := leAt rec 2 1
  let s := (s.setFld (TL_NODE_STAT_ST0 n (a - 1)) st0).setFld (TL_NODE_STAT_ST1 n (a - 1)) st1
  let s := if st1.testBit 3 then s.incFld (TL_LCNT_MISMATCH n) else s
  let s := if st1.testBit 2 then s.incFld (TL_LCNT_NOACT n) else s
  if st0.testBit 3 && s.fld (TL_LSTAT_STATE n) == 4 && !(s.armJoints n).isEmpty then
    s.faultArm n ((s.nodeJoint n a).getD 255) 1 (leAt rec 3 1)
  else s

/-- A reply accepted at an end (R186, R187). -/
def State.replyIn (s : State) (n a : Nat) (f : LineFrame) : State :=
  let rec40 := sliceB f.payload 8 40
  let l := s.line n
  let mine := tabGet (fun _ => []) (l.acc f.endB) a
  let other := tabGet (fun _ => []) (l.acc (!f.endB)) a
  if mine ≠ [] then s
  else
    let s := if other = [] then s.firstCopy n a rec40
             else if other ≠ rec40 then s.incFld (TL_LCNT_COPYDIFF n) else s
    let l := s.line n
    let s := s.setLine n (if f.endB then { l with accB := tabSet (fun _ => []) l.accB a rec40 }
                          else { l with accA := tabSet (fun _ => []) l.accA a rec40 })
    s.measureReply n a f rec40

/-- A REPLY frame judged (R186). -/
def State.judgeReply (s : State) (n : Nat) (f : LineFrame) : State :=
  let a := frameSrc f
  let wrong := s.incFld (TL_LCNT_WRONGSRC n)
  if a = 0 ∨ s.nodes n < a ∨ !s.hasWin n a f.endB then wrong
  else
    let e := ((s.slot n a + s.offEnd n a f.endB : Nat) : Int) * 65536
    let g := ((s.fld (TL_HOP_G n) : Nat) : Int) * 65536
    let t := sinceStart f.sfd (s.line n).cycAt
    if t < e - g then wrong.replyOut n a f.endB false
    else if e + g ≤ t then wrong.replyOut n a f.endB true
    else s.replyIn n a f

/-- The record used of node `a` and the mask of the cycle's collection: end A's copy, failing that end B's (R187). -/
def State.collected (s : State) (n : Nat) : Tab (List Byte) × Nat :=
  let l := s.line n
  let pick := fun (a : Nat) =>
    let x := tabGet (fun _ => []) l.accA a
    if x ≠ [] then x else tabGet (fun _ => []) l.accB a
  ((List.range 10).foldl (fun r i =>
    let x := pick (i + 1)
    if x = [] then r else (tabSet (fun _ => []) r.1 (i + 1) x, r.2 + 2 ^ i)) ([], 0))

/-- Whether node `a`'s reply was accepted at every enabled end that this module drives. -/
def State.allEnds (s : State) (n a : Nat) : Bool :=
  let l := s.line n
  let ok := fun (b : Bool) => !s.hasWin n a b || tabGet (fun _ => []) (l.acc b) a != []
  ok false && ok true

/-- The delays of a cycle: those of a node that is not excluded enter their blocks (R207, R208), a joiner's those of its first 16
cycles at its end (R216). -/
def State.cycleDelays (s : State) (n a : Nat) : State :=
  let l := s.line n
  let d := fun (b : Bool) => tabGet (fun _ => none) (if b then l.dcB else l.dcA) a
  let s := match d (!s.drives n false) with
    | some x =>
      if 0 < l.joinLeft then
        let y := tabGet (fun _ => ((0 : Int), 0)) l.joinSum a
        s.setLine n { l with joinSum := tabSet (fun _ => ((0 : Int), 0)) l.joinSum a (y.1 + x, y.2 + 1) }
      else s
    | none => s
  if s.flag (TL_NODE_STAT_LATE n (a - 1)) then s
  else
    let s := match d false with | some x => s.addDelay n a false x | none => s
    match d true with | some x => s.addDelay n a true x | none => s

/-- A node at the end of its cycle: delays, SEEN, readmission after 16 cycles in window, θ of the round (R205, R207). -/
def State.endNode (s : State) (n a : Nat) : State :=
  let s := s.cycleDelays n a
  let l := s.line n
  let seen := tabGet (fun _ => []) l.accA a != [] || tabGet (fun _ => []) l.accB a != []
  let s := s.setFlag (TL_NODE_STAT_SEEN n (a - 1)) seen
  let th := if tabGet (fun _ => 0) l.thA a ≠ 0 then tabGet (fun _ => 0) l.thA a else tabGet (fun _ => 0) l.thB a
  if s.flag (TL_NODE_STAT_LATE n (a - 1)) then
    let c := if s.allEnds n a then min 16 (s.fld (TL_NODE_TIME_INCNT n (a - 1)) + 1) else 0
    let s := s.setFld (TL_NODE_TIME_INCNT n (a - 1)) c
    if c = 16 then s.setFld (TL_NODE_STAT_LATE n (a - 1)) 0 else s
  else if th ≠ 0 then
    let x := tabGet (fun _ => ((0 : Int), 0)) l.theta a
    s.setLine n { l with theta := tabSet (fun _ => ((0 : Int), 0)) l.theta a (x.1 + (th - 2 ^ 60), x.2 + 1) }
  else s

/-- The nodes at the end of a cycle, and the collection emptied. -/
def State.endCollection (s : State) (n : Nat) : State :=
  let s := (List.range (s.nodes n)).foldl (fun s i => s.endNode n (i + 1)) s
  let s := if (s.line n).wakeDone then s
    else let c := s.collected n; s.setLine n { s.line n with used := c.1, rx := c.2 }
  s.setLine n { s.line n with accA := [], accB := [], thA := [], thB := [], dcA := [], dcB := [] }

/-! ### Mailbox (R181) -/

/-- A GO written: refused while busy, while not ACTIVE or ALONE, or with too much data (TL_MBSTAT). -/
def State.mbGo (s : State) (n op : Nat) (v : Word) : State :=
  let s := (s.setFld (TL_MBCMD_OP n) op).setFld (TL_MBCMD_ADDR n) (bits v.toNat 4 4)
  let s := (s.setFld (TL_MBCMD_DLEN n) (bits v.toNat 8 8)).setFld (TL_MBCMD_INDEX n) (bits v.toNat 16 16)
  let dlen := bits v.toNat 8 8
  if (s.line n).mb.isSome || !s.commands || decide (8 * s.fld (TL_MBRSP_MBMAX n) < dlen) then
    s.setFld (TL_MBSTAT_STATUS n) 7
  else
    let l := s.line n
    let tag := (l.tag + 1) % 256
    let data := if op = 2 then ((List.range 32).flatMap (fun w => leBytes 4 (s.reg (TL_MBDATA n w)).toNat)).take dlen else []
    let ex : MbEx := ⟨op, bits v.toNat 4 4, dlen, if op = 3 then 0 else bits v.toNat 16 16, tag, data, 0, false, false⟩
    ((s.setLine n { l with mb := some ex, tag := tag }).setFld (TL_MBCMD_GO n) 1 |>.setFld (TL_LSTAT_MBBUSY n) 1).setFld (TL_MBSTAT_TAG n) tag

/-- The request frame of an exchange (R181). -/
def State.mbFrameOf (s : State) (n : Nat) (endB : Bool) (x : MbEx) : List Byte :=
  s.etherFrame n endB (s.header n 4 x.addr endB (8 + x.data.length) ++ [BitVec.ofNat 8 x.op, BitVec.ofNat 8 x.tag] ++
    leBytes 2 x.index ++ leBytes 2 x.dlen ++ [0, 0] ++ x.data)

/-- An exchange ended with a status; a firmware exchange clears GO and sets DONE. -/
def State.mbEnd (s : State) (n : Nat) (x : MbEx) (status : Nat) : State :=
  let s := (s.setLine n { s.line n with mb := none }).setFld (TL_LSTAT_MBBUSY n) 0
  if x.auto then
    if status = 0 then s.setFld (TL_NODE_DLY_DLY n (x.addr - 1)) (leAt x.data (if s.drives n false then 0 else 4) 2) else s
  else ((s.setFld (TL_MBCMD_GO n) 0).setFld (TL_MBSTAT_DONE n) 1).setFld (TL_MBSTAT_STATUS n) status

/-- An automatic DELAY write starts when no exchange is in progress (R208). -/
def State.mbAuto (s : State) (n : Nat) : State :=
  let l := s.line n
  match l.mb, l.autoQ with
  | none, (a, d) :: q =>
    let tag := (l.tag + 1) % 256
    (s.setLine n { l with mb := some ⟨2, a, 8, 0x11, tag, d, 0, true, false⟩, tag := tag, autoQ := q }).setFld (TL_LSTAT_MBBUSY n) 1
  | _, _ => s

/-- The MBREQ instant of a cycle: a request sent, or TIMEOUT after 256 (R181). -/
def State.mbSend (s : State) (n : Nat) : State :=
  let s := s.mbAuto n
  match (s.line n).mb with
  | none => s
  | some x =>
    if 256 ≤ x.count then s.mbEnd n x 6
    else
      let y := { x with count := x.count + 1, sentNow := true }
      s.setLine n { s.line n with mb := some y, mbFrame := s.mbFrameOf n (!s.drives n false) y }

/-- Response data placed in TL_MBDATA's 32 words; bytes of a word that it does not give keep. -/
def State.mbStore (s : State) (n : Nat) (d : List Byte) : State :=
  let d := d.take 128
  (List.range ((d.length + 3) / 4)).foldl (fun s w =>
    let x := (d.drop (4 * w)).take 4
    s.setReg (TL_MBDATA n w) (BitVec.ofNat 32 (leNat (x ++ (leBytes 4 (s.reg (TL_MBDATA n w)).toNat).drop x.length)))) s

/-- Whether a response lies in its window at its end (R181). -/
def State.mbWindow (s : State) (n a : Nat) (f : LineFrame) : Bool :=
  let e := ((s.fld (TL_MBRSP_V n) + s.offEnd n a f.endB : Nat) : Int) * 65536
  let g := ((s.fld (TL_HOP_G n) : Nat) : Int) * 65536
  let t := sinceStart f.sfd (s.line n).cycAt
  s.hasWin n a f.endB && decide (e - g ≤ t) && decide (t < e + g)

/-- A mailbox response accepted: PENDING repeats the request, any other status ends the exchange (R181). -/
def State.mbAnswer (s : State) (n : Nat) (f : LineFrame) : State :=
  match (s.line n).mb with
  | none => s
  | some x =>
    let p := f.payload
    if x.sentNow && frameSrc f == x.addr && leAt p 9 1 == x.tag && s.mbWindow n x.addr f then
      let st := leAt p 14 1
      if st = 1 then s.setLine n { s.line n with mb := some { x with sentNow := false } }
      else
        let s := if st = 0 ∧ x.op ≠ 2 ∧ !x.auto then s.mbStore n (sliceB p 16 (leAt p 12 2)) else s
        s.mbEnd n x st
    else s

/-! ### The commands -/

/-- MB_READ (R181). -/
def execMbRead (i : Initiator) (n : Fin 8) (v : Word) (s : State) : Out := .next (s.gated i (TL_MBCMD n) fun s => s.mbGo n 1 v)
/-- MB_WRITE (R181). -/
def execMbWrite (i : Initiator) (n : Fin 8) (v : Word) (s : State) : Out := .next (s.gated i (TL_MBCMD n) fun s => s.mbGo n 2 v)
/-- MB_IDENT (R181). -/
def execMbIdent (i : Initiator) (n : Fin 8) (v : Word) (s : State) : Out := .next (s.gated i (TL_MBCMD n) fun s => s.mbGo n 3 v)
/-- MBREQ (R181, R208): the MBREQ instant of a cycle of a RUNNING line. -/
def execMbreq (n : Fin 8) (s : State) : Out :=
  .next (if s.underWay && s.fld (TL_LSTAT_STATE n) == 4 && s.flag (TL_MBREQ_MBEN n) && s.commands && !s.pair.muted then s.mbSend n else s)
/-- MBRSP (R176, R181). -/
def execMbrsp (n : Fin 8) (f : LineFrame) (s : State) : Out :=
  .next (if s.underWay then
    let f := s.stamped n f
    let r := s.countFrame n f
    if r.2 && frameType f == 5 && r.1.fld (TL_LSTAT_STATE n) == 4 then r.1.mbAnswer n f else r.1
  else s)

end Sys2Proof.Machine
end

