-- ==== Sys2Proof/Machine/Shroud.lean ====
section
/-! DEFINITION. The shroud monitor: presence scans, snapshots, the two channels, the comparator, safe outputs (R149 to R171). -/

namespace Sys2Proof.Machine

/-! ### Presence frames and scans (R150, R151) -/

def State.sensor (s : State) (k : Nat) : Sensor := tabGet (fun _ => Sensor.reset) s.shroud.sensors k
def State.setSensor (s : State) (k : Nat) (x : Sensor) : State :=
  { s with shroud := { s.shroud with sensors := tabSet (fun _ => Sensor.reset) s.shroud.sensors k x } }

def State.badFrame (s : State) (k : Nat) : State := s.incFld (SH_SENS_CNT_BADFRAME k)

/-- Whether a segment's length and header pass (R150). -/
def segHeaderOk (k : Nat) (p : List Byte) : Bool :=
  let nitem := leAt p 10 2
  decide (16 ≤ p.length) && p.length == 16 + 8 * nitem && leAt p 0 2 == 1 && leAt p 2 1 == k && decide (nitem ≤ 176) &&
  decide (1 ≤ leAt p 9 1 ∧ leAt p 9 1 ≤ 8) && decide (leAt p 8 1 < leAt p 9 1) && decide (leAt p 3 1 < 4)

/-- The box at item `i`. -/
def segBox (p : List Byte) (i : Nat) : Box :=
  let o := 12 + 8 * i
  ⟨leAt p o 1, leAt p (o + 1) 1, leAt p (o + 2) 1, leAt p (o + 3) 1, leAt p (o + 4) 1, leAt p (o + 5) 1⟩

/-- Whether every box passes. -/
def segBoxesOk (p : List Byte) : Bool :=
  (List.range (leAt p 10 2)).all (fun i =>
    let b := segBox p i
    leAt p (18 + 8 * i) 2 == 0 && decide (b.z0 < 64 ∧ b.z1 < 64 ∧ b.x0 ≤ b.x1 ∧ b.y0 ≤ b.y1 ∧ b.z0 ≤ b.z1))

/-- Whether a segment's CRC holds (R150, R412). -/
def State.segCrcOk (s : State) (k : Nat) (p : List Byte) : Bool :=
  (crc32c (s.fld (SH_SENS_SEED_V k)) (p.take (p.length - 4))).toNat == leAt p (p.length - 4) 4

/-- The shroud period in ns (R16). -/
def State.shPeriod (s : State) : Nat := max 2 (min 8 (s.fld SH_CTL_SPER)) * 125000

/-- A stamp as cell time in 2⁻¹⁶ ns (R40). -/
def State.stampAt (s : State) (t : Stamp) : Nat := (s.fullTime t.ns.toNat * 65536 + t.frac.toNat).toNat % 2 ^ 80

/-- The scan that the next snapshot may still need beside a newer one: the newest from before the last shroud cycle start (R20). -/
def State.prevScan (s : State) (x : Sensor) : Option Scan :=
  let b := s.cycleStart s.shPeriod * 65536
  match x.scan with
  | some c => if c.at_ < b then some c else x.prev
  | none => x.prev

/-- A segment put into the scan being collected; the last one completes the scan, whose time is that segment's (R151). -/
def State.collect (s : State) (k at_ : Nat) (i : ScanIn) (seg : Nat) (flags : Nat) (boxes : List Box) : State :=
  let i := { i with flags := i.flags ||| flags, segs := tabSet (fun _ => []) i.segs seg boxes, got := insNat seg i.got }
  let x := s.sensor k
  if i.got.length < i.nseg then s.setSensor k { x with inc := some i }
  else
    let b := s.cycleStart s.shPeriod
    let waits := fun (c : Scan) => decide (c.at_ < b * 65536) && s.shroud.cycAt != some b
    let skipped := match x.scan with | some c => !c.used && !waits c | none => false
    let s := if skipped then s.incFld (SH_SENS_CNT_SKIPPED k) else s
    let c : Scan := ⟨i.seq, at_, i.flags.testBit 0, i.segs.flatMap (fun e => e.2), false⟩
    (s.setSensor k { x with scan := some c, prev := s.prevScan x, inc := none, last := some i.seq, lastRst := i.flags.testBit 1 }).setFld (SH_SENS_SEQ_V k) i.seq

/-- A checked segment of scan `seq` (R151). -/
def State.takeSegment (s : State) (k at_ seq seg nseg flags : Nat) (boxes : List Box) : State :=
  let x := s.sensor k
  let old := match x.last with | some l => decide (diff32 seq l ≤ 0) | none => false
  if old && !(flags.testBit 1 && !x.lastRst) then s.badFrame k
  else
    let s := if old then
        (s.setSensor k { x with scan := none, prev := none, inc := none, last := none }).setFld (SH_SENS_STAT_RESTART k) 1
      else s
    match (s.sensor k).inc with
    | none => s.collect k at_ ⟨seq, nseg, 0, [], []⟩ seg flags boxes
    | some i =>
      if i.seq = seq then
        if i.nseg ≠ nseg ∨ seg ∈ i.got then s.badFrame k else s.collect k at_ i seg flags boxes
      else if diff32 seq i.seq < 0 then s.badFrame k
      else (s.incFld (SH_SENS_CNT_INCOMPLETE k)).collect k at_ ⟨seq, nseg, 0, [], []⟩ seg flags boxes

/-- A presence segment for sensor `k` judged in the order of R150. -/
def State.segment (s : State) (k at_ : Nat) (fragmented : Bool) (p : List Byte) : State :=
  if !s.flag (SH_SENS_CFG_USED k) then s
  else if fragmented || !segHeaderOk k p then s.badFrame k
  else if !s.segCrcOk k p then s.incFld (SH_SENS_CNT_CRCERR k)
  else if !segBoxesOk p then s.badFrame k
  else s.takeSegment k at_ (leAt p 4 4) (leAt p 8 1) (leAt p 9 1) (leAt p 3 1) ((List.range (leAt p 10 2)).map (segBox p))

/-! ### Separation (R149, R157) -/

/-- The half-diagonal of a presence cell: q·√3 / 2 rounded up, with q = 2p (R149). -/
def cellHalf (p : Nat) : Nat := isqrtUp (3 * p * p)

/-- The squared distance of a point from a segment as a fraction. -/
def segDist2 (e : Ends) (c : Int × Int × Int) : Int × Int :=
  let a := (e.getD 0 0, e.getD 1 0, e.getD 2 0)
  let b := (e.getD 3 0, e.getD 4 0, e.getD 5 0)
  let ab := vsub b a
  let ac := vsub c a
  let t := vdot ac ab
  let l2 := vdot ab ab
  if t ≤ 0 then (vdot ac ac, 1)
  else if l2 ≤ t then (vdot (vsub c b) (vsub c b), 1)
  else (vdot ac ac * l2 - t * t, l2)

/-- The cells of a box. -/
def boxCells (b : Box) : List (Nat × Nat × Nat) :=
  (List.range (b.z1 + 1 - b.z0)).flatMap (fun k => (List.range (b.y1 + 1 - b.y0)).flatMap (fun j =>
    (List.range (b.x1 + 1 - b.x0)).map (fun i => (b.x0 + i, b.y0 + j, b.z0 + k))))

/-- A cell's centre for canvas pitch `p`, in µm. -/
def cellCentre (p : Nat) (c : Nat × Nat × Nat) : Int × Int × Int :=
  let f := fun (i : Nat) => ((((2 * i + 1) * p : Nat)) : Int)
  (f c.1, f c.2.1, f c.2.2)

/-- The separation of one cell from one capsule, if the cell lies within the search limit. -/
def cellSep (p lim : Nat) (e : Ends) (r : Nat) (c : Nat × Nat × Nat) : Option Nat :=
  let x := segDist2 e (cellCentre p c)
  let hp := cellHalf p
  let far := ((lim + r + hp : Nat) : Int)
  if far * far * x.2 < x.1 then none else some (isqrt (x.1 / x.2).toNat - r - hp)

/-- The separation of an arm in µm (R157): `lim` is DMAX × 1 000. -/
def separation (p lim : Nat) (boxes : List Box) (caps : List (Ends × Nat)) : Nat :=
  (boxes.flatMap boxCells).foldl (fun m c =>
    caps.foldl (fun m e => match cellSep p lim e.1 e.2 c with | some d => min m d | none => m) m) lim

/-! ### The protective distance (R158, R160) -/

/-- A scale with 0xFFFF as 65 536. -/
def fullScale (s : Nat) : Nat := if s = 0xFFFF then 65536 else s

/-- The ceiling of `a / b` for numbers of any sign. -/
def ceilI (a b : Int) : Int := -((-a) / b)

/-- Linear interpolation at `v` between two points, rounded up. -/
def interp (v0 y0 v1 y1 v : Nat) : Nat :=
  let d : Int := (v1 : Int) - v0
  (ceilI ((y0 : Int) * d + ((y1 : Int) - y0) * ((v : Int) - v0)) d).toNat

/-- TS and SS at a speed; none above the last used point (R158). -/
def stopTable : List (Nat × Nat × Nat) → Nat → Option (Nat × Nat)
  | [], _ => none
  | [a], v => if v = a.1 then some (a.2.1, a.2.2) else none
  | a :: b :: rest, v =>
    if v ≤ b.1 then some (interp a.1 a.2.1 b.1 b.2.1 v, interp a.1 a.2.2 b.1 b.2.2 v)
    else stopTable (b :: rest) v

/-- The used points of an arm's stopping table (R158). -/
def State.stopPoints (s : State) (n : Nat) : List (Nat × Nat × Nat) :=
  let pt := fun (k : Nat) => (s.fld (SH_STOP_V_V n k), s.fld (SH_STOP_TS_TS n k), s.fld (SH_STOP_SS_SS n k))
  pt 0 :: (((List.range 31).map (fun k => pt (k + 1))).takeWhile (fun x => x.1 != 0))

/-- The protective separation distance in µm; none where the band is not eligible (R158). -/
def State.psd (s : State) (n sc sb : Nat) : Option Nat :=
  let vmax := s.fld (SH_ARM_CFG_VMAX n)
  let tr := s.fld (SH_ARM_TIME_TR n)
  let tdrop := s.fld (SH_ARM_TIME_TDROP n)
  let tramp := if sc < sb then ceilDiv (tdrop * (sb - sc)) 65536 else 0
  match stopTable (s.stopPoints n) (vmax * sc / 65536) with
  | none => none
  | some (ts, ss) =>
    let sh := ceilDiv (s.fld SH_VH_V * (tr + tramp + ts)) 1000
    let sr := ceilDiv (vmax * max sc sb * (tr + tramp)) (65536 * 1000)
    some (sh + sr + ss + 1000 * (s.fld (SH_ARM_CZ_C n) + s.fld SH_ZD_V + s.fld (SH_ARM_CZ_ZR n)))

/-- The scale of band `k`. -/
def State.bandScale (s : State) (n k : Nat) : Nat :=
  if k % 2 = 0 then s.fld (SH_ARM_BAND_LO n (k / 2)) else s.fld (SH_ARM_BAND_HI n (k / 2))

/-- The band chosen from a separation: the first one whose distance holds (R160). -/
def State.chooseBand (s : State) (n : Nat) (placed : Bool) (sOut sb sep : Nat) : Option Nat :=
  (List.range (s.fld (SH_ARM_CFG_NBAND n) + 1)).find? (fun k =>
    let sc := fullScale (s.bandScale n k)
    let m := if fullScale sOut < sc then s.fld SH_HYST_V * 1000 else 0
    !(!placed && decide (k < s.fld (SH_ARM_CFG_UNPLB n))) &&
    (match s.psd n sc sb with | some d => decide (d + m ≤ sep) | none => false))

/-! ### A channel (R156, R161) -/

/-- The largest displacement of any end point, each rounded up. -/
def moved (a b : List Ends) : Nat :=
  ((a.zip b).flatMap (fun x =>
    let d := fun (o : Nat) =>
      let q := fun (i : Nat) => (x.1.getD (o + i) 0 - x.2.getD (o + i) 0)
      isqrtUp (q 0 * q 0 + q 1 * q 1 + q 2 * q 2).toNat
    [d 0, d 3])).foldl max 0

/-- Whether a placed arm moved faster than its ramp bound allows (R161). -/
def State.overspeed (s : State) (n : Nat) (prev : Option PrevPose) (active : List Nat) (ends : List Ends) : Bool :=
  match prev with
  | none => false
  | some p =>
    if p.active ≠ active then false
    else
      let v := ceilDiv (moved p.ends ends * 1000) (s.shPeriod / 1000)
      decide (s.fld (SH_ARM_CFG_VMAX n) * p.sb + s.fld (SH_ARM_VTOL_V n) * 65536 < v * 65536)

/-- The envelope capsule of an arm (R156). -/
def State.envelope (s : State) (n : Nat) : Option (Ends × Nat) :=
  (s.shroud.safety.env.find? (fun e => e.1 == n)).map (fun e => e.2)

/-- One channel's result for an arm, from the end points of the active capsules; none without end points for a placed arm. -/
def State.channel (s : State) (n : Nat) (a : SnapArm) (boxes : List Box) (ends : Option (List Ends)) (prev : Option PrevPose) :
    Option ChRes :=
  let caps := if a.placed then
      ends.map (fun es => (es.zip a.active).map (fun x => (x.1, (s.shroud.safety.caps.getD x.2 ⟨0, 0, 0⟩).r)))
    else (s.envelope n).map (fun e => [e])
  caps.map (fun cs =>
    let sep := separation (pitchUm s.cvPitch) (s.fld SH_DMAX_V * 1000) boxes cs
    if a.placed && s.overspeed n prev a.active (cs.map (fun c => c.1)) then ⟨sep, cs, 0, true, 0, 2⟩
    else match s.chooseBand n a.placed a.sOut a.sb sep with
      | some k => ⟨sep, cs, s.bandScale n k, false, k, 0⟩
      | none => ⟨sep, cs, 0, true, 0, 1⟩)

/-- The places of an arm's active capsules among its capsules of the rig. -/
def State.activePlaces (s : State) (n : Nat) (active : List Nat) : List Nat :=
  let mine := (List.range s.shroud.safety.caps.length).filter (fun c => (s.shroud.safety.caps.getD c ⟨0, 0, 0⟩).arm == n)
  active.map (fun c => mine.idxOf c)

/-- Channel 1's end points: from the pose block (R154). -/
def State.ends1 (s : State) (n : Nat) (a : SnapArm) : Option (List Ends) :=
  a.pose.map (fun es => (s.activePlaces n a.active).map (fun k => es.getD k []))

/-- Channel 2's end points: from the raw counts and offsets (R155). -/
def State.ends2 (s : State) (a : SnapArm) : Option (List Ends) :=
  a.raw.map (fun js => a.active.map (fun c => Config.shPose s.shroud.safety.bytes c js))

/-- What the next overspeed test of an arm needs (R161). -/
def keepPose (a : SnapArm) (r : Option ChRes) : Option PrevPose :=
  match a.placed, r with
  | true, some x => some ⟨a.active, x.caps.map (fun c => c.1), a.sb⟩
  | _, _ => none

/-- A channel's results for every arm of the snapshot. -/
def State.results (s : State) (sn : Snap) (ends : Nat → SnapArm → Option (List Ends)) (prev : Tab (Option PrevPose)) :
    List (Nat × Option ChRes) :=
  sn.arms.map (fun x => (x.1, s.channel x.1 x.2 sn.boxes (ends x.1 x.2) (tabGet (fun _ => none) prev x.1)))

/-- The poses kept after a channel's results. -/
def keepAll (sn : Snap) (rs : List (Nat × Option ChRes)) : Tab (Option PrevPose) :=
  (sn.arms.zip rs).foldl (fun t x => tabSet (fun _ => none) t x.1.1 (keepPose x.1.2 x.2.2)) []

/-- A channel's duration recorded in units of 10 ns (R165). -/
def State.chanTime (s : State) (last max : Fld) (b : Nat) : State :=
  let d := min 65535 ((s.nowNs - b) / 10)
  (s.setFld last d).maxFld max d

/-- Channel 1 completes, within a shroud period of its snapshot (R165). -/
def State.channel1 (s : State) : State :=
  match s.shroud.snap with
  | none => s
  | some sn =>
    if sn.r1.isSome ∨ sn.b + s.shPeriod < s.nowNs then s else
    let rs := s.results sn (fun n a => s.ends1 n a) s.shroud.prev1
    let s := s.chanTime SH_C1TIME_LAST SH_C1TIME_MAX sn.b
    { s with shroud := { s.shroud with snap := some { sn with r1 := some rs }, prev1 := keepAll sn rs } }

/-- A homing offset handed to channel 2: accepted within the tolerance, else OFSREJ (R155). -/
def State.takeOffer (s : State) (k : Nat) : State :=
  match (s.joint k).offer with
  | none => s
  | some o =>
    let s := s.setJoint k { s.joint k with offer := none }
    let ok := match s.shroud.safety.ofs.find? (fun e => e.1 == k) with
      | some e => decide (((o - e.2.1).natAbs) ≤ e.2.2)
      | none => false
    let s := { s with shroud := { s.shroud with ofs := tabSet (fun _ => none) s.shroud.ofs k (if ok then some o else none) } }
    if ok then s else s.setFld (SH_ARM_STAT_OFSREJ (s.fld (JC_CFG_ARM k))) 1

/-- Channel 2 completes; it has no result while a safety core is halted (R165, R267). -/
def State.channel2 (s : State) : State :=
  if s.scHalted 0 || s.scHalted 1 then s else
  let s := (List.range 64).foldl (fun s k => s.takeOffer k) s
  match s.shroud.snap with
  | none => s
  | some sn =>
    if sn.r2.isSome ∨ sn.b + s.shPeriod < s.nowNs then s else
    let rs := s.results sn (fun _ a => s.ends2 a) s.shroud.prev2
    let s := s.chanTime SH_C2TIME_LAST SH_C2TIME_MAX sn.b
    { s with shroud := { s.shroud with snap := some { sn with r2 := some rs }, prev2 := keepAll sn rs } }

/-! ### The comparator (R162 to R164, R170) -/

/-- An arm's outputs: scale, stop bit, band, cause. -/
structure ShOut where
  scale : Nat
  pstop : Bool
  band : Nat
  cause : Nat
  deriving DecidableEq, Repr

/-- The outputs in effect (SH_ARMn_OUT). -/
def State.shOut (s : State) (n : Nat) : ShOut :=
  ⟨s.fld (SH_ARM_OUT_SCALE n), s.flag (SH_ARM_OUT_PSTOP n), s.fld (SH_ARM_OUT_BAND n), s.fld (SH_ARM_OUT_CAUSE n)⟩

/-- The outputs put into effect. -/
def State.setShOut (s : State) (n : Nat) (o : ShOut) : State :=
  (((s.setFld (SH_ARM_OUT_SCALE n) o.scale).setFlag (SH_ARM_OUT_PSTOP n) o.pstop).setFld (SH_ARM_OUT_BAND n) o.band).setFld
    (SH_ARM_OUT_CAUSE n) o.cause

/-- The more restrictive of two outputs: a stop if either stops, the smaller scale. -/
def stricter (a b : ShOut) : ShOut :=
  if a.pstop then a else if b.pstop then b else if b.scale < a.scale then b else a

def ChRes.out (r : ChRes) : ShOut := ⟨r.scale, r.pstop, r.band, r.cause⟩

/-- Whether the two results of an arm disagree (R162). -/
def State.disagrees (s : State) (placed : Bool) (r1 r2 : Option ChRes) : Bool :=
  match r1, r2 with
  | some a, some b =>
    decide (s.fld SH_TOL_SEPTOL < ((a.sep : Int) - b.sep).natAbs) ||
    (placed && (a.caps.zip b.caps).any (fun x => (x.1.1.zip x.2.1).any (fun y => decide (s.fld SH_TOL_POSTOL < (y.1 - y.2).natAbs))))
  | _, _ => true

/-- The outputs that R163 gives an arm that is not FORCED. -/
def chosenOut (old : ShOut) (dis : Bool) (r1 r2 : Option ChRes) : ShOut :=
  match r1, r2 with
  | some a, some b => if dis then stricter (stricter a.out b.out) old else stricter a.out b.out
  | _, _ => old

/-- A separation in mm as SH_ARMn_SEP reports it. -/
def sepMm (r : Option ChRes) : Option Nat := r.map (fun x => min 65535 (x.sep / 1000))

/-- SH_ARMn_SEP written: a missing separation has no stated value. -/
def State.putSep (s : State) (n : Nat) (r1 r2 : Option ChRes) : State :=
  let d := s.draw 32
  let v1 := (sepMm r1).getD (d.1.toNat % 65536)
  let v2 := (sepMm r2).getD (d.1.toNat / 65536)
  let s := if r1.isSome && r2.isSome then s else d.2
  (s.setFld (SH_ARM_SEP_SEP1 n) v1).setFld (SH_ARM_SEP_SEP2 n) v2

/-- An arm's counts after a comparison, and FORCED at the second disagreement (R164). -/
def State.countDis (s : State) (n : Nat) (dis : Bool) : State :=
  if dis then
    let c := min 2 (s.fld (SH_ARM_STAT_DCOUNT n) + 1)
    let s := ((s.setFld (SH_ARM_STAT_DCOUNT n) c).setFld (SH_ARM_STAT_AGREECNT n) 0).incFld SH_CNT_DISCNT
    if c = 2 ∧ !s.flag (SH_ARM_STAT_FORCED n) then
      ((s.setFld (SH_ARM_STAT_FORCED n) 1).sticky 97 n (s.reg (SH_ARM_SEP n)).toNat).incFld SH_CNT_FORCECNT
    else s
  else (s.setFld (SH_ARM_STAT_DCOUNT n) 0).incFld (SH_ARM_STAT_AGREECNT n)

/-- The comparison of one arm, which counts as a disagreement where `miss` (R170): its state after the counts, and the outputs of this module's own comparator. -/
def State.compareArm (s : State) (n : Nat) (miss placed : Bool) (r1 r2 : Option ChRes) : State × ShOut × Bool :=
  let dis := miss || s.disagrees placed r1 r2
  let s := (s.putSep n r1 r2).countDis n dis
  (s, if s.flag (SH_ARM_STAT_FORCED n) then ⟨0, true, 0, 3⟩ else chosenOut (s.shOut n) dis r1 r2, dis)

/-- The comparator over the snapshot's arms: own outputs by arm, and the arms that disagreed. -/
def State.compareAll (s : State) (sn : Snap) (miss : Bool) : State × List (Nat × ShOut) × Nat :=
  let at_ := fun (r : Option (List (Nat × Option ChRes))) (n : Nat) =>
    match r with | some l => (match l.find? (fun x => x.1 == n) with | some x => x.2 | none => none) | none => none
  sn.arms.foldl (fun x a =>
    let c := x.1.compareArm a.1 miss a.2.placed (at_ sn.r1 a.1) (at_ sn.r2 a.1)
    (c.1, x.2.1 ++ [(a.1, c.2.1)], x.2.2 + (if c.2.2 then 2 ^ a.1 else 0))) (s, [], 0)

/-- A channel that had no result in time (R165): the duration reported is open. -/
def State.judgeLate (s : State) (late : Fld) (r : Option (List (Nat × Option ChRes))) (ch : Nat) : State :=
  if r.isSome then s else
  let d := s.draw 32
  (d.2.setFld late 1).sticky 98 ch d.1.toNat

/-- Whether two outputs carry the same scale and stop bit. -/
def sameOut (a b : ShOut) : Bool := a.scale == b.scale && a.pstop == b.pstop

/-- The outputs in effect of an arm replaced; STOPCNT counts new stop bits. -/
def State.effect (s : State) (n : Nat) (o : ShOut) : State :=
  let s := if o.pstop && !s.flag (SH_ARM_OUT_PSTOP n) then s.incFld SH_CNT_STOPCNT else s
  s.setShOut n o

/-- The standby's outputs of an arm: those received, its own used only for the check (R170); where they differ, the band and the
cause that it shows are open. A missing result keeps the outputs in effect, but for an arm that it made FORCED (R163, R164). -/
def State.standbyOut (s : State) (n : Nat) (own : ShOut) (got : List (Fin 8 × BitVec 16 × Bool)) : State :=
  match got.find? (fun g => g.1.val == n) with
  | none => if s.flag (SH_ARM_STAT_FORCED n) then s.effect n own else s
  | some g =>
    let r : ShOut := ⟨g.2.1.toNat, g.2.2, own.band, own.cause⟩
    if sameOut r own then s.effect n r
    else
      let d := s.draw 7
      (d.2.setFld SH_STAT_PAIRDIFF 1).effect n { r with band := d.1.toNat % 8, cause := d.1.toNat / 8 }

/-- The FORCED summary of SH_STAT. -/
def State.showForced (s : State) : State :=
  s.setFld SH_STAT_FORCED ((List.range 8).foldl (fun m n => m + (if s.flag (SH_ARM_STAT_FORCED n) then 2 ^ n else 0)) 0)

/-- The outputs due at a shroud cycle start put into effect (R21, R163, R170); a channel without a result in time has no end points
for the next overspeed test (R161). -/
def State.shCompare (s : State) : State :=
  match s.shroud.snap with
  | none => s
  | some sn =>
    let s := (s.judgeLate SH_STAT_C1LATE sn.r1 1).judgeLate SH_STAT_C2LATE sn.r2 2
    let standby := s.role == 2 || s.role == 3
    let c := s.compareAll sn (standby && s.pair.shGot.isNone)
    let s := c.1.setFld SH_STAT_DISAGREE c.2.2
    let s := { s with shroud := { s.shroud with
      snap := none
      prev1 := if sn.r1.isSome then s.shroud.prev1 else []
      prev2 := if sn.r2.isSome then s.shroud.prev2 else [] } }
    let s := if standby then
        let got := s.pair.shGot.getD []
        c.2.1.foldl (fun (s : State) x => s.standbyOut x.1 x.2 got) { s with pair := { s.pair with shGot := none } }
      else
        let s := c.2.1.foldl (fun (s : State) x => s.effect x.1 x.2) s
        { s with shroud := { s.shroud with sent := c.2.1.map (fun x => (Fin.ofNat 8 x.1, BitVec.ofNat 16 x.2.scale, x.2.pstop)) } }
    s.showForced

/-- The ramp bound of an arm at a cycle start (R159). -/
def State.rampBound (s : State) (n : Nat) : State :=
  let td := s.fld (SH_ARM_TIME_TDROP n)
  let d := if td = 0 then 65536 else s.shPeriod / 1000 * 65536 / td
  s.setFld (SH_ARM_STAT_SBOUND n) (max (fullScale (s.fld (SH_ARM_OUT_SCALE n))) (s.fld (SH_ARM_STAT_SBOUND n) - d))

/-! ### Safe outputs (R166, R167) -/

/-- Whether safe pair `m` is on from a cycle start (R166). -/
def State.safeOn (s : State) (m : Nat) : Bool :=
  s.underWay && (s.role == 0 || s.role == 1) && !s.flag (SH_SO_STAT_FBFAULT m) &&
  (List.range 8).all (fun n =>
    !((s.fld (SH_SO_CFG_ARMS m)).testBit n) ||
    (!s.flag (SH_ARM_OUT_PSTOP n) && !s.flag (SH_ARM_STAT_FORCED n) &&
     (!s.flag (SH_SO_CFG_MODE m) || decide (s.fld (SH_SO_CFG_MINSCALE m) ≤ s.fld (SH_ARM_OUT_SCALE n)))))

/-- The pair switched at a cycle start. -/
def State.safeSwitch (s : State) (m : Nat) : State := s.setFlag (SH_SO_STAT_ON m) (s.safeOn m)

/-- FBFAULT latched: both wires off; only the readback that latches it is an occurrence (R167). -/
def State.fbFault (s : State) (m : Nat) (a b : Bool) : State :=
  let was := s.flag (SH_SO_STAT_FBFAULT m)
  let s := (s.setFld (SH_SO_STAT_FBFAULT m) 1).setFld (SH_SO_STAT_ON m) 0
  if was then s else s.sticky 99 m (b2n a + 2 * b2n b)

/-- Both wires read back (R167). -/
def State.soReadback (s : State) (m : Nat) (a b : Bool) : State :=
  let s := (s.setFlag (SH_SO_STAT_RBA m) a).setFlag (SH_SO_STAT_RBB m) b
  let on := s.flag (SH_SO_STAT_ON m)
  if a = on ∧ b = on then s else s.fbFault m a b

/-! ### Snapshots (R20, R152 to R156, R169) -/

/-- The records of the servo cycle of a line that ended at `b` (R20). -/
def State.cycleRecs (s : State) (n b : Nat) : Tab (List Byte) :=
  let l := s.line n
  if l.cycAt = b ∨ l.wakeDone then l.used else (s.collected n).1

/-- Whether a line sends a CYCLE frame at the cycle start in which cell time lies: one that is RUNNING and does not stop there, or one
that enters RUNNING there (R211, R214, R216). -/
def State.sendsAt (s : State) (n : Nat) : Bool :=
  let l := s.line n
  let st := s.fld (TL_LSTAT_STATE n)
  !s.pair.muted &&
  (if l.seenCyc && l.cycAt == s.cycleStart (s.linePer n) then st == 4
   else !l.stopReq && (st == 4 || (l.runNext && (st == 2 || st == 3))))

/-- Whether every line in use sends CYCLE frames (R169). -/
def State.allRunning (s : State) : Bool := (List.range 8).all (fun n => s.nodes n == 0 || s.sendsAt n)

/-- Whether an arm is placed (R156). -/
def State.placed (s : State) (n : Nat) : Bool :=
  (s.armJoints n).all (fun k =>
    (s.joint k).homed &&
    (!(s.fld (JC_CFG_HMODE k) == 1 || s.fld (JC_CFG_HMODE k) == 2) || (tabGet (fun _ => none) s.shroud.ofs k).isSome))

/-- The active capsules of an arm (R153). -/
def State.activeCaps (s : State) (n : Nat) : List Nat :=
  let sel := s.effFld (SH_ARM_CAPSEL_SEL n)
  (List.range s.shroud.safety.caps.length).filter (fun c =>
    let x := s.shroud.safety.caps.getD c ⟨0, 0, 0⟩
    x.arm == n && (x.group == 0 || (2 * sel).testBit x.group))

/-- An arm's raw counts with channel 2's offsets by joint slot; none when a reply is missing (R155). -/
def State.rawCounts (s : State) (n b : Nat) : Option (List (Nat × Int)) :=
  let recs := s.cycleRecs n b
  let js := (s.armJoints n).map (fun k =>
    let r := tabGet (fun _ => []) recs (s.fld (JC_CFG_ADDR k))
    if r = [] then none
    else
      let nom := match s.shroud.safety.ofs.find? (fun e => e.1 == k) with | some e => e.2.1 | none => 0
      some (leAt r 4 4, (tabGet (fun _ => none) s.shroud.ofs k).getD nom))
  if js.all Option.isSome then some (js.filterMap id) else none

/-- The pending SH_APPLY put into effect at a snapshot (R153). -/
def State.shTakeApply (s : State) (b : Nat) : State :=
  match s.shroud.applyAt with
  | none => s
  | some t =>
    if reached t (b % 2 ^ 32) then
      let s := { s with shroud := { s.shroud with applyAt := none } }
      (List.range 8).foldl (fun s n =>
        if s.flag (SH_ARM_STAT_PEND n) then
          (s.setEff (SH_ARM_CAPSEL n) (s.reg (SH_ARM_CAPSEL n))).setFld (SH_ARM_STAT_PEND n) 0
        else s) s
    else s

/-- A sensor at a snapshot: the state after it, and the boxes that it contributes (R152). -/
def State.senseAt (s : State) (k b : Nat) : State × List Box :=
  if !s.flag (SH_SENS_CFG_USED k) then (s, []) else
  let x := s.sensor k
  let old := match x.scan with | some c => decide (b * 65536 ≤ c.at_) | none => true
  let sc := if old then x.prev.filter (fun c => decide (c.at_ < b * 65536)) else x.scan
  let age := sc.map (fun c => b * 65536 - c.at_ + s.fld (SH_SENS_TIME_LAT k) * 1000 * 65536)
  let fault := match sc with | some c => c.fault | none => false
  let stale : Bool := match age with | some a => decide (s.fld (SH_SENS_TIME_STALE k) * 1000 * 65536 ≤ a) || fault | none => true
  let us := age.map (fun a => a / (1000 * 65536))
  let fov : List Box := match s.shroud.safety.fov.find? (fun e => e.1 == k) with | some e => e.2 | none => []
  let s := ((s.setFlag (SH_SENS_STAT_STALE k) stale).setFlag (SH_SENS_STAT_FAULT k) fault).setFld (SH_SENS_STAT_AGE k)
    (match us with | some u => min 65535 u | none => 65535)
  let s := if stale && !x.was then s.sticky 96 k (match us with | some u => u | none => 2 ^ 32 - 1) else s
  let s := s.setSensor k { x with
    was := stale
    prev := if old then x.prev.map (fun c => { c with used := true }) else x.prev
    scan := if old then x.scan else x.scan.map (fun c => { c with used := true }) }
  let out : List Box := match stale, sc with | true, _ => fov | false, some c => c.boxes | false, none => []
  (s, out)

/-- The presence map of a snapshot as boxes, and SH_STAT.STALE. -/
def State.presence (s : State) (b : Nat) : State × List Box :=
  let r := (List.range 8).foldl (fun x k => let y := x.1.senseAt k b; (y.1, x.2 ++ y.2)) (s, [])
  let m := (List.range 8).foldl (fun m k => m + (if r.1.flag (SH_SENS_CFG_USED k) && r.1.flag (SH_SENS_STAT_STALE k) then 2 ^ k else 0)) 0
  (r.1.setFld SH_STAT_STALE m, r.2)

/-- An arm in the snapshot at `b`. -/
def State.snapArm (s : State) (n b : Nat) : SnapArm :=
  { placed := s.placed n, active := s.activeCaps n, sOut := s.fld (SH_ARM_OUT_SCALE n), sb := s.fld (SH_ARM_STAT_SBOUND n),
    pose := match tabGet (fun _ => none) s.shroud.poses n with | some p => if p.1 = b then some p.2 else none | none => none,
    raw := s.rawCounts n b }

/-- The snapshot at `b` (R20, R169). -/
def State.shSnapshot (s : State) (b : Nat) : State :=
  if !s.shroud.started && !(s.flag SH_CTL_RUN && s.allRunning) then s else
  let s := s.shTakeApply b
  let p := s.presence b
  let s := p.1
  let arms := ((List.range 8).filter (fun n => s.flag (SH_ARM_CFG_USED n))).map (fun n => (n, s.snapArm n b))
  let s := arms.foldl (fun s a => s.setFlag (SH_ARM_STAT_PLACED a.1) a.2.placed) s
  { s with shroud := { s.shroud with started := true, snap := some ⟨b, p.2, arms, none, none⟩ } }

/-- The pose block of an arm copied at the latch point of the cycle that ends at `b` (R154). -/
def State.copyPose (s : State) (n b : Nat) (inTime : Bool) : State :=
  let cnt := (s.shroud.safety.caps.filter (fun c => c.arm == n)).length
  let a := s.fld (SH_ARM_POSEADDR_V n)
  let es := (List.range cnt).map (fun k => (List.range 6).map (fun i => toS 32 (s.seWord n (a + 24 * k + 4 * i))))
  { s with shroud := { s.shroud with poses := tabSet (fun _ => none) s.shroud.poses n (if inTime then some (b, es) else none) } }

/-! ### The shroud cycle start (R21, R171) -/

/-- The arms whose outputs in effect differ between two states. -/
def changedArms (s t : State) : Nat :=
  (List.range 8).foldl (fun m n => m + (if s.shOut n = t.shOut n then 0 else 2 ^ n)) 0

/-- The notification of a change (R171). -/
def State.shNotify (s : State) (mask b : Nat) : State :=
  if mask = 0 then s else
  let s := s.hwPost .shroud (s.fld SH_CTL_HALFLOW) (s.fld SH_CTL_HPRIO) 6 mask (b % 2 ^ 32)
  if s.flag SH_CTL_IRQ then s.cause 3 else s

/-- A shroud cycle start at `b`: outputs, ramp bounds, safe pairs, snapshot, net 1, notification (R21, R24). -/
def State.shCycle (s : State) (b : Nat) : State :=
  let t := { s with shroud := { s.shroud with cycAt := some b } }.shCompare
  let t := (List.range 8).foldl (fun s n => s.rampBound n) t
  let t := (t.safeSwitch 0).safeSwitch 1
  let t := (t.shSnapshot b).pulseNet 1 1
  t.shNotify (changedArms s t) b

/-- Entering under way (R169). -/
def State.shEnter (s : State) : State :=
  let s := (List.range 8).foldl (fun s n =>
    let s := s.setReg (SH_ARM_OUT n) (resetWord (SH_ARM_OUT n))
    ((s.setFld (SH_ARM_STAT_SBOUND n) 0).setFld (SH_ARM_STAT_DCOUNT n) 0).setFld (SH_ARM_STAT_AGREECNT n) 0) s
  let s := (s.setFld (SH_SO_STAT_ON 0) 0).setFld (SH_SO_STAT_ON 1) 0
  { s with shroud := { s.shroud with started := false, cycAt := none, snap := none, sensors := [], prev1 := [], prev2 := [], poses := [] } }

/-- Leaving under way (R169). -/
def State.shLeave (s : State) : State :=
  let s := (List.range 8).foldl (fun s n =>
    ((s.setFld (SH_ARM_STAT_FORCED n) 0).setFld (SH_ARM_STAT_DCOUNT n) 0).setFld (SH_ARM_STAT_AGREECNT n) 0) s
  let s := ((s.setFld (SH_SO_STAT_ON 0) 0).setFld (SH_SO_STAT_ON 1) 0).setFld SH_STAT_FORCED 0
  { s with shroud := { s.shroud with
    started := false, snap := none, sensors := [], prev1 := [], prev2 := [] } }

/-! ### Accesses (R153, R164, R167) -/

/-- A write of SH_APPLY (R153). -/
def State.shApply (s : State) (t : Word) : State :=
  if reached t.toNat s.now then s.setFld SH_STAT_APPLY_LATE 1
  else { s with shroud := { s.shroud with applyAt := some t.toNat, sentApply := some t } }

/-- A write of SH_ARMn_CAPSEL: the shadow is pending (R153). -/
def State.capsel (s : State) (n : Nat) (v : Word) : State :=
  (s.setFld (SH_ARM_CAPSEL_SEL n) (bits v.toNat 1 7)).setFld (SH_ARM_STAT_PEND n) 1

/-- A RELEASE of FORCED: accepted, it ends FORCED at the write; the outputs follow at the next cycle start (R164). -/
def State.shRelease (s : State) (n : Nat) : State :=
  if !s.flag (SH_ARM_STAT_FORCED n) then s
  else if max 1 (s.fld SH_MISC_RECOV) ≤ s.fld (SH_ARM_STAT_AGREECNT n) then (s.setFld (SH_ARM_STAT_FORCED n) 0).showForced
  else s.setFld (SH_ARM_STAT_RELREF n) 1

/-- A CLEAR of FBFAULT with the wires' readback at the time (R167). -/
def State.soClear (s : State) (m : Nat) (a b : Bool) : State :=
  let s := (s.setFlag (SH_SO_STAT_RBA m) a).setFlag (SH_SO_STAT_RBB m) b
  if a || b then s else s.setFld (SH_SO_STAT_FBFAULT m) 0

/-- A presence segment of sensor `k` with its timestamp: judged while the module is under way (R150, R151). -/
def State.presenceIn (s : State) (k : Nat) (fragmented : Bool) (payload : List Byte) (ts : Stamp) : State :=
  if s.underWay then s.segment k (s.stampAt ts) fragmented payload else s

/-! ### The commands -/

/-- PRESENCE_SEGMENT (R150, R151). -/
def execPresenceSegment (k : Fin 8) (fragmented : Bool) (d : Datagram) (s : State) : Out :=
  .next (s.presenceIn k fragmented d.payload (s.stampOn (88 + s.fld (SH_SENS_CFG_PORT k)) d.sfd))
/-- CHANNEL1_RESULT (R154, R156, R157, R160, R161, R165). -/
def execChannel1Result (s : State) : Out := .next (if s.underWay then s.channel1 else s)
/-- CHANNEL2_RESULT (R155 to R157, R160, R161, R165). -/
def execChannel2Result (s : State) : Out := .next (if s.underWay then s.channel2 else s)
/-- SH_APPLY (R153). -/
def execShApply (i : Initiator) (t : Word) (s : State) : Out := .next (s.gated i SH_APPLY fun s => s.shApply t)
/-- FORCED_RELEASE (R164). -/
def execForcedRelease (i : Initiator) (n : Fin 8) (s : State) : Out := .next (s.gated i (SH_ARM_CMD n) fun s => s.shRelease n)
/-- SO_CLEAR (R167). -/
def execSoClear (i : Initiator) (m : Fin 2) (rbA rbB : Bool) (s : State) : Out :=
  .next (s.gated i (SH_SO_CMD m) fun s => s.soClear m rbA rbB)
/-- SAFE_OUTPUT_READBACK (R167). -/
def execSafeOutputReadback (m : Fin 2) (rbA rbB : Bool) (s : State) : Out :=
  .next (if s.underWay then s.soReadback m rbA rbB else s)
/-- TEST_PULSE (R167): a wire that is on is switched off; it must read back off. -/
def execTestPulse (m : Fin 2) (wireB rb : Bool) (s : State) : Out :=
  .next (if s.underWay && s.flag (SH_SO_STAT_ON m) && s.fld (SH_SO_TEST_TPW m) != 0 then
    let s := if wireB then s.setFlag (SH_SO_STAT_RBB m) rb else s.setFlag (SH_SO_STAT_RBA m) rb
    if rb then s.fbFault m (s.flag (SH_SO_STAT_RBA m)) (s.flag (SH_SO_STAT_RBB m)) else s
  else s)

end Sys2Proof.Machine
end

