-- ==== Sys2Proof/Machine/SparMath.lean ====
section
/-! DEFINITION. The arithmetic of a lane: value groups, factorisation and the constrained iteration (R101 to R103, R106, R115,
R116). -/

namespace Sys2Proof.Machine

/-- A value and whether something saturated on the way to it. -/
abbrev Sat (α : Type) := α × Bool

/-- An exact value `n · 2^e`. -/
structure Fx where
  n : Int
  e : Int
  deriving DecidableEq, Repr

/-- A stored mantissa of a group with exponent `g` as an exact value (R101). -/
def fxOf (m g : Int) : Fx := ⟨m, g - 31⟩

def fxAlign (x : Fx) (e : Int) : Int := x.n * ((2 ^ (x.e - e).toNat : Nat) : Int)
def fxAdd (x y : Fx) : Fx := let e := min x.e y.e; ⟨fxAlign x e + fxAlign y e, e⟩
def fxNeg (x : Fx) : Fx := ⟨-x.n, x.e⟩
def fxMul (x y : Fx) : Fx := ⟨x.n * y.n, x.e + y.e⟩

/-- Conversion into a group: truncated toward minus infinity, saturated (R102). -/
def fxConv (g : Int) (x : Fx) : Sat Int :=
  let sh := x.e - (g - 31)
  let m := if 0 ≤ sh then x.n * ((2 ^ sh.toNat : Nat) : Int) else asr x.n (-sh).toNat
  (satS 32 m, !fitsS 32 m)

/-- A sum of two mantissas of one group, saturated. -/
def sum32 (a b : Int) : Sat Int := (satS 32 (a + b), !fitsS 32 (a + b))

/-- A list of results and whether any saturated. -/
def satAll (l : List (Sat Int)) : Sat (List Int) := (l.map (fun x => x.1), l.any (fun x => x.2))

/-- The structure header of an image (its table). -/
structure SpHdr where
  qp : Bool
  n : Nat
  m : Nat
  nnzp : Nat
  nnza : Nat
  nnzl : Nat
  flops : Nat
  img : Nat
  ep : Int
  eq : Int
  ea : Int
  eb : Int
  ex : Int
  ez : Int
  ey : Int
  ek : Int
  el : Int
  ed : Int
  edi : Int
  er : Int
  erho : Int
  eps : Int
  delta : Int
  sigma : Int
  rhoinv : Int
  rho : Int
  omega : Nat
  itmax : Nat
  chk : Nat
  epsp : Int
  epsd : Int
  rhoinve : Int
  rhoe : Int
  deriving DecidableEq, Repr

/-- The header read from an image. -/
def spHdr (b : List Byte) : SpHdr :=
  let w := fun (o n : Nat) => leAt b o n
  let sb := fun (o : Nat) => toS 8 (leAt b o 1)
  let sw := fun (o : Nat) => toS 32 (leAt b o 4)
  { qp := w 2 1 == 1, n := w 4 1, m := w 6 2 % 512, nnzp := w 8 2 % 16384, nnza := w 10 2 % 16384, nnzl := w 12 2 % 32768,
    flops := w 16 4, img := w 20 2, ep := sb 24, eq := sb 25, ea := sb 26, eb := sb 27, ex := sb 28, ez := sb 29, ey := sb 30,
    ek := sb 31, el := sb 32, ed := sb 33, edi := sb 34, er := sb 35, erho := sb 36, eps := sw 0x28, delta := sw 0x2C,
    sigma := sw 0x30, rhoinv := sw 0x34, rho := sw 0x38, omega := w 0x3C 4, itmax := w 0x40 2, chk := w 0x42 1,
    epsp := sw 0x44, epsd := sw 0x48, rhoinve := sw 0x4C, rhoe := sw 0x50 }

/-- Whether a header passes the checks of R100, R101, R106 and its table. -/
def spHdrOk (b : List Byte) : Bool :=
  let h := spHdr b
  let z := fun (o n : Nat) => leAt b o n == 0
  let es := [h.eb, h.ex, h.ek, h.el, h.ed, h.edi, h.er] ++ (if h.qp then [h.ep, h.eq, h.ea, h.ez, h.ey, h.erho] else [])
  let vals := h.nnzp + h.nnza + h.n + (if h.qp then 2 * h.m else h.m)
  leAt b 0 2 == 1 && decide (leAt b 2 1 ≤ 1) && z 3 1 && decide (1 ≤ h.n ∧ h.n ≤ 128) && z 5 1 && decide (leAt b 6 2 ≤ 256) &&
  decide (leAt b 8 2 < 16384 ∧ leAt b 10 2 < 16384) && decide (leAt b 12 4 ≤ 16384) && decide (vals ≤ 8192) &&
  decide (h.img ≤ 49152) && z 0x16 2 && es.all (fun e => decide (-48 ≤ e ∧ e ≤ 47)) && z 0x25 3 && decide (0 < h.eps) &&
  decide (0 ≤ h.delta) && z 0x43 1 && (List.range 44).all (fun i => z (0x54 + i) 1) &&
  (if h.qp then
    decide (0 < h.sigma ∧ 0 < h.rhoinv ∧ 0 < h.rho ∧ 1 ≤ h.itmax ∧ 1 ≤ h.chk ∧ h.chk ≤ 64 ∧ 0 ≤ h.epsp ∧ 0 ≤ h.epsd ∧
      0 < h.rhoinve ∧ 0 < h.rhoe ∧ h.ep ≤ h.ek ∧ h.ea ≤ h.ek)
   else h.nnza == 0)

/-- A problem: its header, image, pattern, and its values by group and index. -/
structure SpProb where
  h : SpHdr
  image : List Byte
  perm : List Nat
  pP : List (Nat × Nat)
  pA : List (Nat × Nat)
  pK : List (Nat × Nat)
  lcols : List (List Nat)
  val : List (List Int)
  deriving DecidableEq, Repr

def SpProb.grp (p : SpProb) (g : Nat) : List Int := p.val.getD g []

/-- The counts of the value groups P, q, A, l, u, K, b (R100, R111); 0 for a group not of the class. -/
def grpCount (h : SpHdr) (g : Nat) : Nat :=
  if h.qp then (match g with | 0 => h.nnzp | 1 => h.n | 2 => h.nnza | 3 => h.m | 4 => h.m | _ => 0)
  else (match g with | 5 => h.nnzp | 6 => h.n + h.m | _ => 0)

/-- Whether row `i` is an equality (its l and u are equal). -/
def eqRow (p : SpProb) (i : Nat) : Bool := (p.grp 3).getD i 0 == (p.grp 4).getD i 0

/-- The entries of K in the original order: (row, column, mantissa in EK), each pair once (assembly). -/
def assemble (p : SpProb) : Sat (List (Nat × Nat × Int)) :=
  let h := p.h
  if h.qp then
    let pe := (p.pP.zip (p.grp 0)).map (fun x => (x.1, fxConv h.ek (fxOf x.2 h.ep)))
    let diag := (List.range h.n).map (fun i =>
      let v := match pe.find? (fun x => x.1 == (i, i)) with | some x => x.2 | none => (0, false)
      let t := sum32 v.1 h.sigma
      ((i, i), (t.1, v.2 || t.2)))
    let off := pe.filter (fun x => x.1.1 != x.1.2)
    let ae := (p.pA.zip (p.grp 2)).map (fun x => ((h.n + x.1.1, x.1.2), fxConv h.ek (fxOf x.2 h.ea)))
    let de := (List.range h.m).map (fun i => ((h.n + i, h.n + i), ((if eqRow p i then -h.rhoinve else -h.rhoinv), false)))
    let l := diag ++ off ++ ae ++ de
    (l.map (fun x => (x.1.1, x.1.2, x.2.1)), l.any (fun x => x.2.2))
  else ((p.pK.zip (p.grp 5)).map (fun x => (x.1.1, x.1.2, x.2)), false)

/-- The entry of K at two permuted indices. -/
def kAt (p : SpProb) (es : List (Nat × Nat × Int)) (r c : Nat) : Int :=
  let i := p.perm.getD r 0
  let j := p.perm.getD c 0
  match es.find? (fun x => (x.1 == i && x.2.1 == j) || (x.1 == j && x.2.1 == i)) with
  | some x => x.2.2
  | none => 0

/-- A column's entry at a row. -/
def colAt (c : List (Nat × Int)) (r : Nat) : Int := match c.find? (fun x => x.1 == r) with | some x => x.2 | none => 0

/-- `a / b` toward minus infinity. -/
def floorDiv (a b : Int) : Int := if b < 0 then (-a) / (-b) else a / b

/-- One column of the factorisation: `cols` and `ds` are the columns and pivots before it (R103, R115). -/
def facColumn (p : SpProb) (es : List (Nat × Nat × Int)) (j : Nat) (rows : List Nat) (f : SparFac) (ds : List Int) :
    SparFac × List Int :=
  let h := p.h
  let prev := (f.cols.zip ds).filter (fun x => colAt x.1 j != 0)
  let ts := prev.map (fun x => fxConv h.el (fxMul (fxOf x.2 h.ed) (fxOf (colAt x.1 j) h.el)))
  let w := fun (r : Nat) =>
    let k0 := fxConv h.el (fxOf (kAt p es r j) h.ek)
    let acc := (prev.zip ts).foldl (fun a x => fxAdd a (fxNeg (fxMul (fxOf (colAt x.1.1 r) h.el) (fxOf x.2.1 h.el)))) (fxOf k0.1 h.el)
    let y := fxConv h.el acc
    (y.1, k0.2 || y.2)
  let wj := w j
  let d0 := fxConv h.ed (fxOf wj.1 h.el)
  let ex : Int := if j < h.n then 1 else -1
  let bad := decide ((d0.1.natAbs : Int) < h.eps) || decide (0 ≥ d0.1 * ex)
  let rep := sum32 h.eps h.delta
  let d := if bad then ex * rep.1 else d0.1
  let di0 := floorDiv (2 ^ (62 + 80)) d
  let di := fxConv h.edi ⟨di0, -h.ed - 31 - 80⟩
  let ls := rows.map (fun r =>
    let wr := w r
    let y := fxConv h.el (fxMul (fxOf wr.1 h.el) (fxOf di.1 h.edi))
    (r, y.1, wr.2 || y.2))
  let sat := f.fsat || ts.any (fun x => x.2) || wj.2 || d0.2 || (bad && rep.2) || di.2 || ls.any (fun x => x.2.2)
  ({ cols := f.cols ++ [ls.map (fun x => (x.1, x.2.1))], dinv := f.dinv ++ [di.1], fsat := sat,
     pividx := if bad && f.pivcnt == 0 then j else f.pividx, pivcnt := if bad then min 511 (f.pivcnt + 1) else f.pivcnt }, ds ++ [d])

/-- The factorisation over the fixed pattern. -/
def facCols (p : SpProb) (es : List (Nat × Nat × Int)) : Nat → List (List Nat) → SparFac → List Int → SparFac
  | _, [], f, _ => f
  | j, rows :: rest, f, ds => let r := facColumn p es j rows f ds; facCols p es (j + 1) rest r.1 r.2

/-- Assembly and factorisation. -/
def factor (p : SpProb) : SparFac :=
  let k := assemble p
  facCols p k.1 0 p.lcols ⟨[], [], k.2, 0, 0⟩ []

/-! ### Solves -/

/-- A difference of two operands that may be of other groups: each converted into group `g` first (R102). -/
def convSub (g : Int) (a b : Fx) : Sat Int :=
  let x := fxConv g a
  let y := fxConv g b
  let d := sum32 x.1 (-y.1)
  (d.1, x.2 || y.2 || d.2)

/-- One entry of a substitution: `v` less a sum of products of entries of L with solved entries, all in work group `g`; the sum is
accumulated exactly and converted, then subtracted (R102). -/
def substEntry (p : SpProb) (g : Int) (v : Int) (terms : List (Int × Int)) : Sat Int :=
  convSub g (fxOf v g) (terms.foldl (fun a t => fxAdd a (fxMul (fxOf t.1 p.h.el) (fxOf t.2 g))) ⟨0, p.h.el + g - 62⟩)

/-- Forward substitution in work group `g`, row by row: `done` holds the columns before the row with their solved entries. -/
def forward (p : SpProb) (g : Int) : Nat → List (List (Nat × Int)) → List (List (Nat × Int) × Int) → List Int → Sat (List Int)
  | _, _, _, [] => ([], false)
  | j, cs, done, v :: vs =>
    let y := substEntry p g v ((done.filter (fun c => colAt c.1 j != 0)).map (fun c => (colAt c.1 j, c.2)))
    let r := forward p g (j + 1) (cs.drop 1) (done ++ [(cs.headD [], y.1)]) vs
    (y.1 :: r.1, y.2 || r.2)

/-- Backward substitution in work group `g`: the last column first. -/
def backward (p : SpProb) (g : Int) : Nat → List (List (Nat × Int)) → Sat (List Int) → Sat (List Int)
  | _, [], v => v
  | j, c :: cs, v =>
    let v := backward p g (j + 1) cs v
    let y := substEntry p g (v.1.getD j 0) (c.map (fun x => (x.2, v.1.getD x.1 0)))
    (v.1.set j y.1, v.2 || y.2)

/-- The solution of L·D·Lᵀ·s = rhs in the original order, each entry in its target group `g i`. An entry of rhs is a difference of two
operands, each converted into the work group. -/
def ldlSolve (p : SpProb) (f : SparFac) (rhs : List (Fx × Fx)) (g : Nat → Int) : Sat (List Int) :=
  let kk := p.h.n + p.h.m
  let e0 := Config.sparWorkExp p.image 0
  let e1 := Config.sparWorkExp p.image 1
  let r0 := satAll ((List.range kk).map (fun q => let t := rhs.getD (p.perm.getD q 0) (⟨0, 0⟩, ⟨0, 0⟩); convSub e0 t.1 t.2))
  let a := forward p e0 0 f.cols [] r0.1
  let d := satAll ((List.range kk).map (fun q => fxConv e1 (fxMul (fxOf (a.1.getD q 0) e0) (fxOf (f.dinv.getD q 0) p.h.edi))))
  let b := backward p e1 0 f.cols (d.1, false)
  let out := satAll ((List.range kk).map (fun i => fxConv (g i) (fxOf (b.1.getD (p.perm.idxOf i) 0) e1)))
  (out.1, r0.2 || a.2 || d.2 || b.2 || out.2)

/-- A symmetric matrix given by its upper triangle, times a vector: row `i`. -/
def symRow (pat : List (Nat × Nat)) (vs : List Int) (gv : Int) (x : List Int) (gx : Int) (i : Nat) : Fx :=
  (pat.zip vs).foldl (fun a e =>
    let t := fun (c : Nat) => fxMul (fxOf e.2 gv) (fxOf (x.getD c 0) gx)
    if e.1.1 = i ∧ e.1.2 = i then fxAdd a (t i)
    else if e.1.1 = i then fxAdd a (t e.1.2)
    else if e.1.2 = i then fxAdd a (t e.1.1) else a) ⟨0, gv + gx - 62⟩

/-- Row `i` of A·x, and column `j` of Aᵀ·y. -/
def aRow (p : SpProb) (x : List Int) (i : Nat) : Fx :=
  (p.pA.zip (p.grp 2)).foldl (fun a e => if e.1.1 = i then fxAdd a (fxMul (fxOf e.2 p.h.ea) (fxOf (x.getD e.1.2 0) p.h.ex)) else a)
    ⟨0, p.h.ea + p.h.ex - 62⟩
def aCol (p : SpProb) (y : List Int) (j : Nat) : Fx :=
  (p.pA.zip (p.grp 2)).foldl (fun a e => if e.1.2 = j then fxAdd a (fxMul (fxOf e.2 p.h.ea) (fxOf (y.getD e.1.1 0) p.h.ey)) else a)
    ⟨0, p.h.ea + p.h.ey - 62⟩

/-- The largest magnitude of a list. -/
def maxAbs (l : List Int) : Int := (l.foldl (fun a x => max a x.natAbs) 0 : Nat)

/-! ### The constrained iteration (R116) -/

/-- The iterate and the duals: x, z, y and the previous y. -/
structure SpIter where
  x : List Int
  z : List Int
  y : List Int
  yp : List Int
  deriving DecidableEq, Repr

/-- One iteration; whether anything saturated in it. -/
def iterate (p : SpProb) (f : SparFac) (s : SpIter) : SpIter × Bool :=
  let h := p.h
  let ri := fun (i : Nat) => fxOf (if eqRow p i then h.rhoinve else h.rhoinv) h.ek
  let rr := fun (i : Nat) => fxOf (if eqRow p i then h.rhoe else h.rho) h.erho
  let rows := List.range h.m
  let yh := satAll (rows.map (fun i =>
    let dy := fxAdd (fxOf (s.y.getD i 0) h.ey) (fxNeg (fxOf (s.yp.getD i 0) h.ey))
    let t := fxConv h.ey (fxMul ⟨(h.omega : Int), -32⟩ dy)
    let u := sum32 (s.y.getD i 0) t.1
    (u.1, t.2 || u.2)))
  let yhi := fun (i : Nat) => fxOf (yh.1.getD i 0) h.ey
  let rhs := (List.range h.n).map (fun j => (fxMul (fxOf h.sigma h.ek) (fxOf (s.x.getD j 0) h.ex), fxOf ((p.grp 1).getD j 0) h.eq)) ++
    rows.map (fun i => (fxOf (s.z.getD i 0) h.ez, fxMul (ri i) (yhi i)))
  let sol := ldlSolve p f rhs (fun i => if i < h.n then h.ex else h.ey)
  let x := sol.1.take h.n
  let lam := sol.1.drop h.n
  let w := satAll (rows.map (fun i =>
    let dl := sum32 (lam.getD i 0) (-(yh.1.getD i 0))
    let t := fxConv h.ez (fxMul (ri i) (fxOf dl.1 h.ey))
    let u := sum32 (s.z.getD i 0) t.1
    (u.1, dl.2 || t.2 || u.2)))
  let zn := satAll (rows.map (fun i =>
    let t := fxConv h.ez (fxMul (ri i) (yhi i))
    let v := sum32 (w.1.getD i 0) t.1
    let lo := fxConv h.ez (fxOf ((p.grp 3).getD i 0) h.eb)
    let hi := fxConv h.ez (fxOf ((p.grp 4).getD i 0) h.eb)
    (clampI lo.1 hi.1 v.1, t.2 || v.2 || lo.2 || hi.2)))
  let y := satAll (rows.map (fun i =>
    let dz := sum32 (w.1.getD i 0) (-(zn.1.getD i 0))
    let t := fxConv h.ey (fxMul (rr i) (fxOf dz.1 h.ez))
    let u := sum32 (yh.1.getD i 0) t.1
    (u.1, dz.2 || t.2 || u.2)))
  (⟨x, zn.1, y.1, s.y⟩, yh.2 || sol.2 || w.2 || zn.2 || y.2)

/-- The residuals rp and rd in ER, and whether they saturated. -/
def residuals (p : SpProb) (s : SpIter) : Int × Int × Bool :=
  let h := p.h
  let rp := satAll ((List.range h.m).map (fun i =>
    let a := fxConv h.er (aRow p s.x i)
    let z := fxConv h.er (fxOf (s.z.getD i 0) h.ez)
    let d := sum32 a.1 (-z.1)
    (d.1, a.2 || z.2 || d.2)))
  let rd := satAll ((List.range h.n).map (fun j =>
    let a := fxConv h.er (symRow p.pP (p.grp 0) h.ep s.x h.ex j)
    let q := fxConv h.er (fxOf ((p.grp 1).getD j 0) h.eq)
    let t := fxConv h.er (aCol p s.y j)
    let u := sum32 a.1 q.1
    let v := sum32 u.1 t.1
    (v.1, a.2 || q.2 || t.2 || u.2 || v.2)))
  (maxAbs rp.1, maxAbs rd.1, rp.2 || rd.2)

/-- The best iterate: its number, itself, its residuals. -/
structure SpBest where
  k : Nat
  it : SpIter
  rp : Int
  rd : Int
  deriving DecidableEq, Repr

/-- The progress of a solve: iterations done, iterate, taint since the last check, best, counts, converged. -/
structure SpProg where
  k : Nat
  it : SpIter
  taint : Bool
  best : Option SpBest
  isat : Nat
  rsat : Nat
  conv : Bool
  deriving DecidableEq, Repr

/-- A residual check after iteration `q.k` (R116). -/
def checkIter (p : SpProb) (q : SpProg) : SpProg :=
  let r := residuals p q.it
  let q := if r.2.2 then { q with rsat := min 65535 (q.rsat + 1), taint := true } else q
  let q := if q.taint then q else
    let better := match q.best with | none => true | some b => decide (max r.1 r.2.1 < max b.rp b.rd)
    let q := if better then { q with best := some ⟨q.k, q.it, r.1, r.2.1⟩ } else q
    if r.1 ≤ p.h.epsp ∧ r.2.1 ≤ p.h.epsd then { q with conv := true, best := some ⟨q.k, q.it, r.1, r.2.1⟩ } else q
  { q with taint := false }

/-- Up to `fuel` iterations; a check every CHK; `lastCheck` bounds the checks that still take place. -/
def runIters (p : SpProb) (f : SparFac) (lastCheck : Nat) : Nat → SpProg → SpProg
  | 0, q => q
  | fuel + 1, q =>
    if q.conv then q else
    let r := iterate p f q.it
    let q := { q with k := q.k + 1, it := r.1, taint := q.taint || r.2, isat := if r.2 then min 65535 (q.isat + 1) else q.isat }
    let q := if q.k % max 1 p.h.chk = 0 ∧ q.k ≤ lastCheck then checkIter p q else q
    runIters p f lastCheck fuel q

/-- The progress before the first iteration. -/
def spStart (x z y : List Int) : SpProg := ⟨0, ⟨x, z, y, y⟩, false, none, 0, 0, false⟩

/-- A LINSYS: the solution, its residual in ER, and whether the solve and the residual saturated. -/
def linSolve (p : SpProb) (f : SparFac) : List Int × Int × Bool × Bool :=
  let h := p.h
  let kk := h.n + h.m
  let rhs := (List.range kk).map (fun i => (fxOf ((p.grp 6).getD i 0) h.eb, (⟨0, 0⟩ : Fx)))
  let s := ldlSolve p f rhs (fun _ => h.ex)
  let r := satAll ((List.range kk).map (fun i =>
    let a := fxConv h.er (symRow p.pK (p.grp 5) h.ek s.1 h.ex i)
    let b := fxConv h.er (fxOf ((p.grp 6).getD i 0) h.eb)
    let d := sum32 a.1 (-b.1)
    (d.1, a.2 || b.2 || d.2)))
  (s.1, maxAbs r.1, s.2, r.2)

/-! ### Lane work in lane clocks (R122) -/

/-- The bytes of a load of values and warm vectors. -/
def loadBytes (h : SpHdr) (warmed : Bool) : Nat :=
  4 * (h.nnzp + h.nnza + h.n + (if h.qp then 2 * h.m else h.m)) + (if warmed then 4 * (h.n + 2 * h.m) else 0)

/-- Clocks of a page-in, and from the dispatch to the end of the intake. -/
def pageClocks (h : SpHdr) (paged : Bool) : Nat := if paged then 200 + ceilDiv h.img 8 else 0
def intakeClocks (h : SpHdr) (nent : Nat) (paged : Bool) : Nat := pageClocks h paged + (200 + nent)

/-- Clocks from the dispatch to the first iteration or the LINSYS solve. -/
def startClocks (h : SpHdr) (nent : Nat) (paged warmed : Bool) : Nat :=
  intakeClocks h nent paged + ceilDiv (loadBytes h warmed) 8 + ceilDiv h.flops 8 + 12 * (h.n + h.m)

def iterClocks (h : SpHdr) : Nat := 2 * ceilDiv h.nnzl 8 + (h.n + h.m) + 4 * ceilDiv (h.n + h.m) 8 + 40
def checkClocks (h : SpHdr) : Nat := 2 * ceilDiv (h.nnzp + h.nnza) 8 + 60
def linClocks (h : SpHdr) : Nat := 2 * ceilDiv h.nnzl 8 + (h.n + h.m) + 2 * ceilDiv h.nnzp 8 + 100

/-- The iterations complete, and the last iteration whose check is complete, within `c` clocks of iterating (R122). -/
def itersIn (h : SpHdr) (c : Nat) : Nat × Nat :=
  let g := max 1 h.chk
  let grp := g * iterClocks h + checkClocks h
  let full := c / grp
  (full * g + min g ((c % grp) / iterClocks h), full * g)

end Sys2Proof.Machine
end

