-- ==== Sys2Proof/Machine/Spar.lean ====
section
/-! DEFINITION. The spar array's submission queue, dispatch, deadlines, result records and lanes (R104, R105, R107 to R114, R117
to R121). -/

namespace Sys2Proof.Machine

/-! ### Structures and instances -/

/-- The address of a structure slot (R104). -/
def State.spSlotAt (s : State) (slot : Nat) : Nat := s.fld SP_STRBASE_STRBASE + 0x10000 * slot

/-- The header of a slot's structure. -/
def State.spHdrAt (s : State) (slot : Nat) : SpHdr := spHdr (s.rdBytes (s.spSlotAt slot) 128)

/-- The cache pages that a structure occupies (R107). -/
def State.spPages (s : State) (slot : Nat) : Nat := ceilDiv (s.spHdrAt slot).img 4096

/-- The key of value `idx` of group `g`. -/
def spKey (g idx : Nat) : Nat := g * 16384 + idx

/-- A stored value of an instance; one that no entry gave since the rebind is undefined (R111). -/
def SparInst.value (x : SparInst) (key : Nat) : Int :=
  tabGet (fun k => (Config.sparUndef x.undef k).toInt) x.vals key

/-- The problem of an instance bound to a slot. -/
def State.spProb (s : State) (inst slot : Nat) : SpProb :=
  let h := s.spHdrAt slot
  let img := s.rdBytes (s.spSlotAt slot) h.img
  let pat := Config.sparPattern img
  let x := s.spInst inst
  { h := h, image := img, perm := pat.1, pP := pat.2.1, pA := pat.2.2.1, pK := pat.2.2.2.1, lcols := pat.2.2.2.2,
    val := (List.range 7).map (fun g => (List.range (grpCount h g)).map (fun i => x.value (spKey g i))) }

/-! ### Submission (R109) -/

/-- The submission that a descriptor's eight words give. -/
def spDesc (w : List Nat) (acc : Nat) : SparJob :=
  let a := w.getD 0 0
  let c := w.getD 2 0
  { inst := a % 128, slot := bits a 8 8, warm := a.testBit 16, nosolve := a.testBit 17, wsrc := bits a 24 7,
    deadline := w.getD 1 0, nent := c % 4096, flow := bits c 16 8, prio := bits c 24 3, ent := w.getD 3 0,
    seq := w.getD 4 0 % 65536, acc := acc }

/-- Whether a descriptor is malformed: alignment, NENT, reserved bits, a slot that is not VALID (R109). -/
def State.spBad (s : State) (addr : Nat) (w : List Nat) : Bool :=
  let a := w.getD 0 0
  let c := w.getD 2 0
  addr % 32 != 0 || decide (2048 < c % 4096) || a.testBit 7 || bits a 18 6 != 0 || a.testBit 31 || bits c 12 4 != 0 || bits c 27 5 != 0 ||
  bits (w.getD 4 0) 16 16 != 0 || w.getD 5 0 != 0 || w.getD 6 0 != 0 || w.getD 7 0 != 0 || !s.flag (SP_SLOT_STAT_VALID (bits a 8 8))

/-- Whether an instance is queued or running. -/
def State.spBusy (s : State) (inst : Nat) : Bool :=
  s.spar.queue.any (fun j => j.inst == inst) ||
  s.spar.lanes.any (fun l => match l.2.run with | some r => r.job.inst == inst | none => false)

/-- A record that the ACTIVE module sends to its partner (R230). -/
def State.noteRec (s : State) (r : SparRec) : State :=
  if s.role = 1 then { s with pair := { s.pair with recsSent := s.pair.recsSent + 1, spSent := some r } } else s

/-- The descriptor words of a submission (the descriptor's table). -/
def SparJob.words (j : SparJob) : List Word :=
  [j.inst + 256 * j.slot + 2 ^ 16 * b2n j.warm + 2 ^ 17 * b2n j.nosolve + 2 ^ 24 * j.wsrc, j.deadline,
   j.nent + 2 ^ 16 * j.flow + 2 ^ 24 * j.prio, j.ent, j.seq, 0, 0, 0].map (BitVec.ofNat 32)

/-- The outcome of a submission, in the order of R109. -/
def State.spOutcome (s : State) (addr : Nat) (w : List Nat) : Nat :=
  if !s.flag SP_CTL_RUN || !s.underWay then 6
  else if s.refuses then 5
  else if s.spBad addr w then 4
  else if s.spBusy (w.getD 0 0 % 128) then 3
  else if 64 ≤ s.spar.queue.length then 2
  else 1

/-- A write to SP_SUBMIT (R109). -/
def State.submit (s : State) (i : Initiator) (addr : Nat) : State :=
  let w := (List.range 8).map (fun k => s.rd32 (addr + 4 * k))
  let o := s.spOutcome addr w
  let inst := w.getD 0 0 % 128
  let s := s.setIni i { s.inis i with spOut := o + 256 * inst }
  if o = 2 then s.incFld SP_CNT_FULL
  else if o = 1 then
    let s := { s with spar := { s.spar with queue := s.spar.queue ++ [spDesc w s.spar.acc], acc := s.spar.acc + 1 } }
    s.setFld (SP_INST_STAT_STATE inst) 1
  else s

/-! ### Result records (R117 to R119) -/

/-- What a record says beside the job's own fields. -/
structure SpResult where
  status : Nat
  reliable : Bool
  fsat : Bool
  pivcnt : Nat
  pividx : Nat
  mismatch : Bool
  noWarm : Bool
  paged : Bool
  lane : Nat
  iter : Nat
  best : Nat
  rp : Int
  rd : Int
  isat : Nat
  rsat : Nat
  tstart : Nat
  tend : Nat
  vecs : List Int × List Int × List Int
  deriving DecidableEq, Repr

/-- A record's word 0x00. -/
def SpResult.word0 (r : SpResult) (slot : Nat) : Nat :=
  r.status + 16 * b2n r.reliable + 32 * b2n r.fsat + 64 * b2n (r.pivcnt != 0) + 128 * b2n r.mismatch + 256 * b2n r.noWarm +
  512 * b2n r.paged + 1024 * r.lane + 65536 * slot

/-- A record's words 0x04 to 0x3C. -/
def SpResult.words (r : SpResult) (j : SparJob) : List Nat :=
  [j.seq + 65536 * j.inst, r.iter + 65536 * r.best, r.pividx + 65536 * r.pivcnt, ofS 32 r.rp, ofS 32 r.rd, r.isat + 65536 * r.rsat,
   r.tstart % 2 ^ 32, r.tend % 2 ^ 32, 0, 0, 0, 0, 0, 0, 0]

/-- The address of an instance's record (R117). -/
def State.spRecAt (s : State) (inst : Nat) : Nat := s.fld SP_RESBASE_RESBASE + 0x1000 * inst

/-- A record written, word 0x00 last (R117). -/
def State.putRecord (s : State) (j : SparJob) (r : SpResult) : State :=
  let a := s.spRecAt j.inst
  let vs := r.vecs.1 ++ r.vecs.2.1 ++ r.vecs.2.2
  let s := s.wrBytes (a + 4) ((r.words j).flatMap (leBytes 4) ++ vs.flatMap (fun v => leBytes 4 (ofS 32 v)))
  s.wr32 a (r.word0 j.slot)

/-- Whether a status stores the returned vectors as the last solve (R119). -/
def spStores (status : Nat) : Bool := !(status == 5 || status == 7 || status == 8 || status == 9)

/-- A problem's end: record, last solve, notification (R117, R119). -/
def State.spEnd (s : State) (j : SparJob) (r : SpResult) : State :=
  let s := s.putRecord j r
  let x := s.spInst j.inst
  let sol := if spStores r.status then some (r.vecs.1, r.vecs.2.1, r.vecs.2.2, r.reliable) else x.sol
  let s := s.setSpInst j.inst { x with sol := sol }
  let has := match sol with | some v => v.2.2.2 | none => false
  let s := (s.setFld (SP_INST_STAT_STATE j.inst) 0).setFld (SP_INST_STAT_SEQ j.inst) j.seq
  let s := s.setFlag (SP_INST_STAT_HASSOLVE j.inst) has
  let s := s.hwPost (.spar j.inst) j.flow j.prio 4 j.inst j.seq
  let n := 16 + r.vecs.1.length + r.vecs.2.1.length + r.vecs.2.2.length
  (if s.flag SP_CTL_IRQ then s.cause 1 else s).noteRec
    (.result (Fin.ofNat 128 j.inst) ((List.range n).map (fun k => BitVec.ofNat 32 (s.rd32 (s.spRecAt j.inst + 4 * k)))))

/-- The ns, rounded up, of the write-back of a record (R122). -/
def wbNs (h : SpHdr) : Nat := ceilDiv (5 * (100 + ceilDiv (64 + 4 * (h.n + 2 * h.m)) 8)) 4

/-- Residual words for which the spec states no value, drawn. -/
def State.drawRes (s : State) : (Int × Int) × State :=
  let a := s.draw 32
  let b := a.2.draw 32
  ((a.1.toInt, b.1.toInt), b.2)

/-! ### Dispatch and intake (R107, R111 to R113) -/

/-- A job's stop instant, short time (R114). -/
def SparJob.stop (j : SparJob) : Nat := ofS 32 ((j.deadline : Int) - 2000)

/-- Whether lane `k` is in service and free. -/
def State.spFree (s : State) (k : Nat) : Bool := s.laneOn k && !(s.spLane k).out && (s.spLane k).run.isNone

/-- The lane a job goes to: the lowest free one that caches its slot, else the lowest free one (R113). -/
def State.spPick (s : State) (slot : Nat) : Option Nat :=
  match (List.range 32).find? (fun k => s.spFree k && (s.spLane k).cache.any (fun e => e.1 == slot)) with
  | some k => some k
  | none => (List.range 32).find? (fun k => s.spFree k)

/-- Whether job `a` goes before job `b`: deadline reached first, then order of acceptance (R113). -/
def jobBefore (now : Nat) (a b : SparJob) : Bool :=
  decide (diff32 a.deadline now < diff32 b.deadline now) || (diff32 a.deadline now == diff32 b.deadline now && decide (a.acc < b.acc))

/-- The job that goes first among those whose stop instant is not reached (R113, R114). -/
def State.spFirst (s : State) : Option SparJob :=
  (s.spar.queue.filter (fun j => !reached j.stop s.now)).foldl
    (fun b j => match b with | none => some j | some x => if jobBefore s.now j x then some j else some x) none

/-- A cache without its least recently used structure. -/
def evictOne (c : List (Nat × Nat)) : List (Nat × Nat) :=
  match c.foldl (fun (b : Option (Nat × Nat)) e => match b with | none => some e | some x => if e.2 < x.2 then some e else some x) none with
  | some v => c.filter (fun e => e != v)
  | none => c

/-- Evictions until `need` of the 32 pages are free (R107). -/
def evictFor (pages : Nat → Nat) (need : Nat) : Nat → List (Nat × Nat) → List (Nat × Nat)
  | 0, c => c
  | fuel + 1, c =>
    if need + (c.map (fun e => pages e.1)).sum ≤ 32 then c else evictFor pages need fuel (evictOne c)

/-- The cache after a dispatch of `slot` at `t`, and whether it was paged in (R107). -/
def State.spCache (s : State) (k slot t : Nat) : List (Nat × Nat) × Bool :=
  let c := (s.spLane k).cache
  if c.any (fun e => e.1 == slot) then (c.map (fun e => if e.1 = slot then (slot, t) else e), false)
  else (evictFor s.spPages (s.spPages slot) 32 c ++ [(slot, t)], true)

/-- The delta entries of a job: value, index, group. -/
def State.spEntries (s : State) (j : SparJob) : List (Nat × Nat × Nat) :=
  (List.range j.nent).map (fun k =>
    let w := s.rd32 (j.ent + 8 * k + 4)
    (s.rd32 (j.ent + 8 * k), w % 16384, bits w 16 3))

/-- Whether every entry is valid (R111). -/
def entriesOk (h : SpHdr) (es : List (Nat × Nat × Nat)) : Bool :=
  es.all (fun e => decide (e.2.1 < grpCount h e.2.2))

/-- The instance rebound to a slot: its values undefined, its solve discarded (R111). -/
def State.spRebind (s : State) (inst slot : Nat) : State :=
  let x := s.spInst inst
  let s := s.setFld (SP_INST_STAT_SLOT inst) slot
  if x.bound = some slot then s
  else
    let s := { s with freeCtr := s.freeCtr + 1 }
    (s.setSpInst inst { x with bound := some slot, vals := [], undef := s.freeCtr - 1, sol := none }).setFld (SP_INST_STAT_HASSOLVE inst) 0

/-- Entries applied in descriptor order (R111). -/
def State.spApply (s : State) (inst : Nat) (es : List (Nat × Nat × Nat)) : State :=
  let x := s.spInst inst
  s.setSpInst inst { x with vals := es.foldl (fun v e =>
    let k := spKey e.2.2 e.2.1
    tabIns k (toS 32 e.1) (tabDel v k)) x.vals }

/-- The start of a solve (R112): WARM_MISMATCH, WARM_NONE, warm, x, z, y. -/
structure SpWarm where
  mismatch : Bool
  none : Bool
  warmed : Bool
  x : List Int
  z : List Int
  y : List Int
  deriving DecidableEq, Repr

/-- The warm start judged, before the submission's own rebind (R112). -/
def State.spWarm (s : State) (j : SparJob) : SpWarm :=
  let h := s.spHdrAt j.slot
  let cold : SpWarm := ⟨false, false, false, List.replicate h.n 0, List.replicate h.m 0, List.replicate h.m 0⟩
  if !j.warm then cold else
  let w := s.spInst j.wsrc
  let mism := match w.bound with | some b => b != j.slot | none => false
  let nosol := match w.sol with | some v => !v.2.2.2 | none => true
  match mism, nosol, w.sol with
  | false, false, some v => ⟨false, false, true, v.1, v.2.1, v.2.2.1⟩
  | _, _, _ => { cold with mismatch := mism, none := nosol }

/-- A job dispatched to lane `k`: record word 0x00, the structure cache (R107, R117). Its work begins with the page-in or the intake. -/
def State.spStart (s : State) (j : SparJob) (k : Nat) : State :=
  let s := { s with spar := { s.spar with queue := s.spar.queue.filter (fun x => x.acc != j.acc) } }
  let s := (s.wr32 (s.spRecAt j.inst) 0).setFld (SP_INST_STAT_STATE j.inst) 2
  let s := s.setFld (SP_LANE_STAT_INST k) j.inst
  let c := s.spCache k j.slot s.nowNs
  let s := if c.2 then s.incFld SP_CNT_PAGEIN else s
  s.setSpLane k { s.spLane k with cache := c.1, run := some ⟨j, s.nowNs, 0, false, c.2, false, false, false, [], [], [], ⟨[], [], false, 0, 0⟩⟩ }

/-- The record's fields that the run itself fixes. -/
def SparRun.result (r : SparRun) (k status : Nat) (fac : Bool) (tend : Nat) : SpResult :=
  { status := status, reliable := false, fsat := fac && r.fac.fsat, pivcnt := if fac then r.fac.pivcnt else 0,
    pividx := if fac then r.fac.pividx else 0, mismatch := r.mismatch, noWarm := r.noWarm, paged := r.paged, lane := k,
    iter := 0, best := 0, rp := 0, rd := 0, isat := 0, rsat := 0, tstart := r.since, tend := tend, vecs := ([], [], []) }

/-- Lane `k` freed. -/
def State.spFreeLane (s : State) (k : Nat) : State := s.setSpLane k { s.spLane k with run := none }

/-- A run ended with BAD_ENTRY by its intake (R111). -/
def State.spBadEntry (s : State) (k : Nat) (r : SparRun) : State :=
  let d := s.drawRes
  (d.2.spEnd r.job { r.result k 7 false (s.now + wbNs (s.spHdrAt r.job.slot)) with rp := d.1.1, rd := d.1.2 }).spFreeLane k

/-- The intake of lane `k`'s job: entries checked and applied, the warm start judged, the factors (R111, R112); the submission record for
the partner (R230). -/
def State.spIntake (s : State) (k : Nat) (r : SparRun) : State :=
  let j := r.job
  let h := s.spHdrAt j.slot
  let es := s.spEntries j
  let s := s.noteRec (.submission j.words ((List.range (2 * j.nent)).map (fun i => BitVec.ofNat 32 (s.rd32 (j.ent + 4 * i)))))
  let ecc := s.eccHit j.ent (8 * j.nent)
  if ecc.isSome || !entriesOk h es then (match ecc with | some a => s.eccNote a | none => s).spBadEntry k r
  else
    let w := s.spWarm j
    let s := (s.spRebind j.inst j.slot).spApply j.inst es
    let fac : SparFac := if j.nosolve then ⟨[], [], false, 0, 0⟩ else factor (s.spProb j.inst j.slot)
    s.setSpLane k { s.spLane k with run := some { r with
      taken := true, mismatch := w.mismatch, noWarm := w.none, warmed := w.warmed, x := w.x, z := w.z, y := w.y, fac := fac } }

/-- DISPATCH's effect: the first job, if a lane is free for it (R113). -/
def State.spDispatch (s : State) : State :=
  match s.spFirst with
  | none => s
  | some j => match s.spPick j.slot with
    | none => s
    | some k => s.spStart j k

/-! ### The end of a problem (R114, R116, R118) -/

/-- The unit of a lane's position: a lane clock in parts that 64/k bytes per clock divide for every k up to 32 (R122). -/
def laneUnit : Nat := 144403552893600

/-- The whole lane clocks that a run's work has taken (R122). -/
def SparRun.clocks (r : SparRun) : Nat := r.pos / laneUnit

/-- The clocks before the first iteration or the solve; of a NOSOLVE job all its work. -/
def SparRun.preClocks (r : SparRun) (h : SpHdr) : Nat :=
  if r.job.nosolve then intakeClocks h r.job.nent r.paged
  else startClocks h r.job.nent r.paged r.warmed

/-- A QP run to its end or ITMAX. -/
def SparRun.full (r : SparRun) (p : SpProb) : SpProg :=
  runIters p r.fac p.h.itmax p.h.itmax (Sys2Proof.Machine.spStart r.x r.z r.y)

/-- The clocks of the whole work before the write-back. -/
def SparRun.workClocks (r : SparRun) (p : SpProb) : Nat :=
  if r.job.nosolve then r.preClocks p.h
  else if p.h.qp then
    let q := r.full p
    r.preClocks p.h + q.k * iterClocks p.h + q.k / max 1 p.h.chk * checkClocks p.h
  else r.preClocks p.h + linClocks p.h

/-- Whether the work is at its end, so that the write-back has begun. -/
def SparRun.done (r : SparRun) (p : SpProb) : Bool := r.taken && decide (r.workClocks p ≤ r.clocks)

/-- The ns, rounded up, that the write-back still takes. -/
def SparRun.wbLeft (r : SparRun) (p : SpProb) : Nat := wbNs p.h - 5 * (r.clocks - r.workClocks p) / 4

/-- A QP's record from its progress (R116, R118). -/
def State.qpResult (s : State) (r0 : SpResult) (p : SpProb) (q : SpProg) : SpResult × State :=
  let r0 := { r0 with iter := q.k, isat := q.isat, rsat := q.rsat }
  match q.best with
  | some b =>
    ({ r0 with best := b.k, reliable := !r0.fsat, rp := b.rp, rd := b.rd, vecs := (b.it.x, b.it.z, b.it.y) }, s)
  | none =>
    let d := s.drawRes
    let known := q.k != 0 && q.k % max 1 p.h.chk == 0
    let res := residuals p q.it
    ({ r0 with rp := if known then res.1 else d.1.1, rd := if known then res.2.1 else d.1.2, vecs := (q.it.x, q.it.z, q.it.y) },
     if known then s else d.2)

/-- The record of a run whose work came to its end (R116, R118). -/
def State.spFinished (s : State) (k : Nat) (r : SparRun) (p : SpProb) : SpResult × State :=
  let tend := s.now + r.wbLeft p
  if r.job.nosolve then
    let d := s.drawRes
    ({ r.result k 5 false tend with rp := d.1.1, rd := d.1.2 }, d.2)
  else if p.h.qp then
    let q := r.full p
    s.qpResult (r.result k (if q.conv then 1 else 3) true tend) p q
  else
    let l := linSolve p r.fac
    ({ r.result k 4 true tend with rp := l.2.1, reliable := !r.fac.fsat && !l.2.2.2, vecs := (l.1.take p.h.n, [], []) }, s)

/-- The record of a run whose stop instant cuts it (R114, R116, the LINSYS rule). A page-in or intake that is cut leaves the instance
as it was, and the record the initial values. -/
def State.spStopped (s : State) (k : Nat) (r : SparRun) (p : SpProb) : SpResult × State :=
  let c := r.clocks
  let pre := r.preClocks p.h
  let fac := r.taken && decide (pre ≤ c)
  let r0 := r.result k 2 fac (s.now + wbNs p.h)
  if !p.h.qp then ({ r0 with vecs := (List.replicate p.h.n 0, [], []) }, s)
  else if r.taken then
    let n := if fac then itersIn p.h (c - pre) else (0, 0)
    s.qpResult r0 p (runIters p r.fac n.2 (min n.1 p.h.itmax) (Sys2Proof.Machine.spStart r.x r.z r.y))
  else
    let w := s.spWarm r.job
    s.qpResult { r0 with mismatch := w.mismatch, noWarm := w.none } p (Sys2Proof.Machine.spStart w.x w.z w.y)

/-- SOLVE_END's effect on lane `k`: a run whose work is at its end (R116). -/
def State.spSolveEnd (s : State) (k : Nat) : State :=
  match (s.spLane k).run with
  | none => s
  | some r =>
    let p := s.spProb r.job.inst r.job.slot
    if r.done p then
      let x := s.spFinished k r p
      (x.2.spEnd r.job x.1).spFreeLane k
    else s

/-- STOP_INSTANT's effect on lane `k` (R114): nothing where the write-back has begun. -/
def State.spStopLane (s : State) (k : Nat) : State :=
  match (s.spLane k).run with
  | none => s
  | some r =>
    let p := s.spProb r.job.inst r.job.slot
    if reached r.job.stop s.now && !r.done p then
      let x := s.spStopped k r p
      (x.2.spEnd r.job x.1).spFreeLane k
    else s

/-! ### The lanes' work in time (R114, R122) -/

/-- The transfer in which a run stands, if any: its first clock and its bytes. -/
def SparRun.transfer (r : SparRun) (h : SpHdr) : Option (Nat × Nat) :=
  let c := r.clocks
  let t := intakeClocks h r.job.nent r.paged
  let l := loadBytes h r.warmed
  if r.paged && decide (200 ≤ c ∧ c < 200 + ceilDiv h.img 8) then some (200, h.img)
  else if r.taken && !r.job.nosolve && decide (t ≤ c ∧ c < t + ceilDiv l 8) then some (t, l)
  else none

/-- A run's position after one lane clock while `k` lanes transfer: 8 bytes, or 64 / k with more than 8 lanes. -/
def SparRun.stepPos (r : SparRun) (h : SpHdr) (k : Nat) : Nat :=
  match r.transfer h with
  | none => r.pos + laneUnit
  | some (c0, bytes) =>
    let p := r.pos + laneUnit * 8 / max k 8
    if laneUnit * c0 + laneUnit * bytes / 8 ≤ p then laneUnit * (c0 + ceilDiv bytes 8) else p

/-- The lanes that transfer. -/
def State.spTransfers (s : State) : Nat :=
  (s.spar.lanes.filter (fun l => match l.2.run with | some r => (r.transfer (s.spHdrAt r.job.slot)).isSome | none => false)).length

/-- One lane clock of lane `k`: a run stands still from its stop instant on unless its write-back has begun; at the end of the intake's
clocks the intake is done. -/
def State.spLaneClock (s : State) (k n : Nat) : State :=
  match (s.spLane k).run with
  | none => s
  | some r =>
    let h := s.spHdrAt r.job.slot
    if reached r.job.stop s.now && !r.done (s.spProb r.job.inst r.job.slot) then s
    else
      let r := { r with pos := r.stepPos h n }
      let s := s.setSpLane k { s.spLane k with run := some r }
      if !r.taken && decide (intakeClocks h r.job.nent r.paged ≤ r.clocks) then s.spIntake k r else s

/-- One clock of every lane. -/
def State.spClock (s : State) : State :=
  let n := s.spTransfers
  s.spar.lanes.foldl (fun t l => t.spLaneClock l.1 n) s

/-- One tick of the time base: two lane clocks (1.25 ns each). -/
def State.spTick (s : State) : State := if s.underWay then s.spClock.spClock else s

/-- The record of a job that never ran, with the given status; the times and residuals that the spec does not state are
drawn. -/
def State.spUnrun (s : State) (j : SparJob) (status lane tend : Nat) (vecs : Bool) : State :=
  let w := s.spWarm j
  let qp := (s.spHdrAt j.slot).qp
  let s := if vecs then s.spRebind j.inst j.slot else s
  let d := s.drawRes
  let t := d.2.draw 32
  t.2.spEnd j ⟨status, false, false, 0, 0, vecs && w.mismatch, vecs && w.none, false, lane, 0, 0, d.1.1, d.1.2, 0, 0, t.1.toNat, tend,
    if vecs then (w.x, if qp then w.z else [], if qp then w.y else []) else ([], [], [])⟩

/-- EXPIRED's effect for an instance's queued job whose stop instant is reached (R114). -/
def State.spExpire (s : State) (inst : Nat) : State :=
  match s.spar.queue.find? (fun j => j.inst == inst) with
  | none => s
  | some j =>
    if !reached j.stop s.now then s else
    let s := { s with spar := { s.spar with queue := s.spar.queue.filter (fun x => x.acc != j.acc) } }
    let s := s.incFld SP_CNT_EXPIRED
    match (List.range 32).find? (fun k => s.spFree k) with
    | some k => (s.setFld (SP_LANE_STAT_INST k) inst).spUnrun j 6 k (s.now + wbNs (s.spHdrAt j.slot)) true
    | none =>
      let d := s.draw 32
      d.2.spUnrun j 6 63 (s.now + d.1.toNat % 2001) true

/-- LANE_FAULT's effect on lane `k` (R120). -/
def State.spLaneFault (s : State) (k : Nat) : State :=
  let run := (s.spLane k).run
  let s1 := (s.setSpLane k { s.spLane k with run := none, out := true }).sticky 35 k (s.fld (SP_LANE_STAT_INST k))
  match run with
  | none => s1
  | some r =>
    let d := s1.drawRes
    d.2.spEnd r.job { r.result k 8 false (s.now + wbNs (s.spHdrAt r.job.slot)) with rp := d.1.1, rd := d.1.2 }

/-! ### Leaving under way (R121) -/

/-- A running problem when the module leaves under way: completed if its write-back has begun, else ABORTED. -/
def State.spAbortLane (s : State) (k : Nat) : State :=
  match (s.spLane k).run with
  | none => s
  | some r =>
    let p := s.spProb r.job.inst r.job.slot
    let x := if r.done p then s.spFinished k r p else
      let d := s.drawRes
      ({ r.result k 9 false (s.now + wbNs p.h) with rp := d.1.1, rd := d.1.2 }, d.2)
    (x.2.spEnd r.job x.1).spFreeLane k

/-- Every queued and running problem ends, and the caches are empty (R121). -/
def State.sparAbort (s : State) : State :=
  let s := (List.range 32).foldl (fun t k => t.spAbortLane k) s
  let s := s.spar.queue.foldl (fun t j =>
    let l := t.draw 6
    let e := l.2.draw 32
    e.2.spUnrun j 9 l.1.toNat e.1.toNat false) s
  { s with spar := { s.spar with queue := [], lanes := s.spar.lanes.map (fun l => (l.1, { l.2 with cache := [] })) } }

/-! ### What the registers read (SP_STAT, SP_LANEMASK, SP_SLOTs_STAT, SP_LANEk_STAT) -/

/-- Whether lane `k` is in service. -/
def State.spServ (s : State) (k : Nat) : Bool := s.laneOn k && !(s.spLane k).out

/-- SP_LANEMASK. -/
def State.spMask (s : State) : Nat := (List.range 32).foldl (fun a k => a + b2n (s.spServ k) * 2 ^ k) 0

/-- SP_STAT. -/
def State.spStat (s : State) : Nat :=
  s.spar.queue.length + 256 * (s.spar.lanes.filter (fun l => l.2.run.isSome)).length +
  65536 * ((List.range 32).filter (fun k => s.spServ k)).length

/-- RESIDENT of a slot. -/
def State.spResident (s : State) (slot : Nat) : Nat :=
  (s.spar.lanes.filter (fun l => l.2.cache.any (fun e => e.1 == slot))).length

/-- STATE of a lane, by the clocks of R122. -/
def State.spLaneState (s : State) (k : Nat) : Nat :=
  if !s.spServ k then 6 else
  match (s.spLane k).run with
  | none => 0
  | some r =>
    let h := s.spHdrAt r.job.slot
    let c := r.clocks
    let fac := ceilDiv h.flops 8 + 12 * (h.n + h.m)
    if c < pageClocks h r.paged then 1
    else if !r.taken || decide (c < r.preClocks h - (if r.job.nosolve then 0 else fac)) then 2
    else if r.done (s.spProb r.job.inst r.job.slot) then 5
    else if c < r.preClocks h then 3
    else 4

/-! ### The commands -/

/-- SUBMIT (R109). -/
def execSubmit (i : Initiator) (addr : Word) (s : State) : Out := .next (s.gated i SP_SUBMIT fun s => s.submit i addr.toNat)
/-- DISPATCH (R107, R111 to R113, R115). -/
def execDispatch (s : State) : Out := .next (if s.underWay then s.spDispatch else s)
/-- SOLVE_END (R116 to R119). -/
def execSolveEnd (k : Fin 32) (s : State) : Out := .next (if s.underWay then s.spSolveEnd k else s)
/-- STOP_INSTANT (R114, R116). -/
def execStopInstant (k : Fin 32) (s : State) : Out := .next (if s.underWay then s.spStopLane k else s)
/-- EXPIRED (R114). -/
def execExpired (inst : Fin 128) (s : State) : Out := .next (if s.underWay then s.spExpire inst else s)
/-- LANE_FAULT (R120). -/
def execLaneFault (k : Fin 32) (s : State) : Out := .next (if s.spServ k then s.spLaneFault k else s)

end Sys2Proof.Machine
end

