-- ==== Sys2Proof/Machine/StartUp.lean ====
section
/-! DEFINITION. Line start-up and time keeping: LISTEN, cold start, integration, averaging, pair time, links (R204 to R217,
R240). -/

namespace Sys2Proof.Machine

/-! ### Line states -/

/-- A line goes to IDLE and sends nothing further. -/
def State.lineIdle (s : State) (n : Nat) : State :=
  let s := (s.setFld (TL_LSTAT_STATE n) 0).setFld (TL_TSTAT_PHASE n) 0
  let s := (s.setFld (TL_TSTAT_DEFER n) 0).setFld (TL_TSTAT_CFGNODE n) 0
  s.setLine n { s.line n with
    stopReq := false, runNext := false, coll := false, waitEnd := none, listenAt := none, frameA := [], frameB := [],
    sentCyc := false, lat := [], stale := false, accA := [], accB := [], thA := [], thB := [], dcA := [], dcB := [], cmb := none }

/-- A start that fails: IDLE, RUN 0, the cause in FAIL, TL_START_FAIL (R212, R217). -/
def State.startFail (s : State) (n code : Nat) : State :=
  let s := ((s.lineIdle n).setFld (TL_LCTL_RUN n) 0).setFld (TL_TSTAT_FAIL n) code
  s.sticky 132 n code

/-- Whether some driven end of a line has link. -/
def State.someLink (s : State) (n : Nat) : Bool :=
  (s.drives n false && s.flag (TL_LSTAT_LINKA n)) || (s.drives n true && s.flag (TL_LSTAT_LINKB n))

/-- LISTEN entered (R212). -/
def State.toListen (s : State) (n : Nat) (short : Bool) : State :=
  let s := (s.setFld (TL_LSTAT_STATE n) 1).setFld (TL_TSTAT_PHASE n) 0
  let s := (s.setFld (TL_TSTAT_DEFER n) 0).setFld (TL_TSTAT_CFGNODE n) 0
  s.setLine n { s.line n with
    listened := 0, listenAt := if s.someLink n then some s.nowNs else none, shortL := short, waitEnd := none, coll := false,
    cold := false, heard := false }

/-- RUN written as 1 in IDLE (R211). -/
def State.lineStart (s : State) (n : Nat) : State :=
  if s.fld (TL_LSTAT_STATE n) ≠ 0 then s
  else if s.fld CT_CTL_CFGSRC = 2 ∧ !s.flag CT_STAT_STEPPED then
    (s.setFld (TL_TSTAT_NOSTEP n) 1).setFld (TL_LCTL_RUN n) 0
  else (s.setFld (TL_TSTAT_FAIL n) 0).toListen n false

/-- RUN written as 0: IDLE at the next cycle start (R211). -/
def State.lineStopReq (s : State) (n : Nat) : State :=
  if s.fld (TL_LSTAT_STATE n) = 0 then s else s.setLine n { s.line n with stopReq := true }

/-- A write of TL_LCTL (R211). -/
def State.writeLctl (s : State) (i : Initiator) (n : Nat) (v : Word) : State :=
  let s := s.plainWrite i (TL_LCTL n) v
  if v.getLsbD 0 then s.lineStart n else s.lineStopReq n

/-- The ns listened so far. -/
def State.listenedNs (s : State) (n : Nat) : Nat :=
  let l := s.line n
  l.listened + (match l.listenAt with | some t => s.nowNs - t | none => 0)

/-- TLISTEN in ns: 0 acts as 1. -/
def State.tListen (s : State) : Nat := max 1 (s.fld TL_FTA_CTL_TLISTEN) * 125000

/-- The time to listen: TLISTEN, or 250 µs after a collision (R215). -/
def State.listenTime (s : State) (n : Nat) : Nat := if (s.line n).shortL then 250000 else s.tListen

/-- The end of LISTEN (R212): a line on which something else than CYCLE frames with ROLE ACTIVE or ALONE or a cold start was heard
listens anew. -/
def State.endListen (s : State) (n : Nat) : State :=
  if s.fld (TL_LSTAT_STATE n) ≠ 1 then s
  else if s.flag (TL_TSTAT_DEFER n) then
    (if s.tListen ≤ s.nowNs - (s.line n).heardAt then s.toListen n false else s)
  else if s.listenTime n ≤ s.listenedNs n && (s.line n).heard then s.toListen n (s.line n).shortL
  else if s.listenTime n ≤ s.listenedNs n && s.drives n false then
    let s := (s.setFld (TL_LSTAT_STATE n) 2).setFld (TL_TSTAT_PHASE n) 1
    s.setLine n { s.line n with coldN := 0, cfgEx := 0, cfgPend := 0, cfgAns := 0, cfgA := [], cfgB := [], cmb := none, streak := 0, verN := 0,
                                coll := false, waitEnd := none, cold := true, shortL := false }
  else s

/-! ### Cold start (R213 to R215) -/

/-- The schedule block of node `a` (R198). -/
def State.schedBlock (s : State) (n a : Nat) : List Byte :=
  let f := fun (w : Nat) (v : Nat) => leBytes w v
  f 1 (s.fld (TL_LCTL_PERIOD n)) ++ f 1 (s.fld (TL_LCTL_MODE n)) ++ f 1 (s.nodes n) ++ f 1 (s.fld (TL_LCTL_SCHID n)) ++
  f 4 (s.slot n a) ++ f 4 (s.fld (TL_ACT_V n)) ++ f 4 (s.fld (TL_SMP_V n)) ++ f 2 (s.fld (TL_HOP_HOP n)) ++ f 2 (s.fld (TL_CWIN_V n)) ++
  f 2 (s.fld (TL_LINK_LINKA n)) ++ f 2 (s.fld (TL_LINK_LINKB n)) ++ f 4 (s.fld (TL_MBREQ_V n)) ++ f 4 (s.fld (TL_MBRSP_V n)) ++
  f 1 (s.fld (TL_MBRSP_MBMAX n)) ++ f 1 (s.fld (TL_MBREQ_MBEN n)) ++ f 26 0 ++ f 4 (s.schCrc n)

/-- A delay in 1/8 ns from the values in 2⁻¹⁷ ns measured at an end: their mean, 0 for none. -/
def meanDelay (ds : List Int) : Nat :=
  if ds.isEmpty then 0 else (ds.foldl (fun a b => a + b) (0 : Int) / ((ds.length * 2 ^ 14 : Nat) : Int)).toNat

/-- The exchange of step `e` of node `a` in CONFIG (R214): IDENT, LOSSLIM, schedule block, 0x0013 four times, DELAY. -/
def State.cfgExchange (s : State) (n a e tag : Nat) : MbEx :=
  let l := s.line n
  match e with
  | 0 => ⟨3, a, 16, 0, tag, [], 0, false, false⟩
  | 1 => ⟨2, a, 4, 0x10, tag, leBytes 4 3, 0, false, false⟩
  | 2 => ⟨2, a, 64, 0x20, tag, s.schedBlock n a, 0, false, false⟩
  | 7 =>
    let y := if s.drives n true then meanDelay l.cfgB else 0
    ⟨2, a, 8, 0x11, tag, leBytes 4 (meanDelay l.cfgA) ++ leBytes 4 y, 0, false, false⟩
  | _ => ⟨1, a, 12, 0x13, tag, [], 0, false, false⟩

/-- The delays written to node `a` kept, and its DLY. -/
def State.keepDelays (s : State) (n a : Nat) (d : List Byte) : State :=
  let l := s.line n
  let x := leAt d 0 4
  let y := leAt d 4 4
  let s := s.setLine n { l with dA := tabSet (fun _ => 0) l.dA a x, dB := tabSet (fun _ => 0) l.dB a y, cfgA := [], cfgB := [] }
  s.setFld (TL_NODE_DLY_DLY n (a - 1)) (if s.drives n false then x else y)

/-- A cold cycle of CONFIG: the answer of the exchange before is judged, then the present one is sent (R213, R214, R217). -/
def State.cfgCycle (s : State) (n start : Nat) : State :=
  let l := s.line n
  let old := l.cmb
  if old.isSome && l.cfgAns == 0 then s.startFail n 1
  else if old.isSome && l.cfgAns == 2 && 15 ≤ l.cfgPend then s.startFail n 1
  else
    let s := match old, l.cfgAns with
      | some x, 1 =>
        let s := if l.cfgEx % 8 = 7 then s.keepDelays n x.addr x.data else s
        s.setLine n { s.line n with cfgEx := l.cfgEx + 1, cfgPend := 0, cmb := none }
      | some _, 2 => s.setLine n { l with cfgPend := l.cfgPend + 1 }
      | _, _ => s
    let l := s.line n
    if l.cfgEx = 8 * s.nodes n then
      (s.setLine n { l with cmb := none, cfgAns := 0 }).setFld (TL_TSTAT_PHASE n) 3 |>.setFld (TL_TSTAT_CFGNODE n) 0
    else
      let a := l.cfgEx / 8 + 1
      let s := s.sendEnds n false (fun b => s.coldFrame n start 2 b)
      let tag := if l.cmb.isSome then l.tag else (l.tag + 1) % 256
      let x := match l.cmb with | some x => x | none => s.cfgExchange n a (l.cfgEx % 8) tag
      let s := s.setFld (TL_TSTAT_CFGNODE n) a
      s.setLine n { s.line n with cmb := some x, tag := tag, cfgAns := 0, mbFrame := s.mbFrameOf n false x }

/-- A cold cycle of a line in COLDSTART (R213 to R215). -/
def State.coldCycle (s : State) (n start : Nat) : State :=
  let l := s.line n
  if s.fld (TL_LSTAT_STATE n) ≠ 2 ∨ l.waitEnd.isSome then s
  else if l.coll then
    let w := (2 * s.fld TL_FTA_CTL_RANK + s.fld PR_CTL_PAIRID + 1) * 250000
    ((s.setLine n { l with coll := false, cmb := none, frameA := [], frameB := [], waitEnd := some (s.nowNs + w) }).incFld
      (TL_TSTAT_COLLCNT n)).setFld (TL_TSTAT_PHASE n) 0
  else match s.fld (TL_TSTAT_PHASE n) with
  | 1 =>
    if l.coldN < 8 then
      (s.setLine n { l with coldN := l.coldN + 1, coldAt := start, farA := false, farB := false }).sendEnds n false (fun b => s.coldFrame n start 1 b)
    else ((s.setFld (TL_TSTAT_PHASE n) 2).setLine n { l with cfgEx := 0, cfgPend := 0, cfgAns := 0, coldAt := start }).cfgCycle n start
  | 2 => (s.setLine n { l with coldAt := start }).cfgCycle n start
  | _ => s

/-- Whether a cold mailbox response lies in its window (R213). -/
def State.coldWindow (s : State) (n a : Nat) (f : LineFrame) : Bool :=
  let e := ((60000 + s.offEnd n a f.endB : Nat) : Int) * 65536
  let t := sinceStart f.sfd (s.line n).coldAt
  s.drives n f.endB && decide (e - 5000 * 65536 ≤ t) && decide (t < e + 5000 * 65536)

/-- The measurement that a cold mailbox response gives where its node's stamps are known, those of its reads of parameter 0x0013
(R197, R214): d for the delay that CONFIG writes, θ as the node's last deviation. -/
def State.coldMeasure (s : State) (n : Nat) (f : LineFrame) : State :=
  let l := s.line n
  let a := frameSrc f
  let d := sliceB f.payload 16 12
  let r := leAt d (if f.endB then 4 else 0) 4
  let fr := leAt d (if f.endB then 9 else 8) 1
  if r = 0 then s
  else
    let m := measure (l.sfd f.endB) (sinceStart f.sfd l.coldAt) 60000 (diff32 r l.coldAt * 65536 + fr * 256)
    let s := s.setFld (TL_NODE_TIME_OFS n (a - 1)) (ofS 16 (satS 16 (asr m.2 17)))
    s.setLine n (if f.endB then { l with cfgB := l.cfgB ++ [m.1] } else { l with cfgA := l.cfgA ++ [m.1] })

/-- A cold mailbox response (R213, R214, R217). -/
def State.coldAnswer (s : State) (n : Nat) (f : LineFrame) : State :=
  match (s.line n).cmb with
  | none => s
  | some x =>
    if frameSrc f == x.addr && leAt f.payload 9 1 == x.tag && s.coldWindow n x.addr f then
      match leAt f.payload 14 1 with
      | 0 =>
        let s := if x.index = 0x13 then s.coldMeasure n f else s
        s.setLine n { s.line n with cfgAns := 1 }
      | 1 => s.setLine n { s.line n with cfgAns := if (s.line n).cfgAns = 1 then 1 else 2 }
      | _ => s.startFail n 1
    else s

/-- VERIFY complete: a step of zero where STEPPED is 0, and RUNNING at the next cycle start (R214). -/
def State.verifyDone (s : State) (n : Nat) : State :=
  let s := if s.flag CT_STAT_STEPPED then s else s.stepBy 0
  s.setLine n { s.line n with runNext := true }

/-- Whether every node was accepted in this cycle at every enabled end that the module drives. -/
def State.allIn (s : State) (n : Nat) : Bool := (List.range (s.nodes n)).all (fun i => s.allEnds n (i + 1))

/-- The check of VERIFY's 16th good cycle after an accepted reply (R214). -/
def State.verifyCheck (s : State) (n : Nat) : State :=
  if s.fld (TL_LSTAT_STATE n) = 2 ∧ s.fld (TL_TSTAT_PHASE n) = 3 ∧ (s.line n).streak = 15 ∧ s.allIn n ∧ !(s.line n).runNext then
    s.verifyDone n
  else s

/-! ### The partner's frames (R209, R212, R215, R216, R240) -/

/-- Whether a frame is one that this module sent itself: its PAIRID and the other end. -/
def State.ownFrame (s : State) (f : LineFrame) : Bool := framePair f == s.flag PR_CTL_PAIRID && frameEnd f == !f.endB

/-- A foreign COLD or CYCLE frame in LISTEN at a module that drives both ends (R212). -/
def State.foreign (s : State) (n : Nat) (f : LineFrame) : Bool :=
  s.fld (TL_LSTAT_STATE n) == 1 && s.drives n false && s.drives n true && !s.ownFrame f

/-- The split-brain rules on a partner CYCLE frame (R240). -/
def State.splitBrain (s : State) (f : LineFrame) : State :=
  let e := leAt f.payload 12 4
  let mine := s.fld PR_EPOCH_EPOCH
  if s.commands then
    if mine < e then (s.goHalted 2).sticky 129 0 2
    else if e = mine ∧ frameRole f ≤ 1 ∧ s.flag PR_CTL_PAIRID then (s.goHalted 3).sticky 129 0 3
    else s
  else s

/-- The own pair measurement m of this cycle in 2⁻¹⁶ ns, kept with the one before it (R209). -/
def State.pairMeasure (s : State) (n : Nat) (f : LineFrame) : State :=
  let st := s.cycleStart (s.linePer n)
  let c := st / s.linePer n
  let l := s.line n
  s.setLine n { l with mOwn := ((c, sinceStart f.sfd st) :: l.mOwn.filter (fun x => x.1 != c)).take 2 }

/-- Whether an instant lies in the present or the preceding cycle of a line. -/
def State.recent (s : State) (n : Nat) (t : Option Nat) : Bool :=
  match t with
  | some x => decide (s.nowNs < x + 2 * s.linePer n)
  | none => false

/-- Whether a line is RUNNING at the partner: its CYCLE frames arrive. -/
def State.partnerRuns (s : State) (n : Nat) : Bool := s.recent n (s.line n).pAt

/-- The reference line (R209): the line being integrated here or at the partner, else the lowest line that is RUNNING at both
modules. -/
def State.refLine (s : State) : Option Nat :=
  let run := fun (n : Nat) => s.fld (TL_LSTAT_STATE n) == 4
  match (List.range 8).find? (fun n => s.fld (TL_LSTAT_STATE n) == 3 || (run n && s.recent n (s.line n).pCold)) with
  | some n => some n
  | none => (List.range 8).find? (fun n => run n && s.partnerRuns n)

/-- The end-to-end transit of a line (R216, R221). -/
def State.transit (s : State) (n : Nat) : Nat :=
  s.fld (TL_LINK_LINKA n) + (s.nodes n - 1) * s.fld (TL_HOP_HOP n) + s.fld (TL_LINK_LINKB n)

/-- A HALTED module that takes part in line start-up joins as STALE with the partner's epoch, and never with a lower one than it has
received (R223, R224). -/
def State.joinStale (s : State) (epoch : Nat) : State :=
  if s.role = 4 ∧ !s.pair.muted then
    (((s.setFld PR_EPOCH_EPOCH (max epoch s.pair.maxEpoch)).setFld PR_STAT_STALECAUSE 7).setRole 3) else s

/-- Integration begun on the first active frame: the role, then the step or the slew of the initial offset (R216, R223). -/
def State.beginInteg (s : State) (n : Nat) (f : LineFrame) : State :=
  let p := f.payload
  let ofs : Int := ((leAt p 16 8 + s.transit n : Nat) : Int) - s.fullTime f.sfd.ns.toNat
  let s := ((s.setFld (TL_LSTAT_STATE n) 3).setFld (TL_TSTAT_PHASE n) 4).setFld (TL_TSTAT_DEFER n) 0
  let s := s.joinStale (leAt p 12 4)
  let slew := ofs.natAbs * 1000000 / max 1 (min 200 (s.fld TL_FTA_CTL_SLEWPPM))
  let s := s.setLine n { s.line n with
    integAt := s.nowNs, psyncRun := 0, integSlew := if s.flag CT_STAT_STEPPED then slew else 0 }
  if s.flag CT_STAT_STEPPED then (s.setFld CT_SLEW_CTL_PPM (ppmOf (s.fld TL_FTA_CTL_SLEWPPM))).putSlew ofs
  else if s.linesSending then s.sticky 8 0 1 else s.stepBy ofs

/-- A valid partner CYCLE frame at a port (R209, R212, R216, R237, R240). -/
def State.partnerFrame (s : State) (n : Nat) (f : LineFrame) : State :=
  if framePair f == s.flag PR_CTL_PAIRID then s else
  let act := decide (frameRole f ≤ 1)
  let s := { s with pair := { s.pair with
    frameAt := some s.nowNs, maxEpoch := max s.pair.maxEpoch (leAt f.payload 12 4),
    actFrameAt := if act then some s.nowNs else s.pair.actFrameAt, seenActive := s.pair.seenActive || act } }
  let s := s.setLine n { s.line n with heardAt := s.nowNs, heard := true, pAt := some s.nowNs }
  let s := s.splitBrain f
  let s := if s.role = 2 ∨ s.role = 3 then s.setFld PR_EPOCH_EPOCH (max (s.fld PR_EPOCH_EPOCH) (leAt f.payload 12 4)) else s
  match s.fld (TL_LSTAT_STATE n) with
  | 1 => if act && !s.pair.muted then s.beginInteg n f else s
  | 3 => s.pairMeasure n f
  | 4 => s.pairMeasure n f
  | _ => s

/-- A collision seen: every line in COLDSTART that does not enter RUNNING stops at its next cold cycle (R215). -/
def State.collide (s : State) : State :=
  (List.range 8).foldl (fun s m =>
    if s.fld (TL_LSTAT_STATE m) = 2 ∧ !(s.line m).runNext ∧ (s.line m).waitEnd.isNone then
      s.setLine m { s.line m with coll := true } else s) s

/-- Whether the module is in ADDR or CONFIG on some line. -/
def State.inAddrConfig (s : State) : Bool :=
  (List.range 8).any (fun m => s.fld (TL_LSTAT_STATE m) == 2 && (s.fld (TL_TSTAT_PHASE m) == 1 || s.fld (TL_TSTAT_PHASE m) == 2))

/-- A valid partner COLD frame at a port (R209, R212, R215). -/
def State.partnerCold (s : State) (n : Nat) (f : LineFrame) : State :=
  if framePair f == s.flag PR_CTL_PAIRID then s else
  let st := leAt f.payload 21 1
  let s := s.setLine n { s.line n with heardAt := s.nowNs, heard := true, pCold := if st = 4 then some s.nowNs else (s.line n).pCold }
  if st = 4 then (if s.fld (TL_LSTAT_STATE n) = 4 then s.pairMeasure n f else s)
  else
    let s := if s.inAddrConfig then s.collide else s
    if s.fld (TL_LSTAT_STATE n) = 1 then s.setFld (TL_TSTAT_DEFER n) 1 else s

/-! ### Pair time and averaging (R205, R206, R209, R210) -/

/-- A δ judged: PSYNC after 16 small ones; an INTEGRATING line then enters RUNNING at the next cycle start (R210, R216). -/
def State.judgeDelta (s : State) (n : Nat) (d : Int) : State :=
  let run := if d.natAbs ≤ 24 then min 16 ((s.line n).psyncRun + 1) else 0
  let s := s.setFlag (TL_TSTAT_PSYNC n) (run == 16)
  let s := { s with fta := { s.fta with dSum := s.fta.dSum + d, dCnt := s.fta.dCnt + 1, syncSeen := s.fta.syncSeen || run == 16 } }
  s.setLine n { s.line n with psyncRun := run, runNext := (s.line n).runNext || (run == 16 && s.fld (TL_LSTAT_STATE n) == 3) }

/-- The partner's m of a cycle of line `n`, in 2⁻¹⁶ ns, with the cycle's number: δ and D from the two values of one cycle of the
reference line (R209). -/
def State.partnerMeasure (s : State) (n : Nat) (c m : Word) : State :=
  match s.commands || s.refLine != some n, (s.line n).mOwn.find? (fun x => BitVec.ofNat 32 x.1 == c) with
  | false, some x =>
    let d := (x.2 - m.toInt) / (2 * 65536)
    let t := (x.2 + m.toInt) / (2 * 65536)
    let s := (s.setReg (TL_PAIR_DELTA n) (BitVec.ofInt 32 d)).setFld (TL_PAIR_D_D n) t.toNat
    (s.setLine n { s.line n with mOwn := (s.line n).mOwn.filter (fun y => y.1 != x.1) }).judgeDelta n d
  | _, _ => s

/-- The ACTIVE or ALONE module's m of a cycle that ends, sent to its partner (R209). -/
def State.sendMeasure (s : State) (n : Nat) : State :=
  let l := s.line n
  let c := l.cycAt / s.linePer n
  if s.flag PR_CTL_PAIREN && s.commands && s.refLine == some n then
    s.setLine n { l with mSent := l.mOwn.find? (fun x => x.1 == c) }
  else s

/-- Whether the module's PSYNC is 1: the lowest line that measures. -/
def State.psync (s : State) : Bool :=
  match (List.range 8).find? (fun n => s.fld (TL_LSTAT_STATE n) == 4) with
  | some n => s.flag (TL_TSTAT_PSYNC n)
  | none => (List.range 8).any (fun n => s.flag (TL_TSTAT_PSYNC n))

/-- The round length in ns (R205). -/
def State.roundLen (s : State) : Nat := max 1 (s.fld TL_FTA_CTL_RINT) * 125000

/-- The values of the round: the module's 0 and each sync node's floor mean in ns (R205). -/
def State.roundValues (s : State) : List Int :=
  (0 : Int) :: (List.range 8).flatMap (fun n =>
    if s.fld (TL_LSTAT_STATE n) ≠ 4 then [] else
    (List.range (s.nodes n)).filterMap (fun i =>
      let x := tabGet (fun _ => ((0 : Int), 0)) (s.line n).theta (i + 1)
      if (s.fld (TL_SYNC_SYNCMASK n)).testBit i && !s.flag (TL_NODE_STAT_LATE n i) && decide (0 < x.2) then
        some (x.1 / (x.2 * 2 ^ 17 : Nat)) else none))

/-- A correction written to CT: the slew, and the increment from base and rate (R205). -/
def State.correct (s : State) (delta : Int) : State :=
  let s := s.setFld CT_SLEW_CTL_PPM (ppmOf (s.fld TL_FTA_CTL_SLEWPPM))
  let s := s.putSlew delta
  let rate := clampI (-2147483) 2147483 ((s.reg TL_FTA_RATE).toInt + delta * 10737418240 / (4 * s.roundLen : Nat))
  let s := s.setReg TL_FTA_RATE (BitVec.ofInt 32 rate)
  let x : Int := (s.fta.base : Int) + rate
  s.reqIncr x (x % 2 ^ 32).toNat

/-- The average at a round boundary (R205, R206). -/
def State.average (s : State) : State :=
  let v := s.roundValues
  let k := s.fld TL_FTA_CTL_K
  let s := s.refreshApplied.setFld TL_FTA_STAT_COUNT v.length
  if v.length < 2 * k + 1 then (s.setFld TL_FTA_STAT_SHORT 1).setFld TL_FTA_STAT_USED 0
  else
    let w := ((sortI v).drop k).take (v.length - 2 * k)
    let delta := w.foldl (fun a b => a + b) 0 / (w.length : Int)
    let s := (s.setFld TL_FTA_STAT_USED w.length).setReg TL_FTA_DELTA (BitVec.ofInt 32 delta)
    if s.flag TL_FTA_STAT_APPLIED then s.correct delta else s

/-- A module that follows its partner corrects toward it (R209). -/
def State.followPartner (s : State) : State :=
  if s.fta.slave && 0 < s.fta.dCnt then s.correct (-(s.fta.dSum / (s.fta.dCnt : Int))) else s

/-- A round ends (R205, R209, R234). -/
def State.endRound (s : State) (at_ : Nat) : State :=
  let s := (s.average).followPartner
  let s := if s.role = 2 ∧ !s.fta.syncSeen then s.goStale 5 else s
  let s := (List.range 8).foldl (fun s n => s.setLine n { s.line n with theta := [] }) s
  { s with fta := { s.fta with dSum := 0, dCnt := 0, syncSeen := s.psync, roundAt := at_ } }

/-! ### Links -/

/-- A port's link in the line's status, for a driven end. -/
def State.showLink (s : State) (q : Nat) (up : Bool) : State :=
  let n := q % 8
  let b := decide (8 ≤ q)
  if s.drives n b then (if b then s.setFlag (TL_LSTAT_LINKB n) up else s.setFlag (TL_LSTAT_LINKA n) up) else s

/-- The listening time follows the links (R212). -/
def State.listenLinks (s : State) (n : Nat) : State :=
  if s.fld (TL_LSTAT_STATE n) ≠ 1 then s
  else
    let l := s.line n
    match s.someLink n, l.listenAt with
    | true, none => s.setLine n { l with listenAt := some s.nowNs }
    | false, some _ => s.setLine n { l with listened := s.listenedNs n, listenAt := none }
    | _, _ => s

/-- A frame of this module seen at the far driven end (TOPO, BREAK, R214). -/
def State.farFrame (s : State) (n : Nat) (f : LineFrame) : State :=
  let l := s.line n
  let s := s.setLine n (if f.endB then { l with farB := true } else { l with farA := true })
  let cold := frameType f == 3 && s.fld (TL_LSTAT_STATE n) == 2 && s.fld (TL_TSTAT_PHASE n) == 1
  let cyc := frameType f == 1 && s.fld (TL_LSTAT_STATE n) == 4
  if (cold || cyc) && frameHops f != s.nodes n then s.setFld (TL_LSTAT_TOPO n) 1 else s

/-- BREAK judged at the end of a cycle in which a CYCLE frame was sent (TL_LSTAT). -/
def State.judgeBreak (s : State) (n : Nat) : State :=
  let l := s.line n
  let both := s.drives n false && s.drives n true
  if l.sentCyc && both && (!l.farB || (!l.farA && !s.flag (TL_LCTL_MODE n))) then s.setFld (TL_LSTAT_BREAK n) 1 else s

/-! ### The commands -/

/-- REPLY (R176, R186 to R188, R197, R214): a frame at an end of a line whose nodes reply. -/
def execReply (n : Fin 8) (f : LineFrame) (s : State) : Out :=
  .next (if s.underWay then
    let f := s.stamped n f
    let r := s.countFrame n f
    if r.2 && frameType f == 2 && r.1.replying n then (r.1.judgeReply n f).verifyCheck n else r.1
  else s)
/-- PARTNER_CYCLE_FRAME (R176, R209, R212, R216, R240). -/
def execPartnerCycleFrame (n : Fin 8) (f : LineFrame) (s : State) : Out :=
  .next (if s.underWay then
    let f := s.stamped n f
    let r := s.countFrame n f
    if r.2 && frameType f == 1 then
      (if r.1.foreign n f then r.1.startFail n 4 else if r.1.flag PR_CTL_PAIREN then r.1.partnerFrame n f else r.1)
    else r.1
  else s)
/-- COLD_FRAME (R176, R209, R212, R215). -/
def execColdFrame (n : Fin 8) (f : LineFrame) (s : State) : Out :=
  .next (if s.underWay then
    let f := s.stamped n f
    let r := s.countFrame n f
    if r.2 && frameType f == 3 then
      (if r.1.foreign n f then r.1.startFail n 4 else if r.1.flag PR_CTL_PAIREN then r.1.partnerCold n f else r.1)
    else r.1
  else s)
/-- COLLISION_WAIT_END (R215). -/
def execCollisionWaitEnd (n : Fin 8) (s : State) : Out :=
  .next (match (s.line n).waitEnd with
    | some t => if s.underWay && decide (t ≤ s.nowNs) && s.fld (TL_LSTAT_STATE n) == 2 then s.toListen n true else s
    | none => s)
/-- LINE_RUN (R211): a write of TL_LCTL with RUN 1. -/
def execLineRun (i : Initiator) (n : Fin 8) (v : Word) (s : State) : Out :=
  .next (s.gated i (TL_LCTL n) fun s => s.writeLctl i n (v ||| 1))
/-- LINE_STOP (R211): a write of TL_LCTL with RUN 0. -/
def execLineStop (i : Initiator) (n : Fin 8) (v : Word) (s : State) : Out :=
  .next (s.gated i (TL_LCTL n) fun s => s.writeLctl i n (v &&& 0xFFFFFFFE))
/-- LISTEN_END (R212). -/
def execListenEnd (n : Fin 8) (s : State) : Out := .next (if s.underWay then s.endListen n else s)
/-- COLD_MBRSP (R213, R214, R217). -/
def execColdMbrsp (n : Fin 8) (f : LineFrame) (s : State) : Out :=
  .next (if s.underWay then
    let f := s.stamped n f
    let r := s.countFrame n f
    if r.2 && frameType f == 5 && r.1.fld (TL_LSTAT_STATE n) == 2 && r.1.fld (TL_TSTAT_PHASE n) == 2 then r.1.coldAnswer n f else r.1
  else s)
/-- VERIFY_TIMEOUT (R217): VERIFY not complete within 64 cycles. -/
def execVerifyTimeout (n : Fin 8) (s : State) : Out :=
  .next (if s.underWay && s.fld (TL_LSTAT_STATE n) == 2 && s.fld (TL_TSTAT_PHASE n) == 3 && decide (64 ≤ (s.line n).verN) &&
      !(s.line n).runNext then s.startFail n 2 else s)
/-- INTEG_TIMEOUT (R217): PSYNC not reached within 20 ms plus the slew time of the initial offset. -/
def execIntegTimeout (n : Fin 8) (s : State) : Out :=
  .next (if s.underWay && s.fld (TL_LSTAT_STATE n) == 3 && !(s.line n).runNext &&
      decide ((s.line n).integAt + 20000000 + (s.line n).integSlew ≤ s.nowNs) then s.startFail n 3 else s)
/-- FTA_ROUND (R205, R206, R209, R234). -/
def execFtaRound (s : State) : Out :=
  let b := s.cycleStart s.roundLen
  .next (if s.underWay && s.fta.roundAt != b then s.endRound b else s)
/-- LINK_UP (R172). -/
def execLinkUp (q : Fin 16) (master : Bool) (s : State) : Out :=
  .next (if s.underWay then
    let s := (s.setFld (TL_PSTAT_LINK q) 1).setFlag (TL_PSTAT_MASTER q) master
    (s.showLink q true).listenLinks (q.val % 8)
  else s)
/-- LINK_DOWN (R172): TL_LINK_DOWN for a driven end of a RUNNING line. -/
def execLinkDown (q : Fin 16) (s : State) : Out :=
  .next (if s.underWay then
    let n := q.val % 8
    let s := ((s.setFld (TL_PSTAT_LINK q) 0).setFld (TL_PSTAT_MASTER q) 0).showLink q false
    let s := if s.drives n (decide (8 ≤ q.val)) && s.fld (TL_LSTAT_STATE n) == 4 then s.sticky 133 n (q.val / 8) else s
    s.listenLinks n
  else s)
/-- OWN_FRAME_AT_FAR_END (R214, TL_LSTAT TOPO and BREAK). -/
def execOwnFrameAtFarEnd (n : Fin 8) (f : LineFrame) (s : State) : Out :=
  .next (if s.underWay then
    let f := s.stamped n f
    let r := s.countFrame n f
    if r.2 && r.1.drives n f.endB && r.1.ownFrame f then r.1.farFrame n f else r.1
  else s)
/-- STAY_PAIR_MEASUREMENT (R209, R210). -/
def execStayPairMeasurement (n : Fin 8) (x : PairMeas) (s : State) : Out :=
  .next (if s.underWay && s.flag PR_CTL_PAIREN then s.partnerMeasure n x.cycle x.m else s)

/-- The delay at the partner's end of node `a` as known here, in 1/8 ns. -/
def State.farDelay (s : State) (n a : Nat) : Nat :=
  tabGet (fun _ => 0) (if s.drives n false then (s.line n).dB else (s.line n).dA) a

def State.setFarDelay (s : State) (n a m : Nat) : State :=
  let l := s.line n
  s.setLine n (if s.drives n false then { l with dB := tabSet (fun _ => 0) l.dB a m } else { l with dA := tabSet (fun _ => 0) l.dA a m })

/-- A mean of the partner's for node `a`: a joiner's is written to the node (R216), a later one with AUTODLY where it has drifted by
more than 16 ns (R208). -/
def State.takeMean (s : State) (n a m : Nat) (join : Bool) : State :=
  if s.commands && (join || (s.flag (TL_SYNC_AUTODLY n) && decide (128 < ((m : Int) - s.farDelay n a).natAbs))) then
    (s.setFarDelay n a m).queueDelay n a
  else s

/-- STAY_NODE_DELAY_MEANS (R208, R216): the partner's means at its end. -/
def execStayNodeDelayMeans (n : Fin 8) (x : DelayMeans) (s : State) : Out :=
  .next (if s.underWay && s.flag PR_CTL_PAIREN then x.means.foldl (fun s m => s.takeMean n m.1 m.2.toNat x.join) s else s)

end Sys2Proof.Machine
end

