-- ==== Sys2Proof/Machine/Pwm.lean ====
section
/-! DEFINITION. PWM groups and current sampling (R268 to R282). -/

namespace Sys2Proof.Machine

/-! ### Values in effect, shadows, staging (R269 to R273) -/

/-- PER in effect: below 16 acts as 16 (R269). -/
def State.pwPer (s : State) (g : Nat) : Nat := max 16 (s.effFld (PW_G_PER_V g))

/-- The dead time in effect in 1/32 ticks, at most 10 µs (R271). -/
def State.pwDt (s : State) (g : Nat) : Nat := min 128000 (s.effFld (PW_G_DT_DT g))

/-- The minimum pulse in effect in 1/32 ticks (R272). -/
def State.pwMin (s : State) (g : Nat) : Nat := s.effFld (PW_G_DT_MINPW g)

/-- The compare of a pair in effect in 1/32 ticks; a value above PER acts as PER (R270). -/
def State.pwCmp (s : State) (g p : Nat) : Nat := min (32 * s.pwPer g) (s.effFld (PW_G_CMP_V g p))

/-- The shadows of a group: PER, DT word, CMP0 to CMP3. -/
def State.pwShadows (s : State) (g : Nat) : List Nat :=
  [(s.reg (PW_G_PER g)).toNat, (s.reg (PW_G_DT g)).toNat, (s.reg (PW_G_CMP g 0)).toNat, (s.reg (PW_G_CMP g 1)).toNat,
   (s.reg (PW_G_CMP g 2)).toNat, (s.reg (PW_G_CMP g 3)).toNat]

/-- The registers that hold them. -/
def pwShadowRegs (g : Nat) : List Nat := [PW_G_PER g, PW_G_DT g, PW_G_CMP g 0, PW_G_CMP g 1, PW_G_CMP g 2, PW_G_CMP g 3]

/-- A set put into effect. -/
def State.pwTake (s : State) (g : Nat) (vs : List Nat) : State :=
  ((pwShadowRegs g).zip vs).foldl (fun s x => s.setEff x.1 (BitVec.ofNat 32 x.2)) s

/-- The shadows copied into the staging set (R273). -/
def State.pwStage (s : State) (g : Nat) : State :=
  (s.setPwg g { s.pwg g with stage := some (s.pwShadows g) }).setFld (PW_G_STAT_COMMITPEND g) 1

/-- The group values that will be in effect after the next boundary: the staged ones, else those in effect. -/
def State.pwNextCmp (s : State) (g p : Nat) : Nat :=
  match (s.pwg g).stage with
  | some vs => min (32 * max 16 (vs.getD 0 0 % 2 ^ 20)) (vs.getD (2 + p) 0 % 2 ^ 25)
  | none => s.pwCmp g p

/-! ### Suppression (R272) -/

/-- Whether the pairs of a group are in their trip state (R276, R277). -/
def State.pwInTrip (s : State) (g : Nat) : Bool := s.flag (PW_G_STAT_TRIPPED g) || (s.pwg g).hold

/-- Whether a requested pulse of a width, in 1/32 ticks, is suppressed. -/
def State.tooShort (s : State) (g w : Nat) : Bool := decide (0 < w) && decide (w < s.pwDt g + s.pwMin g)

/-- A pulse of each enabled pair judged; suppressed ones are counted. The mask of suppressed pairs. -/
def State.judgePulses (s : State) (g en : Nat) (width : Nat → Nat) : State × Nat :=
  if s.pwInTrip g then (s, 0) else
  (List.range 4).foldl (fun x p =>
    if en.testBit p && x.1.tooShort g (width p) then (x.1.incFld (PW_G_CNT_SUPPR g), x.2 + 2 ^ p) else x) (s, 0)

/-! ### Sampling (R278 to R280) -/

/-- A trigger of channel `c` at cell time `t` (ns): every d-th one holds it, or is lost. -/
def State.adcTrigger (s : State) (c t : Nat) : State :=
  let x := s.adc c
  let d := max 1 (s.fld (AD_CH_CFG_DIV c))
  if x.cnt + 1 < d then s.setAdc c { x with cnt := x.cnt + 1 }
  else
    let s := s.setAdc c { x with cnt := 0 }
    if x.held.isSome then s.incFld (AD_CH_STAT_OVR c)
    else (s.setAdc c { s.adc c with held := some t }).setFld (AD_CH_TS_V c) (t % 2 ^ 32)

/-- The conversion that converter `m` runs: its channel and the instant at which it began, in ns (R279). -/
def State.conversion (s : State) (m : Nat) : Option (Nat × Nat) := tabGet (fun _ => none) s.pwm.conv m

/-- Converter `m` turned, no earlier than `from_`, to the lowest of its channels that hold a sample, 50 ns after the hold at the
earliest; idle when there is none (R279). -/
def State.nextConv (s : State) (m from_ : Nat) : State :=
  let x := ((List.range 6).map (fun j => 6 * m + j)).findSome? (fun c => ((s.adc c).held).map (fun t => (c, max from_ (t + 50))))
  { s with pwm := { s.pwm with conv := tabSet (fun _ => none) s.pwm.conv m x } }

/-- A trigger of every channel that `sel` selects; a converter that is idle begins (R278, R279). -/
def State.adcTriggers (s : State) (sel : State → Nat → Bool) (t : Nat) : State :=
  let u := (List.range 24).foldl (fun u c => if sel s c then u.adcTrigger c t else u) s
  (List.range 4).foldl (fun u m => if (u.conversion m).isSome then u else u.nextConv m t) u

/-- The calibrated result (R280). -/
def State.adcCal (s : State) (c : Nat) (raw : BitVec 16) : Int :=
  clampI (-32768) 32767 (asr ((raw.toInt - toS 16 (s.cal (0x1202 + 4 * c) 2)) * (s.cal (0x1200 + 4 * c) 2 : Nat)) 14)

/-- The result of a conversion of the sample held at `t` (R280). -/
def State.convResult (s : State) (c t : Nat) (raw : BitVec 16) : State :=
  let s := (s.setFld (AD_CH_RES_RAW c) raw.toNat).setFld (AD_CH_RES_RES c) (ofS 16 (s.adcCal c raw))
  (s.setAdc c { s.adc c with held := none, tsConv := t, conv := 255 }).setFld (AD_CH_STAT_FRESH c) 1

/-- Whether the conversion of channel `c` is the one that its converter runs, and its 200 ns are over (R279). -/
def State.convDone (s : State) (c : Nat) : Bool :=
  match s.conversion (c / 6) with
  | some x => x.1 == c && decide (x.2 + 200 ≤ s.nowNs)
  | none => false

/-- The end of a conversion: its result, and the converter's next channel (R279, R280). -/
def State.convEnd (s : State) (c : Nat) (raw : BitVec 16) : State :=
  match s.convDone c, (s.adc c).held with
  | true, some t => (s.convResult c t raw).nextConv (c / 6) (match s.conversion (c / 6) with | some x => x.2 + 200 | none => 0)
  | _, _ => s

/-! ### The demand (R270 to R272) -/

/-- The parts of a period of `2 * h` 1/32 ticks with a compare `c`: start, end and demand after suppression. A pulse of width 0
is no part. -/
def demandParts (h c : Nat) (lo hi nx : Bool) : List (Nat × Nat × Bool) :=
  [(0, c, lo), (c, 2 * h - c, hi), (2 * h - c, 2 * h, nx)].filter (fun x => decide (x.1 < x.2.1))

/-- The demand at `t` and since when it stands: a part that continues the demand before it makes no edge. -/
def demandFold (t : Int) (x : Bool × Int) (ps : List (Nat × Nat × Bool)) : Bool × Int :=
  ps.foldl (fun (y : Bool × Int) p => if (p.1 : Int) ≤ t ∧ y.1 ≠ p.2.2 then (p.2.2, (p.1 : Int)) else y) x

/-- The demand of a pair at `t` 1/32 ticks after the last boundary, and for how long it has stood. An L pulse suppressed where the
demand begins anew leaves it 0 until it would have risen. -/
def State.demandAt (s : State) (g p t : Nat) : Bool × Nat :=
  let x := s.pwg g
  let q := x.prev.getD p (false, 0)
  let ps := demandParts (32 * s.pwPer g) (s.pwCmp g p) (x.supL.testBit p && !x.fresh.testBit p) (!x.supH.testBit p) (x.supN.testBit p)
  let r := demandFold t (q.1, -(q.2 : Int)) ps
  (r.1, ((t : Int) - r.2).toNat)

/-! ### Boundaries and peaks (R269, R273) -/

/-- The counter at the first tick at which a short time `t` that is reached was reached, by the increment in effect (R3). -/
def State.firstTick (s : State) (t : Nat) : Nat :=
  let past := (s.time.ct : Int) - s.fullTime t * 2 ^ 32
  s.time.ct - past.toNat / max 1 s.time.incr * max 1 s.time.incr

/-- The boundary that is due, in units of the counter: 5 × PER ns after the last once that is reached, or for the first the tick at
which START is reached (R269); none when none is due. -/
def State.pwDue (s : State) (g : Nat) : Option Nat :=
  let b := (s.pwg g).bnd + 5 * s.pwPer g * 2 ^ 32
  if !s.flag (PW_G_CTL_EN g) then none
  else if s.flag (PW_G_STAT_RUN g) then (if b ≤ s.time.ct then some b else none)
  else if reached (s.fld (PW_G_START_V g)) s.now then some (s.firstTick (s.fld (PW_G_START_V g)))
  else none

/-- The instant of this period's peak, in units of the counter (R269). -/
def State.pwPeakAt (s : State) (g : Nat) : Nat := (s.pwg g).bnd + 5 * s.pwPer g * 2 ^ 31

/-- Whether the peak of this period is due (R269, R273). -/
def State.pwPeakDue (s : State) (g : Nat) : Bool :=
  s.flag (PW_G_STAT_RUN g) && !(s.pwg g).peaked && decide (s.pwPeakAt g ≤ s.time.ct)

/-- What the demand before a boundary leaves behind: its level, and for how long it had stood; a switch that was on by the dead time
then in effect stays on whatever dead time takes effect (R271). -/
def State.demandLeft (s : State) (g p : Nat) : Bool × Nat :=
  let d := s.demandAt g p (64 * s.pwPer g)
  (d.1, if s.pwDt g ≤ d.2 then max 128000 d.2 else d.2)

/-- A period boundary at counter value `b`: staged values, PAIREN and a cleared trip take effect; valley triggers (R269, R272, R273,
R277, R278). The demand of a pair begins anew where its carrier, its trip's end or its PAIREN begins. -/
def State.pwBoundary (s : State) (g b : Nat) : State :=
  let x := s.pwg g
  let old := if s.flag (PW_G_STAT_RUN g) && !(x.hold && !s.flag (PW_G_STAT_TRIPPED g)) then x.pairEn else 0
  let prev := (List.range 4).map (fun p => if old.testBit p then s.demandLeft g p else (false, 0))
  let s := match x.stage with
    | some vs => s.pwTake g vs
    | none => s
  let en := s.fld (PW_G_CTL_PAIREN g)
  let s := (s.setPwg g { x with
    stage := none, pairEn := en, hold := x.hold && s.flag (PW_G_STAT_TRIPPED g), bnd := b, prev := prev, fresh := en - (en &&& old),
    supL := x.supN &&& old, supN := 0, open_ := s.role == 0 || s.role == 1, peaked := false }).setFld (PW_G_STAT_COMMITPEND g) 0
  let s := (s.setFld (PW_G_STAT_RUN g) 1).setFld (PW_G_LAST_V g) (b / 2 ^ 32 % 2 ^ 32)
  let l := s.judgePulses g (s.pwg g).fresh (fun p => s.pwCmp g p)
  let h := l.1.judgePulses g en (fun p => 2 * (32 * s.pwPer g - s.pwCmp g p))
  let s := h.1.setPwg g { h.1.pwg g with supL := (s.pwg g).supL + l.2, supH := h.2 }
  s.adcTriggers (fun t c => t.fld (AD_CH_CFG_SRC c) == 2 && t.fld (AD_CH_CFG_GRP c) == g) (b / 2 ^ 32)

/-- A peak: committed shadows staged, L pulses around the next boundary judged, peak triggers (R273). -/
def State.pwPeak (s : State) (g : Nat) : State :=
  let s := if s.flag (PW_G_CMD_COMMIT g) then (s.pwStage g).setFld (PW_G_CMD_COMMIT g) 0 else s
  let j := s.judgePulses g (s.pwg g).pairEn (fun p => s.pwCmp g p + s.pwNextCmp g p)
  let s := j.1.setPwg g { j.1.pwg g with supN := j.2, peaked := true }
  s.adcTriggers (fun t c => t.fld (AD_CH_CFG_SRC c) == 1 && t.fld (AD_CH_CFG_GRP c) == g) (s.pwPeakAt g / 2 ^ 32)

/-! ### Outputs (R268, R270, R271, R276) -/

/-- Whether a group's outputs are high impedance as a whole (R268). -/
def State.pwHiZ (s : State) (g : Nat) : Bool :=
  !s.underWay || !s.flag (PW_G_CTL_EN g) ||
  ((s.fld PR_OUTMASK_PWM).testBit g && !(decide (s.role ≤ 2) && (s.pwg g).open_))

/-- The position in the period in 1/32 ticks that an output on delay line `d` shows: the present one; on a line out of lock that of
the last fraction of this tick, whose edges leave at its start (R274). -/
def State.pwPhase (s : State) (g d : Nat) : Nat :=
  (s.time.ct + (if s.lineLost d then s.time.incr - 1 else 0) - (s.pwg g).bnd) * 64 / (5 * 2 ^ 32)

/-- The demand of a pair now as an output on delay line `d` shows it, and whether the switch of that side is on: its dead time has passed and its pulse is not
suppressed (R270 to R272). -/
def State.pwDemand (s : State) (g p d : Nat) : Bool × Bool :=
  let x := s.pwg g
  let t := s.pwPhase g d
  let d := s.demandAt g p t
  let mute := x.fresh.testBit p && x.supL.testBit p && decide (t < s.pwCmp g p)
  (d.1, !mute && decide (s.pwDt g ≤ d.2))

/-- The output of a pair's H or L switch: none is high impedance, else whether it is on. -/
def State.pwOut (s : State) (g p : Nat) (low : Bool) : Option Bool :=
  if s.pwHiZ g || !((s.pwg g).pairEn).testBit p then none
  else if s.pwInTrip g then
    match bits (s.fld (PW_G_CTL_TSTATE g)) (2 * p) 2 with
    | 0 => some false
    | 1 => some low
    | 2 => some !low
    | _ => none
  else if !s.flag (PW_G_STAT_RUN g) then some false
  else let d := s.pwDemand g p (8 * g + 2 * p + b2n low); some (d.1 != low && d.2)

/-- The level that a pair's H or L output drives: none is high impedance; POL says per pair which level is on (R268). -/
def State.pwLevel (s : State) (g p : Nat) (low : Bool) : Option Bool :=
  (s.pwOut g p low).map (fun on => on != (s.fld (PW_G_CTL_POL g)).testBit p)

/-! ### Trips (R275 to R277) -/

/-- Whether trip input `i` reaches group `g`. -/
def State.tripReaches (s : State) (i g : Nat) : Bool :=
  if i < 8 then i == g else if i = 8 then s.flag (PW_G_CTL_TG0 g) else s.flag (PW_G_CTL_TG1 g)

/-- A group's trip latched with a cause bit. -/
def State.tripGroup (s : State) (g cause : Nat) : State :=
  if s.flag (PW_G_STAT_TRIPPED g) then s.setFld (PW_G_STAT_CAUSE g) (s.fld (PW_G_STAT_CAUSE g) ||| 2 ^ cause)
  else
    (((s.setFld (PW_G_STAT_TRIPPED g) 1).setFld (PW_G_STAT_CAUSE g) (2 ^ cause)).incFld (PW_G_CNT_TRIPS g)).sticky 160 g (2 ^ cause)

/-- The cause bit of a trip input. -/
def tripCause (i : Nat) : Nat := if i < 8 then 0 else i - 7

/-- The latches of a trip input that has asserted. -/
def State.tripLatch (s : State) (i : Nat) : State :=
  (List.range 8).foldl (fun u g => if s.tripReaches i g then u.tripGroup g (tripCause i) else u) s

/-- An assertion of a trip input; one shorter than 2 ns may or may not trip (R275). -/
def State.tripIn (s : State) (i : Nat) (short : Bool) : State :=
  if short then
    let d := s.draw 1
    if d.1 = 1 then d.2.tripLatch i else d.2
  else (s.setFld PW_STAT_TRIPIN (s.fld PW_STAT_TRIPIN ||| 2 ^ i)).tripLatch i

/-- CLEAR of a trip (R277). -/
def State.pwClear (s : State) (g : Nat) : State :=
  if (List.range 10).any (fun i => (s.fld PW_STAT_TRIPIN).testBit i && s.tripReaches i g) then s.setFld (PW_G_STAT_TRIP_STILL g) 1
  else
    let was := s.flag (PW_G_STAT_TRIPPED g)
    let s := (s.setFld (PW_G_STAT_TRIPPED g) 0).setFld (PW_G_STAT_TRIP_STILL g) 0
    if was then s.setPwg g { s.pwg g with hold := true } else s

/-! ### Register writes (R269, R274, R282, R296) -/

/-- Whether the shadows, COMMIT and PAIREN of a group are closed to cores and host: owned, or driven by an axis (R282, R296). -/
def State.pwOwned (s : State) (g : Nat) : Bool := s.flag (PW_G_CTL_OWNED g)
def State.pwMicro (s : State) (g : Nat) : Bool :=
  (List.range 8).any (fun k => s.flag (ST_S_CTL_EN k) && s.flag (ST_S_CTL_MODE k) && s.fld (ST_S_CTL_MSGRP k) == g)

/-- A write to a shadow. -/
def State.pwShadow (s : State) (i : Initiator) (g a : Nat) (v : Word) : State :=
  if s.pwOwned g || s.pwMicro g then s.setFld PW_STAT_OWNED 1 else s.plainWrite i a v

/-- A write of COMMIT. -/
def State.pwCommit (s : State) (g : Nat) : State :=
  if s.pwOwned g || s.pwMicro g then s.setFld PW_STAT_OWNED 1 else s.setFld (PW_G_CMD_COMMIT g) 1

/-- A change of EN: refused while the delay lines are unlocked; the first boundary at once when START is reached (R269, R274). -/
def State.pwEnable (s : State) (g : Nat) (en : Bool) : State :=
  if en && !s.flag PW_STAT_DLLOCK then s.setFld (PW_G_STAT_NOLOCK g) 1
  else if en && !s.flag (PW_G_CTL_EN g) then
      let s := s.setFld (PW_G_CTL_EN g) 1
      if reached (s.fld (PW_G_START_V g)) s.now then (s.setFld (PW_G_STAT_LATESTART g) 1).pwBoundary g s.time.ct else s
  else if !en then
    let s := ((s.setFld (PW_G_CTL_EN g) 0).setFld (PW_G_STAT_RUN g) 0)
    s.setPwg g { s.pwg g with pairEn := 0, supH := 0, supL := 0, supN := 0 }
  else s

/-- A write of PW_Gg_CTL. -/
def State.pwCtl (s : State) (i : Initiator) (g : Nat) (v : Word) : State :=
  let oldEn := s.fld (PW_G_CTL_EN g)
  let oldPe := s.fld (PW_G_CTL_PAIREN g)
  let s := (s.plainWrite i (PW_G_CTL g) v).setFld (PW_G_CTL_EN g) oldEn
  let s := if s.pwOwned g && bits v.toNat 1 4 != oldPe then (s.setFld (PW_G_CTL_PAIREN g) oldPe).setFld PW_STAT_OWNED 1 else s
  s.pwEnable g (v.getLsbD 0)

/-- A write of PW_Gg_CMD. -/
def State.pwCmd (s : State) (g : Nat) (v : Word) : State :=
  let s := if v.getLsbD 0 then s.pwCommit g else s
  let s := if v.getLsbD 1 then s.pwClear g else s
  if v.getLsbD 2 then s.tripGroup g 3 else s

/-- A read of AD_CHc_RES: FRESH clears (R280). -/
def State.readRes (s : State) (c : Nat) : State :=
  (s.setFld (AD_CH_STAT_FRESH c) 0).answer (s.reg (AD_CH_RES c))

/-! ### Local mode (R281, R282) -/

/-- Whether engine `n` runs in local mode. -/
def State.localMode (s : State) (n : Nat) : Bool := s.nodes n == 0 && s.flag (PW_LOC_WAKE_EN n)

/-- The conversions part of the input block of engine `n` (R281). -/
def State.adcWords (s : State) (n : Nat) : List (Nat × Nat) :=
  let conv := (List.range 24).filter (fun c => ((s.adc c).conv ||| (s.adc c).took).testBit n)
  (List.range 24).map (fun c => (0x100 + 4 * c, ofS 32 (toS 16 (s.fld (AD_CH_RES_RES c)) * 256))) ++
  [(0x160, conv.foldl (fun m c => m + 2 ^ c) 0),
   (0x164, match conv with | c :: _ => (s.adc c).tsConv % 2 ^ 32 | [] => 0)]

/-- A bit of a mask cleared. -/
def without (m n : Nat) : Nat := if m.testBit n then m - 2 ^ n else m

/-- The conversions that the words taken for engine `n` have: those from now on count for its next words (R281). -/
def State.adcTaken (s : State) (n : Nat) : State :=
  (List.range 24).foldl (fun u c =>
    let x := u.adc c
    u.setAdc c { x with conv := without x.conv n, took := if x.conv.testBit n then x.took ||| 2 ^ n else x.took }) s

/-- The conversions in the words counted as delivered to engine `n`. -/
def State.adcDelivered (s : State) (n : Nat) : State :=
  (List.range 24).foldl (fun u c => let x := u.adc c; u.setAdc c { x with took := without x.took n }) s

/-- The word at 0x168. -/
def State.tripWord (s : State) : Nat :=
  (List.range 8).foldl (fun m g => m + (if s.flag (PW_G_STAT_TRIPPED g) then 2 ^ g else 0)) 0

/-- The output block of engine `n` copied into its owned groups, or LATE counted (R282). -/
def State.locGroups (s : State) (n : Nat) (inTime : Bool) : State :=
  (List.range 8).foldl (fun u g =>
    if u.flag (PW_G_CTL_OWNED g) && u.fld (PW_G_CTL_OWNENG g) == n then
      if !inTime then u.incFld (PW_G_CNT_LATE g)
      else
        let a := 0x3000 + 0x20 * g
        if (u.seWord n (a + 0x18)).testBit 0 then
          let w := fun (o : Nat) => BitVec.ofNat 32 (u.seWord n (a + o))
          let u := (u.setFld (PW_G_PER_V g) (w 0x10).toNat).setReg (PW_G_DT g) (w 0x14)
          let u := (List.range 4).foldl (fun (t : State) p => t.setFld (PW_G_CMP_V g p) (w (4 * p)).toNat) u
          u.setFld (PW_G_CMD_COMMIT g) 1
        else u
    else u) s

/-! ### The commands -/

/-- GROUP_ENABLE (R269, R273, R274): a write of PW_Gg_CTL. -/
def execGroupEnable (i : Initiator) (g : Fin 8) (v : Word) (s : State) : Out := .next (s.gated i (PW_G_CTL g) fun s => s.pwCtl i g v)
/-- PERIOD_BOUNDARY (R269). -/
def execPeriodBoundary (g : Fin 8) (s : State) : Out :=
  .next (if s.underWay then (match s.pwDue g with | some b => s.pwBoundary g b | none => s) else s)
/-- COMMIT (R273, R282). -/
def execCommit (i : Initiator) (g : Fin 8) (s : State) : Out := .next (s.gated i (PW_G_CMD g) fun s => s.pwCommit g)
/-- PW_CLEAR (R277). -/
def execPwClear (i : Initiator) (g : Fin 8) (s : State) : Out := .next (s.gated i (PW_G_CMD g) fun s => s.pwClear g)
/-- STRIP (R275). -/
def execStrip (i : Initiator) (g : Fin 8) (s : State) : Out := .next (s.gated i (PW_G_CMD g) fun s => s.tripGroup g 3)
/-- TRIP (R275). -/
def execTrip (i : Fin 10) (short : Bool) (s : State) : Out := .next (if s.underWay then s.tripIn i short else s)
/-- TRIP_RELEASE (R277). -/
def execTripRelease (i : Fin 10) (s : State) : Out :=
  .next (if s.underWay then
    (if (s.fld PW_STAT_TRIPIN).testBit i then s.setFld PW_STAT_TRIPIN (s.fld PW_STAT_TRIPIN - 2 ^ i.val) else s) else s)
/-- DLL_LOCK (R274). -/
def execDllLock (s : State) : Out :=
  .next (if s.underWay then { s with pwm := { s.pwm with lost := [] } }.setFld PW_STAT_DLLOCK 1 else s)
/-- DLL_LOST (R274). -/
def execDllLost (d : Fin 128) (s : State) : Out :=
  .next (if s.underWay then
    ({ s with pwm := { s.pwm with lost := tabSet (fun _ => false) s.pwm.lost d true } }.setFld PW_STAT_DLLOCK 0).sticky 161 d 0
  else s)
/-- ADC_HOLD (R278, R279): the rising edge of a net. -/
def execAdcHold (net : Fin 512) (s : State) : Out :=
  .next (if s.underWay then
    s.adcTriggers (fun t c => t.fld (AD_CH_CFG_SRC c) == 3 && t.fld (AD_CH_CFG_NET c) == net.val) s.nowNs else s)
/-- CONVERSION_END (R280). -/
def execConversionEnd (c : Fin 24) (raw : BitVec 16) (s : State) : Out := .next (if s.underWay then s.convEnd c raw else s)
/-- RES_READ (R280). -/
def execResRead (i : Initiator) (c : Fin 24) (s : State) : Out := .next (s.gated i (AD_CH_RES c) fun s => s.readRes c)

end Sys2Proof.Machine
end

