-- ==== Sys2Proof/Machine/Feedback.lean ====
section
/-! DEFINITION. Feedback ports: spacing filter, decoding, index, SSI, speed estimates, compare units (R284 to R294). -/

namespace Sys2Proof.Machine

/-! ### Compare units (R293, R294) -/

/-- The registers of a compare unit. -/
structure CmpFlds where
  cmp : Fld
  en : Fld
  net : Fld
  dir : Fld
  per : Fld
  ts : Fld
  fired : Fld
  behind : Fld
  deriving DecidableEq, Repr

def fbCmp (p : Nat) : CmpFlds :=
  ⟨FB_P_CMP_V p, FB_P_CMPCTL_EN p, FB_P_CMPCTL_NET p, FB_P_CMPCTL_DIRSEL p, FB_P_CMPPER_V p, FB_P_CMPTS_V p,
   FB_P_STAT_CMPFIRED p, FB_P_STAT_CMP_BEHIND p⟩

def stCmp (k : Nat) : CmpFlds :=
  ⟨ST_S_CMP_V k, ST_S_CMPCTL_EN k, ST_S_CMPCTL_NET k, ST_S_CMPCTL_DIRSEL k, ST_S_CMPPER_V k, ST_S_CMPTS_V k,
   ST_S_STAT_CMPFIRED k, ST_S_STAT_CMP_BEHIND k⟩

/-- An instant (2⁻¹⁶ ns) as a tick of the time base and the taps after it, by the increment in effect (R40, R293). -/
def State.edgeStamp (s : State) (t : Int) : Stamp :=
  let n : Int := max 1 s.time.incr
  let tick := s.time.ct - ceilDiv ((s.time.ct : Int) - t * 65536).toNat n.toNat * n.toNat
  ⟨BitVec.ofNat 32 (tick / 2 ^ 32), BitVec.ofNat 16 (tick / 2 ^ 16), Fin.ofNat 32 (((t * 65536 - tick) * 32 / n).toNat)⟩

/-- A firing at instant `t` (2⁻¹⁶ ns): 10 ns pulse, its edge on the pins of the net, CMPTS, CMPFIRED, and CMP advanced `m` times or the
unit disarmed. -/
def State.cmpFire (s : State) (u : CmpFlds) (t : Int) (m : Nat) : State :=
  let s := (s.pulseNet (s.fld u.net) 4).placeEdge (s.fld u.net) (s.edgeStamp t)
  let s := (s.setFld u.ts (ofS 32 (t / 65536))).setFld u.fired 1
  let per := toS 32 (s.fld u.per)
  if per = 0 then s.setFld u.en 0 else s.setFld u.cmp (ofS 32 ((s.fld u.cmp : Int) + m * per))

/-- How far ahead of `old` the compare position lies in the direction of a move by `d`, on the ring of 32 bits. -/
def cmpAhead (cmp : Nat) (old d : Int) : Nat := ofS 32 (if 0 < d then (cmp : Int) - old else old - cmp)

/-- The advances that pass every target of a move that the same update has passed: `k` ahead, `n` moved, `q` per advance in
the direction of the move. -/
def advances (k n : Nat) (q : Int) : Nat :=
  if 0 < q then ((n - k) / q.toNat) + 1 else if q < 0 then ((k - 1) / (-q).toNat) + 1 else 1

/-- A position update by `d` from `old`, at instant `ts k` (2⁻¹⁶ ns) for a target `k` ahead (R293). -/
def State.cmpMove (s : State) (u : CmpFlds) (old d : Int) (ts : Nat → Int) : State :=
  if d = 0 || !s.flag u.en || (s.fld u.dir == 1 && decide (d < 0)) || (s.fld u.dir == 2 && decide (0 < d)) then s
  else
    let k := cmpAhead (s.fld u.cmp) old d
    if 1 ≤ k ∧ k ≤ d.natAbs then
      let per := toS 32 (s.fld u.per)
      s.cmpFire u (ts k) (advances k d.natAbs (if 0 < d then per else -per))
    else s

/-- A write of a compare position, judged against position `pos` and the sign of the motion (R294). -/
def State.cmpWrite (s : State) (u : CmpFlds) (v : Nat) (pos : Nat) (dir : Int) : State :=
  let s := s.setFld u.cmp v
  if v = pos then (if s.flag u.en then s.cmpFire u ((s.time.ct / 2 ^ 16 : Nat) : Int) 1 else s)
  else
    let ahead := diff32 v pos
    if (0 < dir ∧ ahead < 0) ∨ (dir < 0 ∧ 0 < ahead) then s.setFld u.behind 1 else s

/-! ### Counts and speeds (R284, R291) -/

/-- The edge-interval speed in effect: limited while no change comes, and 0 after TZERO (R291). -/
def State.eisNow (s : State) (p : Nat) : Int :=
  let e := toS 32 (s.fld (FB_P_EIS_V p))
  match (s.port p).chg with
  | none => e
  | some t =>
    let dt := ((s.time.ct / 2 ^ 16 : Nat) : Int) - t
    if dt ≤ 0 then e else
    if ((s.fld (FB_P_SPD_TZERO p) * 1000 * 65536 : Nat) : Int) ≤ dt then 0 else
    let lim := 256 * 10 ^ 9 * 65536 / dt
    if lim < e then lim else if e < -lim then -lim else e

/-- An event of a port noted for every engine's next input block (R304): 0 index, 1 ILL, 2 SPF, 3 SSIERR. -/
def State.noteFb (s : State) (p bit : Nat) : State :=
  let x := s.port p
  s.setPort p { x with since := x.since ||| (0x11111111 * 2 ^ bit) }

/-- A count change by `d` at instant `t` (2⁻¹⁶ ns): count, EIS, compare unit. The speed of a first change is not stated. -/
def State.countBy (s : State) (p : Nat) (d t : Int) : State :=
  if d = 0 then s else
  let x := s.port p
  let old := toS 32 (s.fld (FB_P_POS_V p))
  let r := s.draw 32
  let e := match x.chg with
    | none => r.1.toInt
    | some c =>
      let dt := t - c
      let m : Int := if dt ≤ 0 then 2 ^ 31 else 256 * 10 ^ 9 * 65536 / dt
      satS 32 (if 0 < d then m else -m)
  let s := if x.chg.isSome then s else r.2
  let s := (s.setFld (FB_P_POS_V p) (ofS 32 (old + d))).setFld (FB_P_EIS_V p) (ofS 32 e)
  let s := s.setPort p { s.port p with chg := some t }
  s.cmpMove (fbCmp p) old d (fun _ => t)

/-- A set of the count: no movement, and the speed estimates see no change (R284). -/
def State.countSet (s : State) (p v : Nat) : State :=
  let x := s.port p
  let d := diff32 v (s.fld (FB_P_POS_V p))
  (s.setPort p { x with hist := x.hist.map (fun e => (e.1, e.2 + d)) }).setFld (FB_P_POS_V p) v

/-- The position-difference speed at tick boundary `b` (R291). -/
def State.pdsTick (s : State) (p b : Nat) : State :=
  let x := s.port p
  let win := max 1 (s.fld (FB_P_SPD_WIN p))
  let now := toS 32 (s.fld (FB_P_POS_V p))
  let past := match x.hist.find? (fun e => decide (e.1 + win * 1000 ≤ b)) with
    | some e => e.2
    | none => match x.hist.getLast? with | some e => e.2 | none => now
  let d := toS 32 (ofS 32 (now - past))
  let s := s.setFld (FB_P_PDS_V p) (ofS 32 (satS 32 ((d * 10 ^ 6 * 256).tdiv win)))
  s.setPort p { s.port p with hist := ((b, now) :: x.hist).take 1025 }

/-! ### Decoding (R286 to R288) -/

/-- An illegal transition. -/
def State.fbIllegal (s : State) (p : Nat) : State :=
  (((s.incFld (FB_P_ERRCNT_ILLCNT p)).setFld (FB_P_STAT_ILL p) 1).noteFb p 1).sticky 162 p (s.fld (FB_P_POS_V p))

/-- The place of (A, B) in the forward sequence 00, 10, 11, 01. -/
def quadIdx (a b : Bool) : Nat := match a, b with | false, false => 0 | true, false => 1 | true, true => 2 | false, true => 3

/-- The place of a Hall code in the forward sequence; 6 for 000 and 111. -/
def hallIdx (c : Nat) : Nat := [6, 0, 2, 1, 4, 5, 3, 6].getD c 6

/-- The count direction with INV. -/
def State.fbDir (s : State) (p : Nat) (d : Int) : Int := if s.flag (FB_P_CFG_INV p) then -d else d

/-- The code (U, V, W) of a port's lines. -/
def hallCode (x : FbPort) : Nat := 4 * b2n x.a.flt + 2 * b2n x.b.flt + b2n x.z.flt

/-- A qualified index edge (R287). -/
def State.fbIndex (s : State) (p : Nat) (t : Int) : State :=
  let s := (s.setFld (FB_P_IDX_V p) (s.fld (FB_P_POS_V p))).setFld (FB_P_IDXTS_V p) (ofS 32 (t / 65536))
  (s.setFld (FB_P_STAT_IDXVALID p) 1).noteFb p 0

/-- The filtered lines of a port after a sample at `t`, decoded against those before it; whether an index edge was qualified. -/
def State.decode (s : State) (p : Nat) (old new : FbPort) (t : Int) : State × Bool :=
  match s.fld (FB_P_CFG_MODE p) with
  | 1 =>
    let d := (quadIdx new.a.flt new.b.flt + 4 - quadIdx old.a.flt old.b.flt) % 4
    let s := match d with
      | 1 => s.countBy p (s.fbDir p 1) t
      | 3 => s.countBy p (s.fbDir p (-1)) t
      | 2 => s.fbIllegal p
      | _ => s
    let q := !old.z.flt && new.z.flt && (!s.flag (FB_P_CFG_ZQUAL p) || (new.a.flt && new.b.flt))
    (if q then s.fbIndex p t else s, q)
  | 2 =>
    let co := hallCode old
    let cn := hallCode new
    let s := s.setFld (FB_P_STAT_HALL p) cn
    if co = cn then (s, false) else
    let i := hallIdx co
    let j := hallIdx cn
    (if i = 6 ∨ j = 6 then s.fbIllegal p
     else if (i + 1) % 6 = j then s.countBy p (s.fbDir p 1) t
     else if (j + 1) % 6 = i then s.countBy p (s.fbDir p (-1)) t
     else s.fbIllegal p, false)
  | _ => (s, false)

/-! ### The spacing filter (R285) -/

/-- A line at a sample: accepted or ignored. The last two: accepted, ignored. -/
def FbLine.sample (l : FbLine) (lvl : Bool) (t sp : Int) : FbLine × Bool :=
  let ok := match l.last with | none => true | some x => decide (sp ≤ t - x)
  if ok then (if lvl = l.flt then ⟨lvl, l.flt, l.last⟩ else ⟨lvl, lvl, some t⟩, false)
  else (⟨lvl, l.flt, l.last⟩, lvl != l.raw)

/-- The instant at which the filter accepts a line's present level, if that level differs from the filtered one. -/
def FbLine.due (l : FbLine) (sp : Int) : Option Int :=
  if l.raw = l.flt then none else l.last.map (fun x => x + sp)

/-- The spacing in 2⁻¹⁶ ns. -/
def State.minSp (s : State) (p : Nat) : Int := (s.fld (FB_P_CFG_MINSP p) * 163840 : Nat)

/-- One sample of the three lines at `t`. -/
def State.fbSample (s : State) (p : Nat) (a b z : Bool) (t : Int) : State × Bool :=
  let x := s.port p
  let sp := s.minSp p
  let ra := x.a.sample a t sp
  let rb := x.b.sample b t sp
  let rz := x.z.sample z t sp
  let n := b2n ra.2 + b2n rb.2 + b2n rz.2
  let s := s.setPort p { x with a := ra.1, b := rb.1, z := rz.1 }
  let s := (List.range n).foldl (fun u _ => u.incFld (FB_P_ERRCNT_SPFCNT p)) s
  let s := if n = 0 then s else (s.setFld (FB_P_STAT_SPF p) 1).noteFb p 2
  s.decode p x (s.port p) t

/-- The acceptances that fall due before `t`, oldest first; whether an index was among them, with its instant. -/
def State.fbSettle (s : State) (p : Nat) (t : Int) : Nat → State × List Int
  | 0 => (s, [])
  | fuel + 1 =>
    let x := s.port p
    let sp := s.minSp p
    let ds := [x.a.due sp, x.b.due sp, x.z.due sp].filterMap id
    match (sortI ds).head? with
    | none => (s, [])
    | some d =>
      if t ≤ d then (s, [])
      else
        let r := s.fbSample p x.a.raw x.b.raw x.z.raw d
        let q := r.1.fbSettle p t fuel
        (q.1, (if r.2 then [d] else []) ++ q.2)

/-- A sample of a quadrature or Hall port, after the acceptances due before it; the instants of its qualified indexes. -/
def State.fbEdge (s : State) (p : Nat) (a b z : Bool) (t : Int) : State × List Int :=
  let r := s.fbSettle p t 3
  let q := r.1.fbSample p a b z t
  (q.1, r.2 ++ (if q.2 then [t] else []))

/-! ### SSI (R289, R290) -/

/-- A frame that is not taken. -/
def State.ssiErr (s : State) (p : Nat) : State :=
  ((s.setFld (FB_P_STAT_SSIERR p) 1).incFld (FB_P_ERRCNT_SSICNT p)).noteFb p 3

/-- A trigger: refused while a frame runs or within 25 µs of the last one's end, or with the data line low. -/
def State.ssiStart (s : State) (p : Nat) (high : Bool) (ts : Stamp) : State :=
  let x := s.port p
  let near := match x.ssiEnd with | some e => decide (s.nowNs < e + 25000) | none => false
  if x.ssiRun || near || !high then s.ssiErr p
  else (s.setPort p { x with ssiRun := true, ssiAt := s.full16 ts }).setFld (FB_P_IDXTS_V p) ts.ns.toNat

/-- Gray code of `n` bits to binary. -/
def grayBin : Nat → Nat → Nat
  | 0, _ => 0
  | n + 1, g =>
    let h := grayBin n (g / 2)
    2 * h + ((h + g) % 2)

/-- The period of the SSI clock, 200 MHz / CLKDIV, in 2⁻¹⁶ ns (R289). -/
def State.ssiPeriod (s : State) (p : Nat) : Nat := 5 * 65536 * max 20 (min 2000 (s.fld (FB_P_SSI_CLKDIV p)))

/-- The clock periods of a frame: BITS + 1, and one more for a trailing error bit (R289). -/
def State.ssiClocks (s : State) (p : Nat) : Nat := s.fld (FB_P_SSI_BITS p) + 1 + b2n (s.flag (FB_P_SSI_ERRBIT p))

/-- The time since the trigger in 2⁻¹⁶ ns. -/
def State.ssiSince (s : State) (p : Nat) : Int := ((s.time.ct / 2 ^ 16 : Nat) : Int) - (s.port p).ssiAt

/-- Whether the clock of a running frame has given all its periods. -/
def State.ssiOver (s : State) (p : Nat) : Bool := decide (((s.ssiClocks p * s.ssiPeriod p : Nat) : Int) ≤ s.ssiSince p)

/-- The level of the clock on pair Z: high when idle; a frame begins with a falling edge, each period is low, then high (R289). -/
def State.ssiClk (s : State) (p : Nat) : Option Bool :=
  if !s.underWay || s.fld (FB_P_CFG_MODE p) != 3 then none
  else some (!(s.port p).ssiRun || s.ssiOver p || decide (s.ssiPeriod p ≤ 2 * ((s.ssiSince p).toNat % s.ssiPeriod p)))

/-- The end of a frame with its value and trailing bit, once its clock has given all its periods. -/
def State.ssiTake (s : State) (p : Nat) (v : Nat) (err : Bool) : State :=
  let x := s.port p
  if !x.ssiRun || !s.ssiOver p then s else
  let s := s.setPort p { x with ssiRun := false, ssiEnd := some s.nowNs }
  if s.flag (FB_P_SSI_ERRBIT p) && err then s.ssiErr p
  else
    let n := s.fld (FB_P_SSI_BITS p)
    let raw := v % 2 ^ n
    let val := if s.flag (FB_P_SSI_GRAY p) then grayBin n raw else raw
    let s := s.setPort p { s.port p with ssiPrev := some val }
    match x.ssiPrev with
    | none => s.countSet p (val % 2 ^ 32)
    | some q => s.countBy p (toS n (ofS n ((val : Int) - q))) (s.fullTime (s.fld (FB_P_IDXTS_V p)) * 65536)

/-! ### Line faults (R284) -/

/-- Whether a pair of a port is a receiver in use. -/
def State.fbUses (s : State) (p pair : Nat) : Bool :=
  let m := s.fld (FB_P_CFG_MODE p)
  m == 1 || m == 2 || (m == 3 && pair == 0)

/-- A pair below threshold, or back above it. -/
def State.rxFault (s : State) (p pair : Nat) (bad : Bool) : State :=
  let x := s.port p
  let was := s.flag (FB_P_STAT_LINEFLT p)
  let m := if bad then x.faults ||| 2 ^ pair else if x.faults.testBit pair then x.faults - 2 ^ pair else x.faults
  let s := (s.setPort p { x with faults := m }).setFlag (FB_P_STAT_LINEFLT p) (m != 0)
  if bad && !was then s.sticky 163 p pair else s

/-! ### Pass-through (R292) and local mode (R304) -/

/-- The lines A, B, Z that FBOp repeats; none is high impedance. The filtered lines are those after the acceptances that have fallen
due; of an SSI port only line A is repeated. -/
def State.fbOut (s : State) (p : Nat) : Option (Bool × Option (Bool × Bool)) :=
  if !s.underWay || !s.flag (FB_P_CFG_PTEN p) then none
  else
    let q := s.fld (FB_P_CFG_PTSEL p)
    let x := (s.fbSettle q ((s.time.ct / 2 ^ 16 : Nat) + 1) 3).1.port q
    let r := if s.flag (FB_P_CFG_PTSRC p) then (x.a.flt, x.b.flt, x.z.flt) else (x.a.raw, x.b.raw, x.z.raw)
    some (r.1, if s.fld (FB_P_CFG_MODE q) = 3 then none else some r.2)

/-- The feedback part of the input block of engine `n`. -/
def State.fbWords (s : State) (n : Nat) : List (Nat × Nat) :=
  (List.range 8).flatMap (fun p =>
    let a := 0x200 + 0x10 * p
    [(a, s.fld (FB_P_POS_V p)), (a + 4, s.fld (FB_P_PDS_V p)), (a + 8, s.fld (FB_P_IDX_V p)),
     (a + 12, bits ((s.port p).since ||| (s.port p).took) (4 * n) 4 + 16 * b2n (s.flag (FB_P_STAT_LINEFLT p)))])

/-- The events that the words taken for engine `n` have: those from now on count for its next words. -/
def State.fbTaken (s : State) (n : Nat) : State :=
  (List.range 8).foldl (fun u p =>
    let x := u.port p
    u.setPort p { x with since := putBits x.since (4 * n) 4 0, took := x.took ||| (bits x.since (4 * n) 4 * 2 ^ (4 * n)) }) s

/-- The events in the words counted as delivered to engine `n`. -/
def State.fbDelivered (s : State) (n : Nat) : State :=
  (List.range 8).foldl (fun u p => let x := u.port p; u.setPort p { x with took := putBits x.took (4 * n) 4 0 }) s

/-- EIS becomes 0 once TZERO µs have passed without a change (R291). -/
def State.eisZero (s : State) (p : Nat) : State :=
  match (s.port p).chg with
  | none => s
  | some t =>
    if ((s.fld (FB_P_SPD_TZERO p) * 1000 * 65536 : Nat) : Int) ≤ ((s.time.ct / 2 ^ 16 : Nat) : Int) - t then s.setFld (FB_P_EIS_V p) 0
    else s

/-! ### The commands -/

/-- SSI_TRIGGER (R289, R290). -/
def execSsiTrigger (p : Fin 8) (dataHigh : Bool) (ts : Stamp) (s : State) : Out :=
  .next (if s.underWay && s.fld (FB_P_CFG_MODE p) == 3 then s.ssiStart p dataHigh (s.stampOn (s.netLine (s.fld (FB_P_SSI_NET p))) ts) else s)
/-- SSI_FRAME_END (R290). -/
def execSsiFrameEnd (p : Fin 8) (v : Word) (err : Bool) (s : State) : Out :=
  .next (if s.underWay && s.fld (FB_P_CFG_MODE p) == 3 then s.ssiTake p v.toNat err else s)
/-- LINEFLT (R284). -/
def execLineflt (p : Fin 8) (pair : Fin 3) (s : State) : Out :=
  .next (if s.underWay && s.fbUses p pair then s.rxFault p pair true else s)
/-- LINEFLT_END (R284). -/
def execLinefltEnd (p : Fin 8) (pair : Fin 3) (s : State) : Out :=
  .next (if s.underWay && s.fbUses p pair then s.rxFault p pair false else s)
/-- EIS_TZERO (R291). -/
def execEisTzero (p : Fin 8) (s : State) : Out := .next (if s.underWay then s.eisZero p else s)

end Sys2Proof.Machine
end

