-- ==== Sys2Proof/Machine/Steps.lean ====
section
/-! DEFINITION. Step axes: profiles, virtual limits, limit switches, homing, hard stops, microstepping (R295 to R304). Velocities are
computed in 1 / (256 · 10⁶) steps/s and positions in 1 / (256 · 10¹²) steps, so that one tick adds the velocity to the position. -/

namespace Sys2Proof.Machine

/-- A whole step in the position unit. -/
def stepU : Int := 256 * 10 ^ 12

/-- A UQ24.8 or Q24.8 speed in the velocity unit. -/
def velU (q : Int) : Int := q * 10 ^ 6

/-! ### Limits of the modes (R295, R296) -/

/-- The velocity limit of an axis's mode, in the velocity unit. -/
def State.stModeMax (s : State) (k : Nat) : Int :=
  if s.flag (ST_S_CTL_MODE k) then ((256 * 256 * 10 ^ 15 / (5 * s.pwPer (s.fld (ST_S_CTL_MSGRP k))) : Nat) : Int)
  else
    let w := s.fld (ST_S_STEPW_STEPW k)
    let m : Nat := 5000000 * 256 * 10 ^ 6
    if w = 0 then (m : Int) else ((min m (256 * 10 ^ 15 / (5 * w)) : Nat) : Int)

/-- VLIM in effect. -/
def State.stVlim (s : State) (k : Nat) : Int := min (velU (s.fld (ST_S_VLIM_V k))) (s.stModeMax k)

/-- DLIM in effect (R298). -/
def State.stDlim (s : State) (k : Nat) : Int := s.effFld (ST_S_DLIM_V k)
def State.stAlim (s : State) (k : Nat) : Int := s.fld (ST_S_ALIM_V k)
def State.stVss (s : State) (k : Nat) : Int := velU (s.fld (ST_S_VSS_V k))

/-- The position register as a number. -/
def State.stPos (s : State) (k : Nat) : Int := toS 32 (s.fld (ST_S_POS_V k))

/-- Whether this module moves an axis: a parallel-wired axis runs only where the module is ACTIVE or ALONE (R303). -/
def State.stRuns (s : State) (k : Nat) : Bool := !(s.fld PR_OUTMASK_STEP).testBit k || s.role == 0 || s.role == 1

/-! ### Position (R295) -/

/-- A fraction of a step after some time (2⁻¹⁶ ns) at the axis's velocity: whole steps made, and the fraction left. -/
def stAdvance (f v : Int) (dt : Nat) : Int × Int :=
  let x := f + (v * dt).tdiv 65536000
  (x.tdiv stepU, x - x.tdiv stepU * stepU)

/-- The present moment in 2⁻¹⁶ ns. -/
def State.now16 (s : State) : Nat := s.time.ct / 2 ^ 16

/-- The instant (2⁻¹⁶ ns) before which no step of a new direction is made: DSETUP × 10 ns after the change of DIR, in mode 0 (R295). -/
def State.stHeld (s : State) (k : Nat) : Nat :=
  if s.flag (ST_S_CTL_MODE k) then 0 else ((s.axis k).dirAt + 10 * s.fld (ST_S_STEPW_DSETUP k)) * 65536

/-- The instant at which the present travel of an axis began: the last tick boundary handled. -/
def State.stFrom (s : State) (k : Nat) : Nat := (s.axis k).at_ * 65536

/-- Whether the travel since the last boundary has reached its place by instant `t`. -/
def State.stLands (s : State) (k t : Nat) : Bool :=
  let a := s.axis k
  match a.goal with
  | none => false
  | some g =>
    let m := stAdvance a.f a.v (t - s.stFrom k)
    let before := (g - s.stPos k) * stepU - a.f
    let after := before - (m.1 * stepU + m.2 - a.f)
    decide (0 < a.v ∧ 0 ≤ before ∧ after ≤ 0) || decide (a.v < 0 ∧ before ≤ 0 ∧ 0 ≤ after)

/-- The steps made since the last boundary by instant `t` and the fraction left: none past the place of the travel, none before DIR has
been set up (R295, R297). -/
def State.stMoved (s : State) (k t : Nat) : Int × Int :=
  let a := s.axis k
  let m := stAdvance a.f a.v (t - s.stFrom k)
  if a.at_ = 0 ∨ !s.stRuns k then (0, a.f)
  else if s.stLands k t then ((a.goal.getD 0) - s.stPos k, 0)
  else if t < s.stHeld k then (0, m.1 * stepU + m.2)
  else m

/-- The present moment as far as this update's velocity holds: the next tick boundary at the latest. -/
def State.stNow (s : State) (k : Nat) : Nat := min s.now16 (((s.axis k).at_ + 1000) * 65536)

/-- The position at the present moment: every step that has started. -/
def State.stPosNow (s : State) (k : Nat) : Int := s.stPos k + (s.stMoved k (s.stNow k)).1

/-- The instant (2⁻¹⁶ ns) at which the step that lies `j` ahead of POS starts. -/
def State.stStepAt (s : State) (k j : Nat) : Int :=
  let a := s.axis k
  let sg : Int := if a.v < 0 then -1 else 1
  let d := ((j : Int) * stepU * sg - a.f) * 65536000
  max (s.stHeld k : Int) (s.stFrom k + (if a.v = 0 then 0 else d.tdiv a.v))

/-- The steps made by instant `t` that the compare unit has not seen: its crossings, each at its step's start (R293). -/
def State.stCrossTo (s : State) (k t : Nat) : State :=
  let a := s.axis k
  let n := (s.stMoved k t).1
  if n = a.crossed then s
  else
    let s := s.setAxis k { a with crossed := n, stepAt := some (s.stStepAt k n.natAbs) }
    s.cmpMove (stCmp k) (s.stPos k + a.crossed) (n - a.crossed) (fun j => s.stStepAt k (a.crossed.natAbs + j))

/-- Those made by the present moment. -/
def State.stCross (s : State) (k : Nat) : State := s.stCrossTo k (s.stNow k)

/-- The axes at a tick of the time base (R293, R295). -/
def State.stepTick (s : State) : State :=
  if s.underWay then (List.range 8).foldl (fun t k => t.stCross k) s else s

/-- VEL as the register shows it. -/
def State.showVel (s : State) (k : Nat) : State := s.setFld (ST_S_VEL_V k) (ofS 32 ((s.axis k).v.tdiv (10 ^ 6)))

/-! ### The profile (R297, R299) -/

/-- The speed from which the axis can still stop in `rem` under a deceleration: v² = vss² + 2 · d · rem. -/
def brakeSpeed (vss d rem : Int) : Int := (isqrt (vss * vss + 2 * d * rem).toNat : Nat)

/-- One update of the velocity toward a goal: a start at VSS, a stop from VSS, a reversal through a stop (R297). -/
def velStep (v vss acc dec goal : Int) : Int :=
  let sg : Int := if goal < 0 then -1 else 1
  let g : Int := goal.natAbs
  let m : Int := v.natAbs
  if v = 0 then (if goal = 0 then 0 else sg * (if g ≤ vss then g else if 0 < vss then vss else min g acc))
  else if goal = 0 ∨ (0 < v) ≠ (0 < goal) then
    (if m ≤ vss then 0 else (if v < 0 then -1 else 1) * max vss (m - dec))
  else if m < g then sg * min g (max (m + acc) (min g vss))
  else sg * max g (m - dec)

/-- The goal velocity of a travel to a place `rem` away, at most `vmax` fast. -/
def moveGoal (v vss dec vmax rem : Int) : Int :=
  if rem = 0 then 0
  else
    let sg : Int := if rem < 0 then -1 else 1
    if v ≠ 0 ∧ (0 < v) ≠ (0 < rem) then 0
    else sg * min vmax (max (brakeSpeed vss dec (rem.natAbs : Int)) (max 1 (max vss dec)))

/-- Whether a speed is low enough to stop from in one update. -/
def canLand (v vss dec : Int) : Bool := decide ((v.natAbs : Int) ≤ max vss dec + dec)

/-- The distance from the axis to a position. -/
def State.remTo (s : State) (k : Nat) (tgt : Int) : Int := (tgt - s.stPos k) * stepU - (s.axis k).f

/-- The end of a travel: state IDLE, or the end of homing. -/
def State.stIdle (s : State) (k : Nat) : State :=
  (s.setAxis k { s.axis k with v := 0, phase := .none, goal := none }).setFld (ST_S_STAT_STATE k) 0

/-- The virtual limit toward which a VEL runs, once the axis is HOMED (R299). -/
def State.stBound (s : State) (k : Nat) (goal : Int) : Option Int :=
  if !s.flag (ST_S_STAT_HOMED k) || goal = 0 then none
  else some (toS 32 (if 0 < goal then s.fld (ST_S_PMAX_V k) else s.fld (ST_S_PMIN_V k)))

/-- The velocity of a VEL command within VLIM. -/
def State.velAim (s : State) (k : Nat) : Int := clampI (-(s.stVlim k)) (s.stVlim k) (velU (toS 32 (s.fld (ST_S_TGT_V k))))

/-- The place at which a travel with velocity `v` ends: a MOVE's target, HPOS at the end of homing, or the virtual limit ahead (R297,
R299, R302). -/
def State.stPlace (s : State) (k : Nat) (v : Int) : Option Int :=
  match s.fld (ST_S_STAT_STATE k) with
  | 1 => some (toS 32 (s.fld (ST_S_TGT_V k)))
  | 2 => s.stBound k v
  | 4 => if (s.axis k).phase = .final then some (toS 32 (s.fld (ST_S_HPOS_V k))) else none
  | _ => none

/-- The movement of the past tick up to `b`: steps, compare unit, standstill at a place that the tick reached. -/
def State.stTravel (s : State) (k b : Nat) : State :=
  let s := if (s.axis k).at_ = 0 then s.setAxis k { s.axis k with at_ := b - 1000 } else s
  let s := s.stCrossTo k (b * 65536)
  let a := s.axis k
  let m := s.stMoved k (b * 65536)
  let v := if s.stLands k (b * 65536) then 0 else a.v
  (s.setAxis k { a with f := m.2, v := v, at_ := b, crossed := 0 }).setFld (ST_S_POS_V k) (ofS 32 (s.stPos k + m.1))

/-! ### Limit switches (R301) -/

/-- The filtered level of field input `i`. -/
def State.diLevel (s : State) (i : Nat) : Bool := (s.fld FI_DIN_V).testBit i

/-- A level that a limit field selects. -/
def State.limLevel (s : State) (en di : Fld) : Bool := s.flag en && s.diLevel (s.fld di)

/-- What a latch does to a homing axis whose search runs toward it (R302). -/
def State.homeLimit (s : State) (k : Nat) : State :=
  let a := s.axis k
  if s.fld (ST_S_CTL_HMODE k) = 2 then s.setAxis k { a with cap := some (s.stPos k), phase := .found }
  else s.setAxis k { a with phase := if s.flag (ST_S_CTL_LIMACT k) || a.rev then .abort else .turn }

/-- The direction in which an axis moves, or at standstill that in which its command is about to move it. -/
def State.stHeading (s : State) (k : Nat) : Int :=
  let a := s.axis k
  let hv := toS 32 (s.fld (ST_S_HVEL_V k))
  if a.v ≠ 0 then a.v
  else match s.fld (ST_S_STAT_STATE k) with
    | 1 => s.remTo k (toS 32 (s.fld (ST_S_TGT_V k)))
    | 2 => toS 32 (s.fld (ST_S_TGT_V k))
    | 4 => if a.phase = .search then (if a.rev then -hv else hv) else 0
    | _ => 0

/-- What a newly latched limit does: outside homing, a stop of an axis moving toward it. -/
def State.latched (s : State) (k : Nat) (pos : Bool) : State :=
  let a := s.axis k
  let toward := if pos then decide (0 < s.stHeading k) else decide (s.stHeading k < 0)
  if s.fld (ST_S_STAT_STATE k) = 4 then (if toward && a.phase == .search then s.homeLimit k else s)
  else if toward then (s.setFld (ST_S_STAT_STATE k) 3).setFld (ST_S_STAT_LIMSTOP k) 1 else s

/-- Both limit inputs at an update: latch on the first assertion, release after HREL back with the input off (R301). -/
def State.stLimits (s : State) (k : Nat) : State :=
  let a := s.axis k
  let inP := s.limLevel (ST_S_LIM_POSEN k) (ST_S_LIM_POSDI k)
  let inN := s.limLevel (ST_S_LIM_NEGEN k) (ST_S_LIM_NEGDI k)
  let p := s.stPos k
  let hrel : Int := s.fld (ST_S_HREL_V k)
  let newP := inP && !a.inP && !s.flag (ST_S_STAT_LIMLATP k)
  let newN := inN && !a.inN && !s.flag (ST_S_STAT_LIMLATN k)
  let s := if s.flag (ST_S_STAT_LIMLATP k) && !inP && decide (p ≤ a.latP - hrel) then s.setFld (ST_S_STAT_LIMLATP k) 0 else s
  let s := if s.flag (ST_S_STAT_LIMLATN k) && !inN && decide (a.latN + hrel ≤ p) then s.setFld (ST_S_STAT_LIMLATN k) 0 else s
  let s := s.setAxis k { s.axis k with inP := inP, inN := inN, latP := if newP then p else a.latP, latN := if newN then p else a.latN }
  let s := if newP then (s.setFld (ST_S_STAT_LIMLATP k) 1).latched k true else s
  if newN then (s.setFld (ST_S_STAT_LIMLATN k) 1).latched k false else s

/-- The home switch at an update (R302). -/
def State.stHomeSwitch (s : State) (k : Nat) : State :=
  let a := s.axis k
  let h := s.limLevel (ST_S_LIM_HOMEEN k) (ST_S_LIM_HOMEDI k)
  let s := s.setAxis k { a with inH := h }
  if s.fld (ST_S_STAT_STATE k) = 4 ∧ a.phase = .search ∧ h ∧ !a.inH then
    match s.fld (ST_S_CTL_HMODE k) with
    | 1 => s.setAxis k { s.axis k with seen := true }
    | 2 => s
    | _ => s.setAxis k { s.axis k with cap := some (s.stPos k), phase := .found }
  else s

/-- A qualified index of port `p` at an instant (2⁻¹⁶ ns): axes that search for it capture their position then (R302). -/
def State.stIndex (s : State) (p : Nat) (t : Int) : State :=
  (List.range 8).foldl (fun u k =>
    let a := u.axis k
    if u.fld (ST_S_STAT_STATE k) = 4 ∧ a.phase = .search ∧ a.seen ∧ u.fld (ST_S_CTL_HMODE k) = 1 ∧ u.fld (ST_S_CTL_HFBP k) = p then
      u.setAxis k { a with cap := some (u.stPos k + (u.stMoved k t.toNat).1), phase := .found }
    else u) s

/-- The acceptances of a port's filter that have fallen due by now, and what follows from them (R285). -/
def State.fbUpTo (s : State) (p : Nat) : State :=
  if s.underWay then
    let r := s.fbSettle p ((s.time.ct / 2 ^ 16 : Nat) : Int) 3
    r.2.foldl (fun u t => u.stIndex p t) r.1
  else s

/-- Those of every port. -/
def State.fbAll (s : State) : State := (List.range 8).foldl (fun (t : State) p => t.fbUpTo p) s

/-- Those of the port whose register stands at an address. -/
def State.fbFor (s : State) (a : Nat) : State :=
  if 0xB0000 ≤ a ∧ a < 0xB0200 then s.fbUpTo ((a - 0xB0000) / 0x40) else s

/-! ### Updates (R297 to R299, R302) -/

/-- The command that waits for this tick boundary starts. -/
def State.stBegin (s : State) (k : Nat) : State :=
  let a := s.axis k
  match a.pend with
  | none => s
  | some c =>
    let s := s.setAxis k { a with pend := none, phase := if c = 4 then .search else .none, rev := false, seen := false, cap := none,
                                  goal := none }
    match c with
    | 1 => s.setFld (ST_S_STAT_STATE k) 1
    | 2 => s.setFld (ST_S_STAT_STATE k) 2
    | 3 => s.setFld (ST_S_STAT_STATE k) 3
    | 4 => (s.setFld (ST_S_STAT_STATE k) 4).setFld (ST_S_STAT_HOMED k) 0
    | _ => s

/-- The velocity to which a VEL command goes now: its own, or the one from which it still stops at the limit ahead; a reversal brakes
first (R297, R299). -/
def State.velGoal (s : State) (k : Nat) : Int :=
  let a := s.axis k
  let g := s.velAim k
  if (0 < a.v ∧ g < 0) ∨ (a.v < 0 ∧ 0 < g) then g
  else match s.stBound k g with
  | none => g
  | some lim =>
    let rem := s.remTo k lim
    if rem * (if g < 0 then -1 else 1) ≤ 0 then 0 else moveGoal a.v (s.stVss k) (s.stDlim k) (g.natAbs : Int) rem

/-- Whether a VEL command stands at, or beyond, the virtual limit that it runs toward (R299). -/
def State.velEnds (s : State) (k : Nat) : Bool :=
  let g := s.velAim k
  match s.stBound k g with
  | none => false
  | some lim => decide (s.remTo k lim * (if g < 0 then -1 else 1) ≤ 0)

/-- The velocity of this update by state, the place that its travel may reach, and DIR where the direction is new (R295, R297). -/
def State.stSpeed (s : State) (k : Nat) : State :=
  let a := s.axis k
  let vss := s.stVss k
  let dec := s.stDlim k
  let hv := velU (toS 32 (s.fld (ST_S_HVEL_V k)))
  let g : Int := match s.fld (ST_S_STAT_STATE k) with
    | 1 => moveGoal a.v vss dec (s.stVlim k) (s.remTo k (toS 32 (s.fld (ST_S_TGT_V k))))
    | 2 => s.velGoal k
    | 4 => (match a.phase with
      | .search => if a.rev then -hv else hv
      | .final => moveGoal a.v vss dec (hv.natAbs : Int) (s.remTo k (toS 32 (s.fld (ST_S_HPOS_V k))))
      | _ => 0)
    | _ => 0
  let v := velStep a.v vss (s.stAlim k) dec g
  let turns := v ≠ 0 ∧ decide (0 < v) ≠ a.dir
  s.setAxis k { a with
    v := v, falling := decide (v.natAbs < a.v.natAbs)
    goal := if v ≠ 0 ∧ canLand v vss dec then s.stPlace k v else none
    dir := if turns then decide (0 < v) else a.dir
    dirAt := if turns then a.at_ else a.dirAt }

/-- What follows once the velocity is 0: the next phase of homing, or IDLE. -/
def State.stStopped (s : State) (k : Nat) : State :=
  let a := s.axis k
  if a.v ≠ 0 then s else
  match s.fld (ST_S_STAT_STATE k) with
  | 1 => if s.remTo k (toS 32 (s.fld (ST_S_TGT_V k))) = 0 then s.stIdle k else s
  | 2 => if s.velEnds k then (s.setFld (ST_S_STAT_VLIMIT k) 1).stIdle k else s
  | 3 => s.stIdle k
  | 4 => (match a.phase with
    | .turn => s.setAxis k { a with phase := .search, rev := true }
    | .abort => ((s.setFld (ST_S_STAT_HOME_LIMIT k) 1).setFld (ST_S_STAT_HOMED k) 0).stIdle k
    | .found =>
      let sh := toS 32 (s.fld (ST_S_HOFS_V k)) - a.cap.getD 0
      (s.setAxis k { a with phase := .final, latP := a.latP + sh, latN := a.latN + sh }).setFld (ST_S_POS_V k) (ofS 32 (s.stPos k + sh))
    | .final => if s.remTo k (toS 32 (s.fld (ST_S_HPOS_V k))) = 0 then (s.stIdle k).setFld (ST_S_STAT_HOMED k) 1 else s
    | _ => s)
  | _ => s

/-- A deferred DLIM applies at the first update with VEL 0; one that is not deferred at any (R298). -/
def State.stDeferred (s : State) (k : Nat) : State :=
  if (s.axis k).v = 0 then (s.setEff (ST_S_DLIM k) (s.reg (ST_S_DLIM k))).setFld (ST_S_STAT_DEFERRED k) 0
  else if s.flag (ST_S_STAT_DEFERRED k) then s
  else s.setEff (ST_S_DLIM k) (s.reg (ST_S_DLIM k))

/-- One profile update of axis `k` at tick boundary `b`. -/
def State.stTick (s : State) (k b : Nat) : State :=
  if !s.stRuns k then s.setAxis k { s.axis k with open_ := false } else
  let s := s.stTravel k b
  let s := (s.stDeferred k).stStopped k
  let s := ((s.stBegin k).stLimits k).stHomeSwitch k
  let s := (s.stSpeed k).stDeferred k
  (s.setAxis k { s.axis k with open_ := true }).showVel k

/-! ### Commands (R296, R297, R299 to R301, R304) -/

/-- A refusal with a REASON: 1 BUSY, 2 BAD_TARGET, 3 LIMIT, 4 OWNED. -/
def State.stRefuse (s : State) (k r : Nat) : State := (s.setFld (ST_S_STAT_REFUSED k) 1).setFld (ST_S_STAT_REASON k) r

/-- Whether motion in a direction runs into a latched limit. -/
def State.intoLatch (s : State) (k : Nat) (dir : Int) : Bool :=
  (decide (0 < dir) && s.flag (ST_S_STAT_LIMLATP k)) || (decide (dir < 0) && s.flag (ST_S_STAT_LIMLATN k))

/-- Whether a target lies within the virtual limits. -/
def State.inLimits (s : State) (k : Nat) (p : Int) : Bool :=
  decide (toS 32 (s.fld (ST_S_PMIN_V k)) ≤ p) && decide (p ≤ toS 32 (s.fld (ST_S_PMAX_V k)))

/-- The REASON for which a command is refused now, 0 if it is accepted. -/
def State.stJudge (s : State) (k c : Nat) : Nat :=
  let st := s.fld (ST_S_STAT_STATE k)
  let tgt := toS 32 (s.fld (ST_S_TGT_V k))
  let pos := s.stPosNow k
  let homed := s.flag (ST_S_STAT_HOMED k)
  match c with
  | 1 =>
    if st = 4 then 1
    else if homed && !s.inLimits k tgt then 2
    else if s.intoLatch k (tgt - pos) then 3 else 0
  | 2 =>
    if st = 4 then 1
    else if s.stModeMax k < (velU tgt).natAbs then 2
    else if homed && !s.inLimits k pos &&
        !((pos < toS 32 (s.fld (ST_S_PMIN_V k)) && decide (0 < tgt)) || (toS 32 (s.fld (ST_S_PMAX_V k)) < pos && decide (tgt < 0)) || tgt == 0) then 2
    else if s.intoLatch k tgt then 3 else 0
  | 4 =>
    if st ≠ 0 ∨ (s.axis k).pend.isSome then 1
    else if s.intoLatch k (toS 32 (s.fld (ST_S_HVEL_V k))) then 3 else 0
  | _ => 0

/-- A command code 1 to 4 accepted for the next tick boundary, or refused. -/
def State.stTake (s : State) (k c : Nat) : State :=
  match s.stJudge k c with
  | 0 => s.setAxis k { s.axis k with pend := some c }
  | r => s.stRefuse k r

/-- The POSLOST of a stop or a promotion (R300, R303). -/
def State.posLost (s : State) (k : Nat) : State :=
  ((s.setFld (ST_S_STAT_POSLOST k) 1).setFld (ST_S_STAT_HOMED k) 0).sticky 164 k (s.fld (ST_S_POS_V k))

/-- The width of a STEP pulse in 2⁻¹⁶ ns (R295). -/
def State.stWidth (s : State) (k : Nat) : Nat := s.fld (ST_S_STEPW_STEPW k) * 163840

/-- The start of the last step made by instant `t`. -/
def State.stLast (s : State) (k t : Nat) : Option Int :=
  let n := (s.stMoved k t).1
  if n = (s.axis k).crossed then (s.axis k).stepAt else some (s.stStepAt k n.natAbs)

/-- Whether a STEP pulse is in progress at instant `t`, also one that began before the last boundary (R295). -/
def State.pulseAt (s : State) (k t : Nat) : Bool :=
  match s.stLast k t with
  | some x => !s.flag (ST_S_CTL_MODE k) && decide (x ≤ t) && decide ((t : Int) < x + s.stWidth k)
  | none => false

/-- Whether STEP and DIR of an axis are high impedance: EN 0, mode 1, not under way, or parallel-wired and not yet left to this module
(R238, R295). -/
def State.stHiZ (s : State) (k : Nat) : Bool :=
  !s.underWay || !s.flag (ST_S_CTL_EN k) || s.flag (ST_S_CTL_MODE k) ||
  ((s.fld PR_OUTMASK_STEP).testBit k && !(s.stRuns k && (s.axis k).open_))

/-- The levels of STEP and DIR; none is high impedance. On a delay line out of lock a step edge leaves at the start of its tick (R274,
R295). -/
def State.stOut (s : State) (k : Nat) : Option (Bool × Bool) :=
  if s.stHiZ k then none
  else
    let t := min (((s.axis k).at_ + 1000) * 65536) (s.now16 + if s.lineLost (64 + k) then (s.time.incr - 1) / 65536 else 0)
    some (s.pulseAt k t != s.flag (ST_S_CTL_STEPPOL k), (s.axis k).dir != s.flag (ST_S_CTL_DIRPOL k))

/-- A hard stop: the pulse in progress ends with it (R300). -/
def State.hardStop (s : State) (k : Nat) : State :=
  if !s.stRuns k then s else
  let s := s.stCross k
  let a := s.axis k
  let cut := s.pulseAt k (s.stNow k)
  let m := s.stMoved k (s.stNow k)
  let s := (s.setAxis k { a with
    f := m.2, v := 0, pend := none, phase := .none, goal := none, crossed := 0, stepAt := none,
    at_ := if a.at_ = 0 then 0 else s.nowNs }).setFld (ST_S_POS_V k) (ofS 32 (s.stPos k + m.1))
  let s := (s.setFld (ST_S_STAT_STATE k) 0).showVel k
  if s.stVss k < a.v.natAbs then s.posLost k
  else if cut then s.setFld (ST_S_STAT_HOMED k) 0 else s

/-- A command of a core or the host: refused on an owned axis, but for HARDSTOP (R304). -/
def State.stCmd (s : State) (k c : Nat) : State :=
  if c = 5 then s.hardStop k
  else if s.flag (ST_S_CTL_OWNED k) then s.stRefuse k 4
  else if 1 ≤ c ∧ c ≤ 4 then s.stTake k c else s

/-- A write of DLIM (R298). -/
def State.dlimWrite (s : State) (k v : Nat) : State :=
  if s.flag (ST_S_CTL_OWNED k) then s.stRefuse k 4
  else
    let eff := s.effFld (ST_S_DLIM_V k)
    let s := s.setFld (ST_S_DLIM_V k) v
    if (s.axis k).falling && (s.axis k).v ≠ 0 then
      if eff < v then (s.setEff (ST_S_DLIM k) (BitVec.ofNat 32 v)).setFld (ST_S_STAT_DEFERRED k) 0
      else if v < eff then s.setFld (ST_S_STAT_DEFERRED k) 1 else s.setFld (ST_S_STAT_DEFERRED k) 0
    else s.setFld (ST_S_STAT_DEFERRED k) 0

/-- A write of TGT, VLIM, ALIM, PMIN or PMAX: ignored on an owned axis (R304). -/
def State.stValue (s : State) (i : Initiator) (k a : Nat) (v : Word) : State :=
  if s.flag (ST_S_CTL_OWNED k) then s.stRefuse k 4 else s.plainWrite i a v

/-- A write of POS: only in IDLE (the ST register table). -/
def State.stPosWrite (s : State) (k v : Nat) : State :=
  if s.fld (ST_S_STAT_STATE k) = 0 ∧ (s.axis k).pend.isNone then
    let sh := toS 32 v - s.stPos k
    (s.setAxis k { s.axis k with f := 0, latP := (s.axis k).latP + sh, latN := (s.axis k).latN + sh }).setFld (ST_S_POS_V k) v
  else s.stRefuse k 1

/-! ### Microstepping (R296) -/

/-- The amplitude of a phase in 1/65 536, `b` the second phase: the table of phase amplitudes. -/
def State.stAmp (s : State) (e : Nat) (b : Bool) : Int :=
  let k := e % 256
  let t := fun (i : Nat) => ((s.fld (ST_TAB_T i) : Nat) : Int)
  match e / 256 % 4, b with
  | 0, false => t (255 - k) | 0, true => t k
  | 1, false => -(t k) | 1, true => t (255 - k)
  | 2, false => -(t (255 - k)) | 2, true => -(t k)
  | _, false => t k | _, true => -(t (255 - k))

/-- PER × (½ + sg · s/2) in 1/32 ticks for a scaled amplitude in 2⁻³². -/
def microCmp (per : Nat) (sg amp : Int) : Nat := ((((per * 16 : Nat) : Int) * (2 ^ 32 + sg * amp)) / 2 ^ 32).toNat

/-- The compares of a microstepping axis written and staged at the peak of its group. -/
def State.micro (s : State) (k g : Nat) : State :=
  let e := ofS 32 (s.stPosNow k)
  let sc : Int := if (s.axis k).v = 0 then s.fld (ST_S_AMP_HOLDAMP k) else s.fld (ST_S_AMP_AMP k)
  let a := s.stAmp (e % 1024) false * sc
  let b := s.stAmp (e % 1024) true * sc
  let per := max 16 (s.fld (PW_G_PER_V g))
  let s := (s.setFld (PW_G_CMP_V g 0) (microCmp per (-1) a)).setFld (PW_G_CMP_V g 1) (microCmp per 1 a)
  let s := (s.setFld (PW_G_CMP_V g 2) (microCmp per (-1) b)).setFld (PW_G_CMP_V g 3) (microCmp per 1 b)
  s.setFld (PW_G_CMD_COMMIT g) 1

/-- Every microstepping axis of group `g`. -/
def State.microAll (s : State) (g : Nat) : State :=
  if s.pwOwned g then s else
  (List.range 8).foldl (fun u k =>
    if u.flag (ST_S_CTL_EN k) && u.flag (ST_S_CTL_MODE k) && u.fld (ST_S_CTL_MSGRP k) == g then u.micro k g else u) s

/-! ### Local mode (R304) -/

/-- The axis part of the input block. -/
def State.stWords (s : State) : List (Nat × Nat) :=
  (List.range 8).flatMap (fun k =>
    let a := 0x280 + 0x10 * k
    [(a, ofS 32 (s.stPosNow k)), (a + 4, s.fld (ST_S_VEL_V k)), (a + 8, (s.reg (ST_S_STAT k)).toNat)])

/-- The output block of engine `n` taken by its owned axes: command and TGT as one write. -/
def State.locAxes (s : State) (n : Nat) : State :=
  (List.range 8).foldl (fun u k =>
    let a := 0x3100 + 0x10 * k
    let w := u.seWord n a
    if u.flag (ST_S_CTL_OWNED k) && u.fld (ST_S_CTL_OWNENG k) == n && w.testBit 31 then
      let u := u.setFld (ST_S_TGT_V k) (u.seWord n (a + 4))
      let c := w % 8
      if c = 5 then u.hardStop k else if 1 ≤ c ∧ c ≤ 4 then u.stTake k c else u
    else u) s

/-! ### The commands -/

/-- The levels of a port's lines while the module is not under way: received, and nothing decoded. -/
def State.fbLevels (s : State) (p : Nat) (a b z : Bool) : State :=
  s.setPort p { s.port p with a := ⟨a, a, none⟩, b := ⟨b, b, none⟩, z := ⟨z, z, none⟩ }
/-- FEEDBACK_EDGE (R285 to R288, R292): the filter runs in every mode. -/
def execFeedbackEdge (p : Fin 8) (a b z : Bool) (ts : Stamp) (s : State) : Out :=
  .next (if s.underWay then
    let r := s.fbEdge p a b z (s.full16 (s.stampOn noLine ts))
    r.2.foldl (fun u t => u.stIndex p t) r.1
  else if s.power.furled then s else s.fbLevels p a b z)
/-- FB_POS_WRITE (R284). -/
def execFbPosWrite (i : Initiator) (p : Fin 8) (v : Word) (s : State) : Out :=
  .next (s.gated i (FB_P_POS p) fun s => (s.fbUpTo p).countSet p v.toNat)
/-- INDEX_EDGE (R285, R287): a rising edge of the filtered Z line, with the levels of A and B in the same sample, after the acceptances
that have fallen due by then. -/
def execIndexEdge (p : Fin 8) (a b : Bool) (ts : Stamp) (s : State) : Out :=
  .next (if s.underWay && s.fld (FB_P_CFG_MODE p) == 1 && (!s.flag (FB_P_CFG_ZQUAL p) || (a && b)) then
    let t := s.full16 (s.stampOn noLine ts)
    let r := s.fbSettle p (t + 1) 3
    ((r.2.foldl (fun u x => u.stIndex p x) r.1).fbIndex p t).stIndex p t
  else s)
/-- A write of an axis's compare position, judged after the steps made by now (R294). -/
def State.axisCmp (s : State) (k v : Nat) : State :=
  let s := s.stCross k
  s.cmpWrite (stCmp k) v (ofS 32 (s.stPosNow k)) (s.axis k).v
/-- COMPARE_WRITE (R294). -/
def execCompareWrite (i : Initiator) (u : CmpUnit) (v : Word) (s : State) : Out :=
  match u with
  | .fb p => .next (s.gated i (FB_P_CMP p) fun s => let s := s.fbUpTo p; s.cmpWrite (fbCmp p) v.toNat (s.fld (FB_P_POS_V p)) (s.eisNow p))
  | .st k => .next (s.gated i (ST_S_CMP k) fun s => s.axisCmp k v.toNat)
/-- CARRIER_PEAK (R273, R296): microstepping axes write and stage before the copy. -/
def execCarrierPeak (g : Fin 8) (s : State) : Out :=
  .next (if s.underWay && s.pwPeakDue g then (s.microAll g).pwPeak g else s)
/-- AXIS_MOVE (R296, R297, R299, R301). -/
def execAxisMove (i : Initiator) (k : Fin 8) (s : State) : Out := .next (s.gated i (ST_S_CMD k) fun s => s.stCmd k 1)
/-- VEL (R296, R297, R299, R301). -/
def execVel (i : Initiator) (k : Fin 8) (s : State) : Out := .next (s.gated i (ST_S_CMD k) fun s => s.stCmd k 2)
/-- AXIS_STOP (R297). -/
def execAxisStop (i : Initiator) (k : Fin 8) (s : State) : Out := .next (s.gated i (ST_S_CMD k) fun s => s.stCmd k 3)
/-- AXIS_HOME (R297, R302). -/
def execAxisHome (i : Initiator) (k : Fin 8) (s : State) : Out := .next (s.gated i (ST_S_CMD k) fun s => s.stCmd k 4)
/-- HARDSTOP (R300). -/
def execHardstop (i : Initiator) (k : Fin 8) (s : State) : Out := .next (s.gated i (ST_S_CMD k) fun s => s.stCmd k 5)
/-- STOPNET_EDGE (R300). -/
def execStopnetEdge (k : Fin 8) (s : State) : Out :=
  .next (if s.underWay && s.flag (ST_S_CTL_STOPNETEN k) then s.hardStop k else s)
/-- DLIM_WRITE (R298). -/
def execDlimWrite (i : Initiator) (k : Fin 8) (v : Word) (s : State) : Out := .next (s.gated i (ST_S_DLIM k) fun s => s.dlimWrite k v.toNat)

end Sys2Proof.Machine
end

