-- ==== Sys2Proof/Machine/Pair.lean ====
section
/-! DEFINITION. The redundant pair: heartbeats, stay link, replication, promotion, handover, resynchronisation (R220 to R243,
R303). -/

namespace Sys2Proof.Machine

/-! ### Identity and partner (R220, R222, R223) -/

/-- The first 8 bytes of the applied rig's digest (R222, R340). -/
def State.digest8 (s : State) : BitVec 64 :=
  BitVec.ofNat 64 ((s.reg (RG_DIGEST 0)).toNat + 2 ^ 32 * (s.reg (RG_DIGEST 1)).toNat)

/-- The rig digests compared: RIGDIFF, and a STANDBY with another rig than its partner becomes STALE (R222). -/
def State.compareRigs (s : State) (d : BitVec 64) : State :=
  if d = s.digest8 then s.setFld PR_STAT_RIGDIFF 0
  else
    let s := s.setFld PR_STAT_RIGDIFF 1
    if s.role = 3 then s.setFld PR_STAT_STALECAUSE 6 else s.goStale 6

/-- Whether this module takes its engines' inputs from its partner: STANDBY, or STALE after the adoption (R226, R242). -/
def State.follows (s : State) : Bool := s.role == 2 || (s.role == 3 && s.pair.adoptAt.isSome)

/-- Whether the two modules work on the agreed set (R226, R242). -/
def State.paired (s : State) : Bool :=
  s.follows || (s.role == 1 && (s.fld PR_STAT_PROLE == 2 || s.pair.adoptAt.isSome))

/-- The plan period in ns (R16). -/
def State.planPer (s : State) : Nat := max 500000 (s.fld CT_CTL_PPER * 125000)

/-! ### Heartbeats (R223, R234, R316) -/

/-- The heartbeat that the module sends now. -/
def State.myHeartbeat (s : State) : HeartbeatMsg where
  pairId := s.flag PR_CTL_PAIRID
  role := Fin.ofNat 5 s.role
  epoch := s.reg PR_EPOCH
  digest := s.digest8
  psync := s.psync
  doStates := BitVec.ofNat 16 s.doCmds

/-- The last heartbeat point. -/
def State.hbNow (s : State) : Nat := s.cycleStart 31250

/-- Whether the partner's heartbeat of point `p` has not arrived. -/
def State.hbMissing (s : State) (p : Nat) : Bool := !s.pair.hbPoints.contains p

/-- Whether the partner's heartbeats of `n` points from `p` on have not arrived. -/
def State.hbNone (s : State) (p n : Nat) : Bool := (List.range n).all (fun i => s.hbMissing (p + 31250 * i))

/-- A module halted by PR_CMD.HALT or an escalation sends no heartbeats (R379). -/
def State.hbSilent (s : State) : Bool := s.pair.muted && s.fld PR_STAT_HALTCAUSE == 1

/-- HEARTBEAT_SEND (R234, R379): the heartbeat of a point; the partner's of the point before that did not arrive is counted. -/
def execHeartbeatSend (s : State) : Out :=
  .next (if s.underWay && s.flag PR_CTL_PAIREN then
    let s := if s.hbSilent then s else { s with pair := { s.pair with hbSent := some s.myHeartbeat } }
    if s.fld PR_STAT_PROLE != 7 && s.hbMissing (s.hbNow - 31250) then s.incFld PR_CNT_HBMISS else s
  else s)

/-- What an accepted partner's heartbeat does to the role (R223). -/
def State.hbRole (s : State) (m : HeartbeatMsg) : State :=
  if s.role = 4 ∧ m.role.val ≤ 1 then s.joinStale m.epoch.toNat
  else if s.role = 0 ∧ (m.role.val = 2 ∨ m.role.val = 3) then s.setRole 1
  else s

/-- What it says of a resynchronisation in ADOPT (R242): the partner became STANDBY, or did not and COPY starts again. -/
def State.hbResync (s : State) (m : HeartbeatMsg) : State :=
  match s.role, s.pair.adoptAt with
  | 1, some p =>
    if m.role.val = 2 then { s.setFld PR_STAT_RESYNC 0 with pair := { s.pair with adoptAt := none } }
    else if p + s.planPer < s.hbNow then { s.setFld PR_STAT_RESYNC 1 with pair := { s.pair with adoptAt := none } }
    else s
  | _, _ => s

/-- A module that follows never sends a lower epoch than the highest it has received (R224). -/
def State.raiseEpoch (s : State) : State :=
  if s.role = 2 ∨ s.role = 3 then s.setFld PR_EPOCH_EPOCH (max (s.fld PR_EPOCH_EPOCH) s.pair.maxEpoch) else s

/-- A heartbeat of the partner (R220, R222, R223, R224, R316). -/
def State.heartbeat (s : State) (m : HeartbeatMsg) : State :=
  if m.pairId = s.flag PR_CTL_PAIRID then (s.goHalted 3).sticky 129 0 3
  else
    let s := s.compareRigs m.digest
    if s.flag PR_STAT_RIGDIFF then s
    else
      let act := decide (m.role.val ≤ 1)
      let s := { s with
        pair := { s.pair with
          hb := some m, hbPoint := some s.hbNow, hbPoints := (s.hbNow :: s.pair.hbPoints).take 8, maxEpoch := max s.pair.maxEpoch m.epoch.toNat,
          seenActive := s.pair.seenActive || act }
        field := { s.field with fwd := if act then m.doStates.toNat else s.field.fwd } }
      ((s.setFld PR_STAT_PROLE m.role.val).hbRole m).raiseEpoch.hbResync m

/-- HEARTBEAT (R220, R222, R223, R234). -/
def execHeartbeat (m : HeartbeatMsg) (s : State) : Out :=
  .next (if s.underWay && s.flag PR_CTL_PAIREN then s.heartbeat m else s)

/-- Whether no partner CYCLE frame has been seen since `t` (R223, R237). -/
def seenSince (x : Option Nat) (t : Nat) : Bool := match x with | some a => decide (t ≤ a) | none => false

/-- HEARTBEAT_LOSS (R223): ACTIVE becomes ALONE. -/
def execHeartbeatLoss (s : State) : Out :=
  let p := (s.nowNs - 2000) / 31250 * 31250 - 3 * 31250
  .next (if s.underWay && s.role == 1 && s.hbNone p 4 && !seenSince s.pair.frameAt p then s.setRole 0 else s)

/-! ### The stay link (R222, R373) -/

/-- STAY_LINK_UP (R222). -/
def execStayLinkUp (lane : Fin 2) (digest : BitVec 64) (s : State) : Out :=
  .next (if s.underWay && s.flag PR_CTL_PAIREN then
    ((if lane.val = 0 then s.setFld PR_STAT_SL0UP 1 else s.setFld PR_STAT_SL1UP 1)).compareRigs digest
  else s)

/-- STAY_LINK_DOWN (R373): PR_SL_DOWN while a partner is known. -/
def execStayLinkDown (lane : Fin 2) (s : State) : Out :=
  .next (if s.underWay && s.flag PR_CTL_PAIREN then
    let s := if lane.val = 0 then s.setFld PR_STAT_SL0UP 0 else s.setFld PR_STAT_SL1UP 0
    if s.fld PR_STAT_PROLE != 7 then s.sticky 131 lane.val (s.fld PR_STAT_SL0UP + s.fld PR_STAT_SL1UP) else s
  else s)

/-! ### The agreed set and the cycle message (R226 to R229, R235) -/

/-- The reply CRC of a record (R226). -/
def replyCrc (r : List Byte) : Word := crc32c 0 r

/-- The agreed set of what this module collected and the partner's mask: records, mask, one-sided replies (R226). -/
def agree (own : Tab (List Byte) × Nat) (mask : BitVec 10) (crcs : List (Nat × Word)) : Tab (List Byte) × Nat × Nat :=
  (List.range 10).foldl (fun x i =>
    let r := tabGet (fun _ => []) own.1 (i + 1)
    match own.2.testBit i, mask.getLsbD i with
    | true, true =>
      if crcs.any (fun c => c.1 == i + 1 && c.2 == replyCrc r) then
        (tabSet (fun _ => []) x.1 (i + 1) r, x.2.1 + 2 ^ i, x.2.2) else x
    | true, false | false, true => (x.1, x.2.1, x.2.2 + 1)
    | false, false => x) ([], 0, 0)

/-- The module's own mask and reply CRCs of a cycle, as it sends them to its partner: the records accepted at its end (R226). -/
def State.sendMask (s : State) (n : Nat) : State :=
  if s.flag PR_CTL_PAIREN then
    let own := s.collected n
    s.setPline n { s.pline n with own := some (BitVec.ofNat 10 own.2, own.1.map (fun e => (e.1, replyCrc e.2))) }
  else s

/-- The records used in a cycle, as the module's and the pair's rules give them (R187, R226). -/
def State.collectPair (s : State) (n : Nat) : State :=
  let own := s.collected n
  match s.paired, (s.pline n).mask with
  | true, some m =>
    let a := agree own m.1 m.2
    let s := s.setLine n { s.line n with used := a.1, rx := a.2.1 }
    (List.range a.2.2).foldl (fun (t : State) _ => t.incFld PR_CNT_ONESIDE) s
  | _, _ => s.setLine n { s.line n with used := own.1, rx := own.2 }

/-- A cycle without the partner's mask or message (R226, R228); the engine of an unused line takes no replies, and only the message
counts for it (R235). -/
def State.judgeGap (s : State) (n : Nat) : State :=
  let p := s.pline n
  let gap := (p.mask.isNone && s.nodes n != 0) || (s.follows && p.msg.isNone)
  if !s.paired then s
  else if gap then
    let s := (s.incFld PR_CNT_GAPS).setPline n { p with gaps := p.gaps + 1, crcOk := p.crcOk && !s.follows }
    if s.role = 2 ∧ 4 ≤ p.gaps + 1 then s.goStale 1 else s
  else s.setPline n { p with gaps := 0 }

/-- The active's output CRC of the cycle before judged (R229). -/
def State.judgeCrc (s : State) (n : Nat) (crc : Word) : State :=
  if crc.toNat = (s.eng n).crc then s
  else (s.setPline n { s.pline n with crcOk := false }).goStale 2

/-- PARTNER_MASK (R226). -/
def execPartnerMask (n : Fin 8) (mask : BitVec 10) (crcs : List (Nat × Word)) (s : State) : Out :=
  .next (if s.underWay && s.flag PR_CTL_PAIREN then s.setPline n { s.pline n with mask := some (mask, crcs) } else s)

/-- Whether the CRC of a message of the present cycle belongs to a cycle in which this module's engine followed the partner's: not so
in the adoption's own cycle (R229, R242). -/
def State.crcCounts (s : State) (n : Nat) : Bool :=
  s.follows && (match s.pair.adoptAt with | some p => decide (p < s.cycleStart (s.linePer n)) | none => true)

/-- CYCLE_MESSAGE (R227, R229, R235): kept until the wake point of the cycle. -/
def execCycleMessage (n : Fin 8) (m : CycleMsg) (s : State) : Out :=
  .next (if s.underWay && s.flag PR_CTL_PAIREN && (s.role == 2 || s.role == 3) then
    let s := s.setPline n { s.pline n with msg := some m }
    let s := { s with pwm := { s.pwm with
      locGot := tabSet (fun _ => none) s.pwm.locGot n (some (m.localWords.map (fun (w : Nat × Word) => (w.1, w.2.toNat)))) } }
    if s.crcCounts n then s.judgeCrc n m.outCrc else s
  else s)

/-- The message of a cycle that the ACTIVE module sends: what took effect in it, whether an APPLY did, the horizon that fell
due (R227, R229, R235). -/
def State.cycleMsg (s : State) (n : Nat) (applied : Bool) (h : Option Horizon) : CycleMsg where
  armCmd := (s.arm n).cmdNow
  jointCmds := (s.armJoints n).map (fun k => (k, (s.joint k).cmdNow, s.reg (JC_TGT k)))
  hpend := h.isSome
  haddr := BitVec.ofNat 18 (match h with | some x => x.addr | none => 0)
  tlive := match h with | some x => s.ticketOk n x.ticket | none => false
  mbank := s.effFld (JC_ARM_MBANK_V n) != 0
  apply := applied
  outCrc := BitVec.ofNat 32 (s.eng n).crc
  localWords := (tabGet (fun _ => []) s.pwm.locIn n).map (fun (w : Nat × Nat) => (w.1, BitVec.ofNat 32 w.2))

/-- The horizon that stands at an address of the engine's memory; it counts as written since its commit where the module's own
pending horizon of that address does (R62). -/
def State.horizonAt (s : State) (n a : Nat) : Horizon :=
  let w0 := s.seWord n a
  let dirty := match (s.arm n).pendHor with | some h => h.addr == a && h.dirty | none => false
  ⟨dirty, a, bits w0 0 8, bits w0 8 16, s.seWord n (a + 4), bits (s.seWord n (a + 8)) 0 10, s.seWord n (a + 12)⟩

/-- The standby applies exactly the commands, commits and applies of the cycle message (R227). -/
def State.takeMessage (s : State) (n : Nat) (m : CycleMsg) : State :=
  let s := s.setArm n { s.arm n with dueHor := none }
  let s := if m.apply then s.applyArm n else s
  let s := s.setEff (JC_ARM_MBANK n) (BitVec.ofNat 32 (putBits (s.effReg (JC_ARM_MBANK n)).toNat 0 1 (b2n m.mbank)))
  let s := m.jointCmds.foldl (fun (t : State) x => t.setReg (JC_TGT (x.1 % 64)) x.2.2) s
  let s := (s.setArm n { s.arm n with cmdNow := 0, pend := none }).takeArm n m.armCmd
  let s := m.jointCmds.foldl (fun (t : State) x =>
    let k := x.1 % 64
    let t := t.setJoint k { t.joint k with pend := none, cmdNow := 0 }
    if x.2.1 = 0 then t else t.takeJoint n k x.2.1) s
  if m.hpend then s.adoptOr n (s.horizonAt n m.haddr.toNat) m.tlive else s

/-! ### Promotion (R237, R238, R303) -/

/-- The evidence of a cycle of a RUNNING line at its wake point (R237). -/
def State.judgeEvidence (s : State) (n start : Nat) : State :=
  if s.role = 2 ∧ s.fld (TL_LSTAT_STATE n) = 4 then
    let own := s.collected n
    let noact := (List.range 10).all (fun i =>
      !own.2.testBit i || (leAt (tabGet (fun _ => []) own.1 (i + 1)) 2 1).testBit 2)
    s.setPline n { s.pline n with evidence := some (own.2 != 0 && noact && !seenSince s.pair.actFrameAt start) }
  else s

/-- A step axis taken over in the state last received (R303). -/
def State.takeAxis (s : State) (k : Nat) : State :=
  let idle := match tabGet (fun _ => none) s.pair.axisGot k with
    | some m => m.state.val == 0 && m.vel == 0 && m.axis.pend.isNone
    | none => false
  if idle then s else s.posLost k

/-- Every parallel-wired axis. -/
def State.takeAxes (s : State) : State :=
  (List.range 8).foldl (fun (t : State) k => if (t.fld PR_OUTMASK_STEP).testBit k then t.takeAxis k else t) s

/-- The checkpoint being received is discarded (R232, R238). -/
def State.dropCheckpoint (s : State) : State :=
  let s := if s.pair.ckIn.isEmpty && !s.pair.ckDue then s else s.incFld PR_CNT_MIRSKIP
  { s with pair := { s.pair with ckIn := [], ckLast := false } }

/-- Promotion (R238). -/
def State.promote (s : State) : State :=
  let s := (s.setFld PR_EPOCH_EPOCH (s.fld PR_EPOCH_EPOCH + 1)).setRole 0
  let s := (s.setFld PR_PROMTIME_V s.now).sticky 128 0 (s.fld PR_EPOCH_EPOCH)
  (s.dropCheckpoint.doPromote).takeAxes

/-- Whether the standby promotes itself at this wake point (R237). -/
def State.mayPromote (s : State) : Bool :=
  let p := (s.nowNs - 2000) / 31250 * 31250
  let runs := (List.range 8).filter (fun n => s.fld (TL_LSTAT_STATE n) == 4)
  s.role == 2 && !runs.isEmpty && runs.all (fun n => (s.pline n).evidence == some true) && s.hbNone (p - 31250) 2

/-! ### Handover (R241) -/

/-- HANDOVER (R241). -/
def execHandover (i : Initiator) (s : State) : Out :=
  .next (s.gated i PR_CMD (fun s =>
    let ok := s.role == 1 && (match s.pair.hb with | some m => m.role.val == 2 && m.psync | none => false)
    if ok then
      let h := ceilDiv (s.nowNs + 1000000) s.planPer * s.planPer
      { s.setFld PR_HOTIME_V (h % 2 ^ 32) with pair := { s.pair with hoAt := some h } }
    else s.setFld PR_STAT_HOREF 1))

/-- HANDOVER_INSTANT (R241): the roles change, the epoch is incremented. -/
def execHandoverInstant (s : State) : Out :=
  .next (if !s.underWay then s else
    match s.role, s.pair.hoAt with
    | 1, some h =>
      if h ≤ s.nowNs then
        let s := { s with pair := { s.pair with hoAt := none } }
        if s.fld PR_STAT_PROLE = 2 then (s.setFld PR_EPOCH_EPOCH (s.fld PR_EPOCH_EPOCH + 1)).setRole 2 else s
      else s
    | 2, _ =>
      if s.fld PR_STAT_PROLE = 1 then
        let s := s.doPromote
        let s := { s with field := { s.field with parWait := false } }
        ((s.setFld PR_EPOCH_EPOCH (s.fld PR_EPOCH_EPOCH + 1)).setRole 1).dropCheckpoint
      else s
    | _, _ => s)

/-! ### Commands of firmware (R223, R224, R242) -/

/-- PAIR_HALT (R223, R240). -/
def execPairHalt (i : Initiator) (s : State) : Out := .next (s.gated i PR_CMD (fun s => s.goHalted 1))

/-- UNHALT (R224): the lines stopped and restarted. -/
def execUnhalt (i : Initiator) (s : State) : Out :=
  .next (s.gated i PR_CMD (fun s =>
    if s.underWay && s.role == 4 then
      let s := { s with pair := { s.pair with muted := false, seenActive := false } }
      (List.range 8).foldl (fun (t : State) n =>
        if t.flag (TL_LCTL_RUN n) then (t.lineIdle n).lineStart n else t) s
    else s))

/-- JOIN (R242). -/
def execJoin (i : Initiator) (s : State) : Out :=
  .next (s.gated i PR_CMD (fun s => { s with pair := { s.pair with joinReq := true } }))

/-! ### The mirror region (R231, R232) -/

/-- The page of the mirror region in which an address lies. -/
def State.mirPage (s : State) (a : Nat) : Option Nat :=
  let b := (s.reg PR_MIRBASE).toNat
  if b ≤ a ∧ a < b + min 128 (s.fld PR_MIRLEN_LEN) * 65536 then some ((a - b) / 4096) else none

/-- The checkpoint of a plan cycle start on the ACTIVE module (R231, R232). -/
def State.latchCheckpoint (s : State) : State :=
  if s.role ≠ 1 then s else
  let pages := s.pair.dirty.map (fun e => e.1)
  let s := (s.setFld PR_MIRSTAT_PAGES (min 255 pages.length)).maxFld PR_MIRSTAT_MAXPAGES (min 255 pages.length)
  let s := { s with pair := { s.pair with dirty := [], unsent := if 192 < pages.length then [] else pages } }
  if 192 < pages.length then s.setFld PR_STAT_MIROVF 1 else s

/-- The pages of a checkpoint put into the region. -/
def State.putPages (s : State) : State :=
  s.pair.ckIn.foldl (fun (t : State) e => t.wrBytes ((t.reg PR_MIRBASE).toNat + 4096 * e.1) (sliceB e.2 0 4096)) s

/-- The checkpoint received by the next plan cycle start (R231, R232). -/
def State.applyCheckpoint (s : State) : State :=
  if !s.follows || !s.pair.ckDue then s
  else if s.pair.ckLast then
    let s := s.putPages
    { s with pair := { s.pair with ckIn := [], ckLast := false } }
  else s.dropCheckpoint.goStale 3

/-- Whether a module that follows awaits a checkpoint by the next plan cycle start: it does where there is a mirror region (R231). -/
def State.awaitCheckpoint (s : State) : State :=
  { s with pair := { s.pair with ckDue := s.follows && s.fld PR_MIRLEN_LEN != 0 } }

/-- CHECKPOINT_PAGE (R231): a page, and whether the checkpoint ends with it; a page outside the region stands for the end of a
checkpoint of no pages. -/
def execCheckpointPage (page : Nat) (data : List Byte) (last : Bool) (s : State) : Out :=
  .next (if s.underWay && s.follows then
    let s := { s with pair := { s.pair with ckLast := s.pair.ckLast || last } }
    if page < 16 * min 128 (s.fld PR_MIRLEN_LEN) then
      { s with pair := { s.pair with ckIn := tabSet (fun _ => []) s.pair.ckIn page (sliceB data 0 4096) } }
    else s
  else s)

/-- BACKLOG_TIMEOUT (R233). -/
def execBacklogTimeout (s : State) : Out := .next (if s.underWay then s.goStale 4 else s)

/-- A write kept until the page that it waits on has left (R231). -/
def State.stallWrite (s : State) (i : Initiator) (a : Nat) (bs : List Byte) : State :=
  { s with pair := { s.pair with stalled := s.pair.stalled ++ [⟨i, a, bs⟩] } }

/-- A host or core write to general SRAM, with what the mirror region makes of it (R231, R232): stalled on a page not yet sent or
behind a stalled write of the same initiator (R357), ignored on the standby, marked on the active. -/
def State.mirWrite (s : State) (i : Initiator) (a : Nat) (bs : List Byte) : State :=
  if s.pair.stalled.any (fun w => w.ini == i) then s.stallWrite i a bs else
  match s.mirPage a with
  | none => s.wrBytes a bs
  | some p =>
    if s.role = 2 then s.setFld PR_STAT_MIRW 1
    else if s.role = 1 then
      if s.pair.unsent.contains p then s.stallWrite i a bs
      else { s.wrBytes a bs with pair := { s.pair with dirty := tabSet (fun _ => false) s.pair.dirty p true } }
    else s.wrBytes a bs

/-- CHECKPOINT_PAGE_SENT (R231): the next page has left; the stalled writes are tried again in their order. -/
def execCheckpointPageSent (s : State) : Out :=
  .next (match s.pair.unsent with
    | [] => s
    | _ :: ps =>
      s.pair.stalled.foldl (fun (t : State) w => t.mirWrite w.ini w.addr w.data)
        { s with pair := { s.pair with unsent := ps, stalled := [] } })

/-! ### Forwarding (R227, R233) -/

/-- The joint whose shadowed register stands at an address (R71). -/
def shadowJoint (a : Nat) : Option Nat :=
  if 0x30000 ≤ a ∧ a < 0x34000 ∧ jointShadows.contains ((a - 0x30000) % 0x100) then some ((a - 0x30000) / 0x100) else none

/-- Whether an arm's shadowed register stands at an address (R71). -/
def shadowArm (a : Nat) : Bool := decide (0x34000 ≤ a ∧ a < 0x34800) && armShadows.contains ((a - 0x34000) % 0x100)

/-- The arm whose SH_ARMn_CAPSEL stands at an address (R153). -/
def shadowCap (a : Nat) : Option Nat := (List.range 8).find? (fun n => a == SH_ARM_CAPSEL n)

/-- A joint's shadow written: PEND, and for JC_DLIM that the next APPLY carries a new value (R72, R416). -/
def State.noteShadow (s : State) (k a : Nat) : State :=
  let s := s.setFld (JC_STAT_PEND k) 1
  if a = JC_DLIM k then s.setJoint k { s.joint k with dlimNew := true } else s

/-- A write of a shadowed register (R71, R153, R416). -/
def State.shadowWrite (s : State) (i : Initiator) (a : Nat) (v : Word) : State :=
  match shadowJoint a, shadowCap a with
  | some k, _ => (s.plainWrite i a v).noteShadow k a
  | _, some n => s.capsel n v
  | _, _ => s.plainWrite i a v

/-- The engine and data address of a device address in an engine's data memory (R81). -/
def seOf (a : Nat) : Option (Nat × Nat) :=
  if 0x01000000 ≤ a ∧ a < 0x01200000 ∧ 0x10000 ≤ (a - 0x01000000) % 0x40000 then
    some ((a - 0x01000000) / 0x40000, (a - 0x01000000) % 0x40000 - 0x10000) else none

/-- Whether an address lies in a replicated window of its engine (R95). -/
def State.inRepl (s : State) (a : Nat) : Bool :=
  match seOf a with
  | none => false
  | some x => (List.range 4).any (fun m =>
      decide (s.fld (SE_REPL_BASE_BASE x.1 m) ≤ x.2 ∧ x.2 < s.fld (SE_REPL_BASE_BASE x.1 m) + s.fld (SE_REPL_LEN_LEN x.1 m)))

/-- Whether a bus write is forwarded to the standby (the sources' table, R227). -/
def State.forwards (s : State) (a : Nat) : Bool :=
  s.role == 1 && ((shadowJoint a).isSome || shadowArm a || (shadowCap a).isSome || s.inRepl a)

/-- A forwardable write's own effect. -/
def State.putForward (s : State) (i : Initiator) (a : Nat) (bs : List Byte) : State :=
  match seOf a with
  | some x => (s.wrBytes a bs).touchHorizon x.1 x.2 bs.length
  | none => s.shadowWrite i a (BitVec.ofNat 32 (leNat bs))

/-- The forwarding queue replaced, with its count and largest count. -/
def State.setFwd (s : State) (q : List (Nat × List Byte)) : State :=
  ({ s with pair := { s.pair with fwd := q } }.setFld PR_BACKLOG_QUEUE q.length).maxFld PR_BACKLOG_QMAX q.length

/-- A write that needs forwarding: done and queued, or stalled while the queue is full (R233). -/
def State.fwdWrite (s : State) (i : Initiator) (a : Nat) (bs : List Byte) : State :=
  if !s.forwards a then s.putForward i a bs
  else if 256 ≤ s.pair.fwd.length || !s.pair.fwdWait.isEmpty then
    { s with pair := { s.pair with fwdWait := s.pair.fwdWait ++ [⟨i, a, bs⟩] } }
  else (s.putForward i a bs).setFwd (s.pair.fwd ++ [(a, bs)])

/-- FORWARD_QUEUE_ROOM (R233): the head has been sent; the first stalled write proceeds. -/
def execForwardQueueRoom (s : State) : Out :=
  let s := s.setFwd (s.pair.fwd.drop 1)
  .next (match s.pair.fwdWait with
    | [] => s
    | w :: ws =>
      let s := { s with pair := { s.pair with fwdWait := ws } }
      (s.putForward w.ini w.addr w.data).setFwd (s.pair.fwd ++ [(w.addr, w.data)]))

/-- FORWARDED_WRITE (R227): a word of the active's, in bus order. -/
def execForwardedWrite (addr v : Word) (s : State) : Out :=
  .next (if s.underWay && (s.role == 2 || s.role == 3) then s.putForward .host addr.toNat (leBytes 4 v.toNat) else s)

/-! ### Records of the spar array, the canvas and the shroud monitor (R170, R230) -/

/-- STAY_SPAR_RECORD (R230): entries applied without solving; a record stored at its place with its vectors. -/
def execStaySparRecord (r : SparRec) (s : State) : Out :=
  .next (if s.underWay && (s.role == 2 || s.role == 3) then
    match r with
    | .submission desc entries =>
      let w := desc.map (fun x => x.toNat)
      let j := spDesc w 0
      let es := (List.range (entries.length / 2)).map (fun k =>
        let x := (entries.getD (2 * k + 1) 0).toNat
        ((entries.getD (2 * k) 0).toNat, x % 16384, bits x 16 3))
      if entriesOk (s.spHdrAt j.slot) es then (s.spRebind j.inst j.slot).spApply j.inst es else s
    | .result inst words =>
      let ws := words.map (fun x => x.toNat)
      let s := s.wrBytes (s.spRecAt inst.val) (ws.flatMap (leBytes 4))
      let st := ws.getD 0 0 % 16
      let h := s.spHdrAt (bits (ws.getD 0 0) 16 8)
      let v := fun (o n : Nat) => (List.range n).map (fun i => toS 32 (ws.getD (16 + o + i) 0))
      if spStores st then
        let rel := (ws.getD 0 0).testBit 4
        let x := s.spInst inst.val
        (s.setSpInst inst.val { x with sol := some (v 0 h.n, v h.n h.m, v (h.n + h.m) h.m, rel) }).setFlag (SP_INST_STAT_HASSOLVE inst.val) rel
      else s
  else s)

/-- STAY_CANVAS_RECORD (R138, R147, R230). -/
def execStayCanvasRecord (r : CanvasRec) (s : State) : Out :=
  .next (if s.underWay && (s.role == 2 || s.role == 3) then
    let s' := r.voxels.foldl (fun (t : State) v => t.setVox v.1 v.2.toNat) s
    let s' := r.frees.foldl (fun (t : State) k => t.dropTicket (k % 1024)) s'
    let s' := r.grants.foldl (fun (t : State) g =>
      let t := t.putTicket (g.ticket % 1024) g.arm.val (b2n g.bricks) g.nshape g.seq.toNat (g.shape.map (fun w => w.toNat))
      { t with canvas := { t.canvas with last := some (g.ticket % 1024) } }) s'
    if r.voxels.any (fun v => s.vox v.1 != v.2.toNat) then s'.setReg CV_GEN (s'.reg CV_GEN + 1) else s'
  else s)

/-- STAY_SHROUD_OUTPUTS (R170). -/
def execStayShroudOutputs (outs : List (Fin 8 × BitVec 16 × Bool)) (apply : Option Word) (s : State) : Out :=
  .next (if s.underWay && (s.role == 2 || s.role == 3) then
    let s := { s with pair := { s.pair with shGot := some outs } }
    match apply with
    | some t => { s with shroud := { s.shroud with applyAt := some t.toNat } }
    | none => s
  else s)

/-! ### Step axes (R303) -/

/-- The complete state of an axis at the present moment, as the stay link carries it (R303). -/
def State.axisMsg (s : State) (k : Nat) : AxisMsg where
  axis := { s.axis k with f := (s.stMoved k (s.stNow k)).2, crossed := 0 }
  state := Fin.ofNat 5 (s.fld (ST_S_STAT_STATE k))
  pos := BitVec.ofInt 32 (s.stPosNow k)
  vel := s.reg (ST_S_VEL k)
  tgt := s.reg (ST_S_TGT k)
  limP := s.flag (ST_S_STAT_LIMLATP k)
  limN := s.flag (ST_S_STAT_LIMLATN k)
  homed := s.flag (ST_S_STAT_HOMED k)
  dlim := s.effReg (ST_S_DLIM k)
  deferred := s.flag (ST_S_STAT_DEFERRED k)

/-- AXIS_STATE_SEND (R303). -/
def execAxisStateSend (s : State) : Out :=
  .next (if s.underWay && s.role == 1 then
    (List.range 8).foldl (fun (t : State) k =>
      if (t.fld PR_OUTMASK_STEP).testBit k then
        { t with pair := { t.pair with axisSent := tabSet (fun _ => none) t.pair.axisSent k (some (t.axisMsg k)) } } else t) s
  else s)

/-- An axis put into the state received: it goes on from it at the first update of the module that promotes (R303). -/
def State.holdAxis (s : State) (k : Nat) (m : AxisMsg) : State :=
  let s := (((s.setFld (ST_S_STAT_STATE k) m.state.val).setFld (ST_S_POS_V k) m.pos.toNat).setReg (ST_S_VEL k) m.vel).setReg (ST_S_TGT k) m.tgt
  let s := ((s.setFlag (ST_S_STAT_LIMLATP k) m.limP).setFlag (ST_S_STAT_LIMLATN k) m.limN).setFlag (ST_S_STAT_HOMED k) m.homed
  let s := (s.setFlag (ST_S_STAT_DEFERRED k) m.deferred).setEff (ST_S_DLIM k) m.dlim
  s.setAxis k { m.axis with at_ := 0, goal := none, crossed := 0, stepAt := none, open_ := false }

/-- STAY_AXIS_STATE (R303): the axis holds the state last received. -/
def execStayAxisState (k : Fin 8) (m : AxisMsg) (s : State) : Out :=
  .next (if s.underWay && (s.role == 2 || s.role == 3) && (s.fld PR_OUTMASK_STEP).testBit k.val then
    let s := { s with pair := { s.pair with axisGot := tabSet (fun _ => none) s.pair.axisGot k.val (some m) } }
    s.holdAxis k m
  else s)

/-! ### Resynchronisation (R242, R243) -/

/-- Whether a byte lies in the state that COPY sends: the data memories of the engines, the canvas map, the spar array's instance
and result areas, the mirror region (R242). -/
def State.copied (s : State) (a : Nat) : Bool :=
  (seOf a).isSome || decide (0x04000000 ≤ a ∧ a < 0x06000000) ||
  decide (s.fld SP_INSTBASE_INSTBASE ≤ a ∧ a < s.fld SP_INSTBASE_INSTBASE + 0x800000) ||
  decide (s.fld SP_RESBASE_RESBASE ≤ a ∧ a < s.fld SP_RESBASE_RESBASE + 0x80000) || (s.mirPage a).isSome

/-- Whether a register is among those that COPY sends: the JC and SH shadow registers and the tickets (R242). -/
def State.copiedReg (a : Nat) : Bool :=
  (shadowJoint a).isSome || shadowArm a || (shadowCap a).isSome ||
  decide (CV_TKT_STAT 0 ≤ a ∧ a < CV_TKT_STAT 0 + 4096)

/-- Whether a 64-byte granule holds a byte or a register of that state. -/
def State.copiedGranule (s : State) (g : Nat) : Bool :=
  (List.range 16).any (fun j => s.copied (64 * g + 4 * j) || State.copiedReg (64 * g + 4 * j))

/-- The 64-byte granules of that state that hold other values than the last pass took (R242). -/
def State.granules (s : State) : List Nat :=
  let m := (s.mem.map (fun e => e.1) ++ s.pair.copyMem.map (fun e => e.1)).filter (fun a =>
    s.copied a && s.rdB a != tabGet memDefault s.pair.copyMem a)
  let r := (s.regs.map (fun e => e.1) ++ s.pair.copyRegs.map (fun e => e.1)).filter (fun a =>
    State.copiedReg a && s.reg a != tabGet resetWord s.pair.copyRegs a)
  (m ++ r).foldl (fun gs a => insNat (a / 64) gs) []

/-- The granules written since the last pass took the state: those that changed, and of `same`, written with the values that they
held, those that belong to it (R242). -/
def State.written (s : State) (same : List Nat) : List Nat :=
  (same.filter s.copiedGranule).foldl (fun gs g => insNat g gs) s.granules

/-- A pass of a resynchronisation begun: its size is that of the granules written since the one before, and the state is taken anew
(R242). -/
def State.beginPass (s : State) (same : List Nat) : State :=
  { s with pair := { s.pair with passBytes := 64 * (s.written same).length, copyMem := s.mem, copyRegs := s.regs } }

/-- RESYNC_START (R242): the lines RUNNING at both modules. -/
def execResyncStart (s : State) : Out :=
  let stale := match s.pair.hb with | some m => m.role.val == 3 && m.psync | none => false
  let lines := (List.range 8).all (fun n => s.nodes n == 0 || (s.fld (TL_LSTAT_STATE n) == 4 && s.partnerRuns n))
  .next (if s.underWay && s.role == 1 && s.fld PR_STAT_RESYNC == 0 && stale && lines &&
      (s.flag PR_CTL_AUTOJOIN || s.pair.joinReq) then
    { s.setFld PR_STAT_RESYNC 1 with pair := { s.pair with joinReq := false, copyMem := s.mem, copyRegs := s.regs } }
  else s)

/-- RESYNC_PASS_END (R242): after COPY a DIRTY pass; after one of at most 64 KiB, ADOPT. `same` names the granules that were written
with the values that they held. -/
def execResyncPassEnd (same : List Nat) (s : State) : Out :=
  .next (if s.underWay && s.role == 1 then
    match s.fld PR_STAT_RESYNC with
    | 1 => (s.beginPass same).setFld PR_STAT_RESYNC 2
    | 2 => if s.pair.passBytes ≤ 65536 then s.setFld PR_STAT_RESYNC 3 else s.beginPass same
    | _ => s
  else s)

/-- A plan cycle start at which every arm engine's background is idle: the adoption of ADOPT (R242). -/
def State.resyncPlan (s : State) (p : Nat) : State :=
  let idle := (List.range 8).all (fun n => (s.armJoints n).isEmpty || !(s.eng n).bgBusy)
  if s.role = 1 ∧ s.fld PR_STAT_RESYNC = 3 ∧ s.pair.adoptAt.isNone ∧ idle then
    { s with pair := { s.pair with adoptAt := some p } }
  else if s.role = 3 then
    match s.pair.adoptAt with
    | some q =>
      if q < p then
        let ok := (List.range 8).all (fun n => (s.pline n).crcOk)
        let s := { s.setFld PR_STAT_RESYNC (if ok then 0 else 1) with pair := { s.pair with adoptAt := none } }
        if ok then s.setRole 2 else s
      else s
    | none => s
  else s

/-- A byte of the copied state put in its place: a register of the JC or SH block, with its value in effect, or memory. -/
def State.putGranule (s : State) (a : Nat) (b : Byte) : State :=
  if a < 0x100000 then
    let w := a / 4 * 4
    let put := fun (x : Word) => BitVec.ofNat 32 (putBits x.toNat (8 * (a % 4)) 8 b.toNat)
    (s.setReg w (put (s.reg w))).setEff w (put (s.effReg w))
  else s.wrBytes a [b]

/-- A register of a context put in its place (R242). -/
def State.putSeReg (s : State) (r : SeReg) : State :=
  let x := s.eng r.engine.val
  let set := fun (c : SeRegs) => selPut c r.sel.toNat r.value true
  s.setEng r.engine.val (match r.ctx with | .fg => { x with fg := set x.fg } | .bg => { x with bg := set x.bg })

/-- RESYNC_GRANULES (R242): data installed on the STALE module; with `adopt`, the adoption. -/
def execResyncGranules (adopt : Bool) (data : List (Nat × Byte)) (sets : List SeReg) (s : State) : Out :=
  .next (if s.underWay && s.role == 3 && !s.flag PR_STAT_RIGDIFF then
    let s := data.foldl (fun (t : State) d => t.putGranule d.1 d.2) s
    if adopt then
      let s := sets.foldl (fun (t : State) r => t.putSeReg r) s
      let s := (List.range 8).foldl (fun (t : State) n => t.setPline n { t.pline n with crcOk := true, gaps := 0, evidence := none }) s
      { s.setFld PR_STAT_RESYNC 3 with pair := { s.pair with adoptAt := some (s.cycleStart s.planPer), ckIn := [], ckLast := false, ckDue := s.fld PR_MIRLEN_LEN != 0 } }
    else s.setFld PR_STAT_RESYNC 1
  else s)

end Sys2Proof.Machine
end

