-- ==== Sys2Proof/Machine/Cycle.lean ====
section
/-! DEFINITION. The boundaries of the rates: cycle starts of lines, shroud and plan, halyard ticks, wake and latch points (R15 to R25,
R60, R61, R65, R71, R74, R91, R92, R177, R214, R216, R226 to R231, R281, R282). -/

namespace Sys2Proof.Machine

/-! ### The shroud and plan cycle starts (R21, R22, R24) -/

/-- The shroud cycle start in which cell time lies, taken once. -/
def State.shroudStart (s : State) : State :=
  let b := s.cycleStart s.shPeriod
  if s.shroud.cycAt = some b then s else s.shCycle b

/-- SHROUD_CYCLE_START (R21). -/
def execShroudCycleStart (s : State) : Out := .next (if s.underWay then s.shroudStart else s)

/-- A plan cycle start at `p`: the snapshot of the joint states, net 0, checkpoints, resynchronisation (R22, R231, R242). -/
def State.planCycle (s : State) (p : Nat) : State :=
  let recs := (List.range 8).map (fun n => (n, s.cycleRecs n p))
  let s := { s with shroud := { s.shroud with planAt := some p, planRecs := recs } }
  ((((s.pulseNet 0 1).applyCheckpoint).latchCheckpoint).resyncPlan p).awaitCheckpoint

/-- PLAN_CYCLE_START (R22). -/
def execPlanCycleStart (s : State) : Out :=
  let p := s.cycleStart s.planPer
  .next (if s.underWay && s.shroud.planAt != some p then s.planCycle p else s)

/-! ### The end of a cycle -/

/-- VERIFY's count of cycles in which every node was in window (R214, R217). -/
def State.verifyCycle (s : State) (n : Nat) : State :=
  let l := s.line n
  if s.fld (TL_LSTAT_STATE n) = 2 ∧ s.fld (TL_TSTAT_PHASE n) = 3 ∧ !l.runNext ∧ l.sentCyc then
    let k := if s.allIn n then l.streak + 1 else 0
    let s := s.setLine n { l with streak := k, verN := l.verN + 1 }
    if 16 ≤ k then s.verifyDone n else s
  else s

/-- The joiner's means over its first 16 RUNNING cycles, those at its own end, which it sends to its partner (R216). -/
def State.joinMeans (s : State) (n : Nat) : State :=
  let l := s.line n
  let b := !s.drives n false
  let s := l.joinSum.foldl (fun (t : State) e =>
    let m := if e.2.2 = 0 then 0 else (e.2.1 / ((e.2.2 * 2 ^ 14 : Nat) : Int)).toNat % 65536
    let l := t.line n
    let t := t.setLine n (if b then { l with dB := tabSet (fun _ => 0) l.dB e.1 m } else { l with dA := tabSet (fun _ => 0) l.dA e.1 m })
    t.setFld (TL_NODE_DLY_DLY n (e.1 - 1)) m) s
  let l := s.line n
  s.setLine n { l with
    joinSum := [], joinSent := l.joinSum.map (fun e => (e.1, tabGet (fun _ => 0) (if b then l.dB else l.dA) e.1)) }

/-- The joiner's count of its first 16 RUNNING cycles (R216). -/
def State.joinCount (s : State) (n : Nat) : State :=
  let l := s.line n
  if l.joinLeft = 0 then s
  else
    let s := s.setLine n { l with joinLeft := l.joinLeft - 1 }
    if l.joinLeft = 1 then s.joinMeans n else s

/-- What the cycle before leaves: BREAK, VERIFY's count, the pair measurement, the collection and a joiner's means (R187, R205, R207,
R209, R214, R216). -/
def State.endCycle (s : State) (n : Nat) : State :=
  let s := if s.fld (TL_LSTAT_STATE n) = 4 then s.judgeBreak n else s
  let s := (s.verifyCycle n).sendMeasure n
  let s := if s.replying n then s.endCollection n else s
  if s.fld (TL_LSTAT_STATE n) = 4 then s.joinCount n else s

/-! ### Line states at a cycle start (R211, R214, R216, R223) -/

/-- A line that enters RUNNING (R214, R216); a module that cold-started it leaves HALTED (R223). -/
def State.enterRunning (s : State) (n : Nat) : State :=
  let integ := s.fld (TL_LSTAT_STATE n) == 3
  let s := (s.setFld (TL_LSTAT_STATE n) 4).setFld (TL_TSTAT_PHASE n) 0
  let l := s.line n
  let s := s.setLine n { l with runNext := false, joinLeft := if integ then 16 else 0, joinSum := [] }
  if l.cold && s.role == 4 && !s.pair.muted && !s.pair.seenActive then (s.setFld PR_EPOCH_EPOCH 1).setRole 0 else s

/-- IDLE and RUNNING where they fall due at this cycle start. -/
def State.lineChange (s : State) (n : Nat) : State :=
  let l := s.line n
  if l.stopReq then s.lineIdle n
  else if l.runNext && (s.fld (TL_LSTAT_STATE n) == 2 || s.fld (TL_LSTAT_STATE n) == 3) then s.enterRunning n
  else s

/-! ### Commands, commits and applies (R60, R61, R63, R71) -/

/-- What takes effect at a cycle start by the module's own registers: the APPLY, the commands, the horizon that falls due;
whether there was an APPLY, and the horizon. -/
def State.takeOwn (s : State) (n start : Nat) : State × Bool × Option Horizon :=
  let ap := s.applyDue n start
  let s := s.setArm n { s.arm n with dueHor := none }
  let s := if ap then s.applyArm n else s
  let s := s.takeCommands n
  let h := s.dueHorizon n start
  (match h with | some x => s.adoptOr n x (s.ticketOk n x.ticket) | none => s, ap, h)

/-- The same, with the cycle message that the ACTIVE module sends (R227). -/
def State.takeCycle (s : State) (n start : Nat) : State :=
  let r := s.takeOwn n start
  let s := r.1
  if s.role = 1 then
    let live := match r.2.2 with | some x => s.ticketOk n x.ticket | none => false
    s.setPline n { s.pline n with sent := some { s.cycleMsg n r.2.1 r.2.2 with tlive := live } }
  else s

/-- SCALE and PSTOP of the arm from the shroud outputs in effect (R65). -/
def State.latchScale (s : State) (n : Nat) : State :=
  let sc := s.fld (SH_ARM_OUT_SCALE n)
  let ps := (s.reg (SH_ARM_OUT n)).getLsbD 16
  let s := s.setArm n { s.arm n with scale := sc, pstop := ps }
  (s.setFld (JC_ARM_SCALE_V n) sc).setFlag (JC_ARM_STAT_PSTOP n) ps

/-- A foreground that still runs at the cycle start: its wake is skipped (R74, R91, R229). -/
def State.judgeOver (s : State) (n : Nat) : State :=
  let runs := s.fgRuns n
  let s := s.setEng n { s.eng n with skipped := runs }
  if runs then (s.incFld (JC_ARM_CNT_OVER n)).goStale 2 else s

/-! ### Frames (R176, R177, R213, R214, R216) -/

/-- The frames of a cycle start; those of ADDR and CONFIG leave at cold cycle starts (R213). -/
def State.sendCycle (s : State) (n start : Nat) : State :=
  let cold := s.fld (TL_LSTAT_STATE n) == 2 && s.fld (TL_TSTAT_PHASE n) != 3
  let l := s.line n
  let s := s.setLine n { l with
    sentCyc := false, frameA := if cold then l.frameA else [], frameB := if cold then l.frameB else [] }
  if s.pair.muted then s
  else match s.fld (TL_LSTAT_STATE n) with
  | 4 =>
    if s.role = 4 then s
    else
      let s := (s.sendEnds n (s.flag (TL_LCTL_MODE n)) (fun b => s.cycleFrame n start b)).noteTorque n
      s.setLine n { s.line n with sentCyc := true }
  | 3 => s.sendEnds n false (fun b => s.coldFrame n start 4 b)
  | 2 =>
    if s.fld (TL_TSTAT_PHASE n) = 3 then
      let s := s.sendEnds n false (fun b => s.coldFrame n start 3 b)
      s.setLine n { s.line n with sentCyc := true }
    else s
  | _ => s

/-- What a new cycle begins with. -/
def State.freshCycle (s : State) (n start : Nat) : State :=
  let l := s.line n
  let s := s.setLine n { l with
    cycAt := start, seenCyc := true, farA := false, farB := false, wakeDone := false, latched := false,
    mb := l.mb.map (fun x => { x with sentNow := false }) }
  let s := s.setEng n { s.eng n with cycNum := start / s.linePer n }
  s.setPline n { s.pline n with mask := none, own := none, msg := none }

/-- The input-block words of an engine in local mode, taken at the cycle start (R281, R304). -/
def State.localTake (s : State) (n : Nat) : State :=
  if s.localMode n then
    let s := s.fbAll
    ({ s with pwm := { s.pwm with
      locIn := tabSet (fun _ => []) s.pwm.locIn n (s.adcWords n ++ s.fbWords n ++ s.stWords),
      locGot := tabSet (fun _ => none) s.pwm.locGot n none } }.adcTaken n).fbTaken n
  else s

/-- A cycle of line `n` that starts at `start` (R15, R24). -/
def State.servoCycle (s : State) (n start : Nat) : State :=
  let s := if start % s.shPeriod = 0 then s.shroudStart else s
  let s := ((s.endCycle n).lineChange n).freshCycle n start
  let s := (s.latchScale n).judgeOver n
  let s := s.localTake n
  let s := if s.follows then s else s.takeCycle n start
  let s := s.sendCycle n start
  s.pulseNet (2 + n) 1

/-! ### The wake point (R91, R226 to R228, R235, R237, R281) -/

/-- The input block of an engine in local mode, and the wake: the words of the cycle start, on a following module those of the
active (R235, R281, R304). -/
def State.wakeLocal (s : State) (n start : Nat) : State :=
  let ws := match s.follows, tabGet (fun _ => none) s.pwm.locGot n with
    | true, some w => w
    | _, _ => tabGet (fun _ => []) s.pwm.locIn n
  let s := s.writeHeader n start
  let s := (ws ++ [(0x168, s.tripWord)]).foldl (fun (t : State) w => if w.1 < 0x400 then t.seDataPut n w.1 w.2 else t) s
  ((s.adcDelivered n).fbDelivered n).wakeIfAble n

/-- The input block and the parameter area written, and the engine of line `n` woken where it can run; nothing while its foreground
runs or ran at the cycle start (R91). -/
def State.wakeLine (s : State) (n start : Nat) : State :=
  if (s.eng n).skipped || s.fgRuns n then s
  else if s.localMode n then s.wakeLocal n start
  else if s.nodes n = 0 then s
  else s.wakeArm n start

/-- The commands of the cycle on a module that follows its partner (R227, R228). -/
def State.followCycle (s : State) (n start : Nat) : State :=
  if !s.follows then s
  else match (s.pline n).mask.isSome || s.nodes n == 0, (s.pline n).msg with
  | true, some m => s.takeMessage n m
  | _, _ => (s.takeOwn n start).1

/-- The records of the cycle: the agreed set, in a gap the module's own (R226, R228). -/
def State.collectCycle (s : State) (n : Nat) : State :=
  if s.follows && (s.pline n).msg.isNone then
    let own := s.collected n
    s.setLine n { s.line n with used := own.1, rx := own.2 }
  else s.collectPair n

/-- The wake point of a cycle of line `n`. -/
def State.wakePoint (s : State) (n start : Nat) : State :=
  let s := s.judgeEvidence n start
  let s := (s.sendMask n).collectCycle n
  let s := if s.replying n && !s.localMode n then s.countReplies n else s
  let s := s.setLine n { s.line n with wakeDone := true }
  let s := s.followCycle n start
  let s := if s.mayPromote then s.promote else s.judgeGap n
  s.wakeLine n start

/-- ENGINE_WAKE (R91). -/
def execEngineWake (n : Fin 8) (s : State) : Out :=
  let l := s.line n.val
  .next (if s.underWay && l.seenCyc && !l.wakeDone then s.wakePoint n.val l.cycAt else s)

/-! ### The latch point (R18, R74, R92, R229, R282) -/

/-- The latch point of an engine in local mode (R92, R97, R282, R304). -/
def State.latchLocal (s : State) (n latch : Nat) : State :=
  let ok := s.inTime n latch
  let s := s.locGroups n ok
  let s := if ok then s.locAxes n else s
  let x := s.eng n
  let s := s.noteSlack n latch
  (s.setEng n { x with woken := false }).setFlag (SE_STAT_BGDONE n) x.bgEnded

/-- The latch point of an arm engine: a line that sends no CYCLE frame at the next cycle start counts no stale one (R74); the records
of a later one are then repeated ones (R18). -/
def State.latchArm (s : State) (n latch : Nat) : State :=
  if s.inTime n latch || s.fld (TL_LSTAT_STATE n) == 4 || (s.line n).runNext then s.latchOutputs n latch
  else
    let x := s.eng n
    let s := (s.setLine n { s.line n with stale := true }).noteSlack n latch
    (s.setEng n { x with woken := false }).setFlag (SE_STAT_BGDONE n) x.bgEnded

/-- The CRC of the output block as the engine left it (R229). -/
def State.noteCrc (s : State) (n : Nat) : State := s.setEng n { s.eng n with crc := (crc32c 0 (s.outputBytes n)).toNat }

/-- The latch point of a cycle of line `n`. -/
def State.latchPoint (s : State) (n start : Nat) : State :=
  let s := s.setLine n { s.line n with latched := true }
  if s.localMode n then (s.latchLocal n (start + s.fld (PW_LOC_LATCH_LATCH n))).noteCrc n
  else if s.nodes n = 0 then s
  else
    let latch := start + s.fld (TL_LATCH_V n)
    let ok := s.inTime n latch
    let s := s.latchArm n latch
    let s := s.noteCrc n
    s.copyPose n (start + s.linePer n) ok

/-- COMMAND_LATCH_POINT (R18). -/
def execCommandLatchPoint (n : Fin 8) (s : State) : Out :=
  let l := s.line n.val
  .next (if s.underWay && l.seenCyc && !l.latched then s.latchPoint n.val l.cycAt else s)

end Sys2Proof.Machine
end

