-- ==== Sys2Proof/Machine/Crypto.lean ====
section
/-! DEFINITION. SHA-256, and the verification of ECDSA over the curve P-256 (R339, R340; FIPS 180-4 and FIPS 186-4, which R340 names). -/

namespace Sys2Proof.Machine

/-! ### SHA-256 -/

/-- The round constants. -/
def shaK : List Nat :=
  [0x428A2F98, 0x71374491, 0xB5C0FBCF, 0xE9B5DBA5, 0x3956C25B, 0x59F111F1, 0x923F82A4, 0xAB1C5ED5,
   0xD807AA98, 0x12835B01, 0x243185BE, 0x550C7DC3, 0x72BE5D74, 0x80DEB1FE, 0x9BDC06A7, 0xC19BF174,
   0xE49B69C1, 0xEFBE4786, 0x0FC19DC6, 0x240CA1CC, 0x2DE92C6F, 0x4A7484AA, 0x5CB0A9DC, 0x76F988DA,
   0x983E5152, 0xA831C66D, 0xB00327C8, 0xBF597FC7, 0xC6E00BF3, 0xD5A79147, 0x06CA6351, 0x14292967] ++
  [0x27B70A85, 0x2E1B2138, 0x4D2C6DFC, 0x53380D13, 0x650A7354, 0x766A0ABB, 0x81C2C92E, 0x92722C85,
   0xA2BFE8A1, 0xA81A664B, 0xC24B8B70, 0xC76C51A3, 0xD192E819, 0xD6990624, 0xF40E3585, 0x106AA070,
   0x19A4C116, 0x1E376C08, 0x2748774C, 0x34B0BCB5, 0x391C0CB3, 0x4ED8AA4A, 0x5B9CCA4F, 0x682E6FF3,
   0x748F82EE, 0x78A5636F, 0x84C87814, 0x8CC70208, 0x90BEFFFA, 0xA4506CEB, 0xBEF9A3F7, 0xC67178F2]

/-- The initial hash value. -/
def shaH : List (BitVec 32) :=
  [0x6A09E667, 0xBB67AE85, 0x3C6EF372, 0xA54FF53A, 0x510E527F, 0x9B05688C, 0x1F83D9AB, 0x5BE0CD19].map (BitVec.ofNat 32)

/-- The message padded to whole blocks of 64 bytes. -/
def shaPad (m : List Byte) : List Byte :=
  m ++ [0x80#8] ++ List.replicate ((119 - m.length % 64) % 64) 0 ++ beBytes 8 (8 * m.length)

/-- The next word of a block's schedule, from the words so far, the newest first. -/
def shaNext (w : List (BitVec 32)) : BitVec 32 :=
  let x := w.getD 14 0
  let y := w.getD 1 0
  w.getD 15 0 + (x.rotateRight 7 ^^^ x.rotateRight 18 ^^^ (x >>> 3)) + w.getD 6 0 +
    (y.rotateRight 17 ^^^ y.rotateRight 19 ^^^ (y >>> 10))

/-- A block's schedule extended by `n` words, the newest first. -/
def shaExtend : Nat → List (BitVec 32) → List (BitVec 32)
  | 0, w => w
  | n + 1, w => shaExtend n (shaNext w :: w)

/-- One round on the eight working variables. -/
def shaRound (v : List (BitVec 32)) (k : Nat) (w : BitVec 32) : List (BitVec 32) :=
  match v with
  | [a, b, c, d, e, f, g, h] =>
    let t1 := h + (e.rotateRight 6 ^^^ e.rotateRight 11 ^^^ e.rotateRight 25) + ((e &&& f) ^^^ (~~~e &&& g)) + BitVec.ofNat 32 k + w
    let t2 := (a.rotateRight 2 ^^^ a.rotateRight 13 ^^^ a.rotateRight 22) + ((a &&& b) ^^^ (a &&& c) ^^^ (b &&& c))
    [t1 + t2, a, b, c, d + t1, e, f, g]
  | _ => v

/-- The hash value after a block. -/
def shaBlock (h : List (BitVec 32)) (blk : List Byte) : List (BitVec 32) :=
  let w := (shaExtend 48 ((List.range 16).map (fun i => BitVec.ofNat 32 (beAt blk (4 * i) 4))).reverse).reverse
  let v := (shaK.zip w).foldl (fun v x => shaRound v x.1 x.2) h
  (h.zip v).map (fun x => x.1 + x.2)

/-- The blocks of a padded message taken in order. -/
def shaBlocks : Nat → List (BitVec 32) → List Byte → List (BitVec 32)
  | 0, h, _ => h
  | n + 1, h, m => shaBlocks n (shaBlock h (m.take 64)) (m.drop 64)

/-- The SHA-256 digest of a message, 32 bytes. -/
def sha256 (m : List Byte) : List Byte :=
  let p := shaPad m
  (shaBlocks (p.length / 64) shaH p).flatMap (fun x => beBytes 4 x.toNat)

/-! ### The curve P-256 -/

/-- The prime of the field, the order of the base point, the coefficient b, the base point. -/
def pP : Nat := 0xFFFFFFFF00000001000000000000000000000000FFFFFFFFFFFFFFFFFFFFFFFF
def pN : Nat := 0xFFFFFFFF00000000FFFFFFFFFFFFFFFFBCE6FAADA7179E84F3B9CAC2FC632551
def pB : Nat := 0x5AC635D8AA3A93E7B3EBBD55769886BC651D06B0CC53B0F63BCE3C3E27D2604B
def pG : Nat × Nat :=
  (0x6B17D1F2E12C4247F8BCE6E563A440F277037D812DEB33A0F4A13945D898C296,
   0x4FE342E2FE1A7F9B8EE7EB4A7C0F9E162BCE33576B315ECECBB6406837BF51F5)

/-- `b ^ e mod m` for exponents of up to `n` bits. -/
def powMod (m : Nat) : Nat → Nat → Nat → Nat
  | 0, _, _ => 1
  | n + 1, b, e =>
    let r := powMod m n (b * b % m) (e / 2)
    if e % 2 = 1 then b * r % m else r

/-- The inverse modulo a prime. -/
def invMod (m a : Nat) : Nat := powMod m 256 (a % m) (m - 2)

/-- A point of the curve: affine coordinates, none at infinity. -/
abbrev EcPoint := Option (Nat × Nat)

/-- Whether coordinates are those of a point on the curve. -/
def ecOn (x y : Nat) : Bool :=
  decide (x < pP ∧ y < pP) && y * y % pP == (x * x * x + (pP - 3) * x + pB) % pP

/-- The third point of a slope through two points. -/
def ecThird (l x1 y1 x2 : Nat) : EcPoint :=
  let x := (l * l + 2 * pP - x1 - x2) % pP
  some (x, (l * (x1 + pP - x) + pP - y1) % pP)

/-- The sum of two points. -/
def ecAdd (a b : EcPoint) : EcPoint :=
  match a, b with
  | none, q => q
  | p, none => p
  | some (x1, y1), some (x2, y2) =>
    if x1 = x2 then
      if (y1 + y2) % pP = 0 then none
      else ecThird ((3 * x1 * x1 + pP - 3) * invMod pP (2 * y1) % pP) x1 y1 x2
    else ecThird ((y2 + pP - y1) * invMod pP (x2 + pP - x1) % pP) x1 y1 x2

/-- A multiple of a point, for multipliers of up to `n` bits. -/
def ecMul : Nat → Nat → EcPoint → EcPoint
  | 0, _, _ => none
  | n + 1, k, p =>
    let r := ecMul n (k / 2) (ecAdd p p)
    if k % 2 = 1 then ecAdd p r else r

/-- Whether a signature (r, s) over a digest verifies under a public key (x, y) (R339 test 5, R340). -/
def ecdsaOk (x y digest r s : Nat) : Bool :=
  ecOn x y && decide (1 ≤ r ∧ r < pN ∧ 1 ≤ s ∧ s < pN) &&
  (let w := invMod pN s
   match ecAdd (ecMul 256 (digest * w % pN) (some pG)) (ecMul 256 (r * w % pN) (some (x, y))) with
   | none => false
   | some p => p.1 % pN == r)

end Sys2Proof.Machine
end

