-- ==== Sys2Proof/Machine/Rig.lean ====
section
/-! DEFINITION. Flash, rig image, verification, apply, calibration set, fuses (R335 to R354). -/

namespace Sys2Proof.Machine

/-! ### The image (Image layout) -/

/-- An entry of the section table; `rsv` holds its reserved bits. -/
structure RigSect where
  typ : Nat
  ign : Bool
  rsv : Nat
  off : Nat
  len : Nat
  crc : Nat
  deriving DecidableEq, Repr

/-- The section table. -/
def rigSects (img : List Byte) : List RigSect :=
  (List.range (leAt img 6 2)).map (fun k =>
    let b := 0x40 + 16 * k
    ⟨leAt img b 2, leAt img (b + 2) 1 % 2 == 1, leAt img (b + 2) 2 / 2, leAt img (b + 4) 4, leAt img (b + 8) 4, leAt img (b + 12) 4⟩)

/-- A verified image taken apart. -/
structure RigImg where
  bytes : List Byte
  cell : CellCfg
  regs : List (Nat × Nat)
  progs : List SeProgCfg
  core : CoreImgCfg
  safety : SafetyCfg
  nets : Tab NetFn
  outs : List Nat
  strs : List (Nat × List Byte)
  statics : List StaticCfg
  deriving DecidableEq, Repr

/-- FORMAT of the header: HDRVER, NSECT, IMGLEN, reserved fields (R339 test 2). -/
def rigHdrOk (h : List Byte) : Bool :=
  let n := leAt h 6 2
  let len := leAt h 8 4
  leAt h 4 2 == 1 && decide (1 ≤ n ∧ n ≤ 64) && len % 64 == 0 && decide (0x40 + 16 * n + 64 ≤ len ∧ len ≤ 0x1E00000) &&
  leAt h 13 1 / 4 == 0 && leAt h 15 1 / 2 == 0 && (List.range 44).all (fun i => leAt h (0x14 + i) 1 == 0)

/-- Whether no two sections overlap. -/
def noOverlap : List RigSect → Bool
  | [] => true
  | a :: r => r.all (fun b => !(decide (a.off < b.off + b.len) && decide (b.off < a.off + a.len))) && noOverlap r

/-- How many sections have a type. -/
def sectCount (ss : List RigSect) (t : Nat) : Nat := (ss.filter (fun x => x.typ == t)).length

/-- FORMAT of the section table: places, alignment, overlap, types, counts (R339 test 2). An absent KEY is test 4's. -/
def rigSectsOk (img : List Byte) : Bool :=
  let ss := rigSects img
  let lo := 0x40 + 16 * ss.length
  let hi := leAt img 8 4 - 64
  ss.all (fun x => x.rsv == 0 && x.off % 64 == 0 && decide (lo ≤ x.off ∧ x.off + x.len ≤ hi) &&
    (decide (1 ≤ x.typ ∧ x.typ ≤ 10) || x.ign)) && noOverlap ss &&
  [1, 4, 5, 6].all (fun t => sectCount ss t == 1) && decide (1 ≤ sectCount ss 2 ∧ sectCount ss 3 ≤ 8 ∧ sectCount ss 8 ≤ 1 ∧ sectCount ss 9 ≤ 1)

/-- The contents of the sections of a type, in order. -/
def sectsOf (img : List Byte) (t : Nat) : List (List Byte) :=
  ((rigSects img).filter (fun x => x.typ == t)).map (fun x => sliceB img x.off x.len)

/-- The register entries of a REGS section (R338). -/
def regEntries (b : List Byte) : Option (List (Nat × Nat)) :=
  if b.length % 8 = 0 then some ((List.range (b.length / 8)).map (fun i => (leAt b (8 * i) 4, leAt b (8 * i + 4) 4))) else none

/-- The net entry of net `n` of a RIGGING section. -/
def netEntry (b : List Byte) (n : Nat) : NetFn :=
  ⟨(List.range 4).map (fun i => leAt b (12 * n + 2 * i) 2), leAt b (12 * n + 8) 2, leAt b (12 * n + 10) 1 % 4⟩

/-- The nets with a function and the pin outputs of a RIGGING section. -/
def riggingOf (b : List Byte) : Option (Tab NetFn × List Nat) :=
  let outs := (List.range 6).map (fun k => leAt b (6144 + 4 * k) 4)
  let ok := fun (n : Nat) =>
    (netEntry b n).src.all (fun w => decide (w / 4096 ≤ 3)) && decide (leAt b (12 * n + 10) 2 ≤ 2)
  if b.length = 6168 ∧ (List.range 512).all ok ∧ outs.all (fun w => decide (w < 2048)) then
    some (((List.range 512).filter (fun n => (netEntry b n).mode != 0)).map (fun n => (n, netEntry b n)), outs)
  else none

/-- SECTION: every CRC but a NOTE's, and every section's own format (R339 test 8). -/
def parseRig (img : List Byte) : Option RigImg := do
  if (rigSects img).all (fun x => decide (9 < x.typ ∨ x.typ = 0) || (crc32c 0 (sliceB img x.off x.len)).toNat == x.crc) then
    let cell ← Config.cellOf ((sectsOf img 1).headD [])
    let regs ← (sectsOf img 2).mapM regEntries
    let progs ← (sectsOf img 3).mapM Config.seProgOf
    let core ← Config.coreImgOf ((sectsOf img 4).headD [])
    let safety ← Config.safetyOf ((sectsOf img 5).headD [])
    let rig ← riggingOf ((sectsOf img 6).headD [])
    let strs ← (sectsOf img 7).mapM Config.sparStrOf
    let cv ← (sectsOf img 8).mapM Config.canvasOf
    if ((sectsOf img 9).headD []).length = 64 ∧ progs.all (fun p => decide (p.engine < 8)) ∧ strs.all (fun x => decide (x.1 < 256)) ∧
        cv.flatten.all (fun x => decide (x.owner < 8) || x.owner == 9 || x.owner == 10) then
      some ⟨img, cell, regs.flatten, progs, core, safety, rig.1, rig.2, strs, cv.flatten⟩
    else none
  else none

/-! ### The registers of a rig (R338, R346, R347) -/

/-- The GLB configuration registers of R347. -/
def glbConfig (a : Nat) : Bool :=
  [GLB_PWR_CFG, GLB_WAKE_CFG, GLB_WAKE_AT_LO, GLB_WAKE_AT_HI, GLB_WDT_CTL, GLB_TEMP, GLB_RING_BASE, GLB_RING_LEN].contains a ||
  (List.range 8).any (fun w => a == GLB_FAULT_IRQEN w || a == GLB_FAULT_HALT w)

/-- The registers that an apply keeps (R347). -/
def keptByApply (a : Nat) : Bool :=
  a == CT_STAT || a == CT_INCR || a == CT_INCRI ||
  [GLB_PWR_STAT, GLB_FEED_STAT, GLB_VBAK, GLB_RSTCAUSE, GLB_LOG_STAT, GLB_HIRQ_STAT].contains a ||
  (List.range 8).any (fun w => a == GLB_FAULT_STICKY w || a == RG_DIGEST w) ||
  [RG_STAT, RG_CMDSTAT, RG_SEQ, RG_SECVER, RG_FL_STAT, RG_SLOT_STAT 0, RG_SLOT_STAT 1, RG_SLOT_SEQ 0, RG_SLOT_SEQ 1].contains a

/-- Whether a field takes a rig entry's bits. -/
def FieldRow.byRig (f : FieldRow) : Bool := f.acc == .rw || f.acc == .rws

/-- Whether an entry meets R338. -/
def entryOk (e : Nat × Nat) : Bool :=
  match findRow e.1 with
  | none => false
  | some r =>
    (glbConfig e.1 || decide (0x10000 ≤ e.1 ∧ e.1 < 0x100000)) && r.fields.any FieldRow.byRig &&
    decide (e.2 = r.fields.foldl (fun v f => if f.byRig then putBits v f.lo f.width (bits e.2 f.lo f.width) else v) 0)

/-- An entry applied: the register and, where it is shadowed, the value in effect (R338, R416). -/
def State.putEntry (s : State) (e : Nat × Nat) : State :=
  if e.1 = CT_INCRI then
    let s := s.setFld CT_INCRI_INT (e.2 % 256)
    { s with time := { s.time with heldInt := e.2 % 256 } }
  else if e.1 = CT_INCR then s.reqIncr (s.time.heldInt * 2 ^ 32 + e.2 : Nat) e.2
  else if e.1 = CT_SLEW_CTL then s.setFld CT_SLEW_CTL_PPM (ppmOf (e.2 % 256))
  else
    match findRow e.1 with
    | none => s
    | some r =>
      let w := BitVec.ofNat 32 (r.fields.foldl (fun v f => if f.byRig then putBits v f.lo f.width (bits e.2 f.lo f.width) else v)
        (s.reg e.1).toNat)
      (s.setReg e.1 w).setEff e.1 w

/-- The registers reset for an apply; the die temperature and the straps keep (R220, R347). -/
def State.resetRegs (s : State) : State :=
  let t := { s with regs := s.regs.filter (fun e => keptByApply e.1), eff := [] }
  ((t.setFld GLB_TEMP_TEMP (s.fld GLB_TEMP_TEMP)).setFld PR_CTL_PAIREN (s.fld PR_CTL_PAIREN)).setFld PR_CTL_PAIRID (s.fld PR_CTL_PAIRID)

/-- The ends that each line of a pair drives (R221). -/
def State.pairEnds (s : State) (endaMap : Nat) : State :=
  if s.flag PR_CTL_PAIREN then
    (List.range 8).foldl (fun (t : State) n =>
      let a := endaMap.testBit n == s.flag PR_CTL_PAIRID
      (t.setFlag (TL_LCTL_ENDA n) a).setFlag (TL_LCTL_ENDB n) (!a)) s
  else s

/-- The entries of an image applied in order. -/
def State.putEntries (s : State) (img : RigImg) : State :=
  (img.regs.foldl (fun (t : State) e => t.putEntry e) s).pairEnds img.cell.endaMap

/-! ### LIMITS (R339 test 9): the rules of the other chapters, on the registers `t` of the rig -/

/-- Whether a request leaves from end A (R181). -/
def State.mbFromA (t : State) (n : Nat) : Bool := t.drives n false

/-- R184 rule 6. -/
def State.mbLegal (t : State) (n : Nat) : Bool :=
  let k := t.nodes n
  let split := t.flag (TL_LCTL_MODE n)
  let nodes := (List.range k).map (fun i => i + 1)
  let tm := max 576 (336 + 64 * t.fld (TL_MBRSP_MBMAX n))
  let rsp := t.fld (TL_MBRSP_V n)
  let req := t.fld (TL_MBREQ_V n)
  let copies := if t.mbFromA n then nodes.map (fun a => t.slot n a + t.offY n a + 592)
    else if split then [] else nodes.map (fun a => t.slot n a + t.offX n a + 592)
  let win := fun (a : Nat) (b : Bool) => t.drives n b && !(split && !b) &&
    decide (t.linePer n < rsp + t.offEnd n a b + t.fld (TL_HOP_G n) + tm)
  copies.all (fun x => decide (x ≤ req)) &&
  decide (req + (if t.mbFromA n then t.fld (TL_LINK_LINKA n) else t.fld (TL_LINK_LINKB n)) + (k - 1) * t.fld (TL_HOP_HOP n) + tm + 500 ≤ rsp) &&
  nodes.all (fun a => !(win a false || win a true))

/-- R11, R14, R184, R204, R221 for a line; an unused line needs only a mask without nodes and a legal period. -/
def State.lineLegal (t : State) (n : Nat) : Bool :=
  let k := t.nodes n
  let split := t.flag (TL_LCTL_MODE n)
  let hop := t.fld (TL_HOP_HOP n)
  let smp := t.fld (TL_SMP_V n)
  let lat := t.fld (TL_LATCH_V n)
  let last := max (t.offX n k) (if split then 0 else t.offY n 1) + (24 * k + 58) * 8 + 300
  decide (t.fld (TL_SYNC_SYNCMASK n) < 2 ^ k) && (t.fld (TL_LCTL_PERIOD n) != 0 || (split && decide (k ≤ 5))) && (k == 0 ||
  (decide (k ≤ 10) &&
  (List.range (k - 1)).all (fun i => decide (t.slot n (i + 1) < t.slot n (i + 2) ∧ t.slot n (i + 1) + hop + 788 ≤ t.slot n (i + 2))) &&
  decide (last ≤ t.fld (TL_ACT_V n) ∧ last ≤ smp ∧ smp + 500 ≤ t.slot n 1) &&
  (List.range k).all (fun i => if split then !t.winOn n (i + 1) false && t.winOn n (i + 1) true
    else t.hasWin n (i + 1) false || t.hasWin n (i + 1) true) &&
  decide (t.wakeOff n + 400 ≤ lat ∧ lat + 1000 ≤ t.linePer n) &&
  (!t.flag (TL_MBREQ_MBEN n) || t.mbLegal n) &&
  decide (64 ≤ t.fld (TL_HOP_G n) ∧ 300 ≤ hop) &&
  (!t.flag PR_CTL_PAIREN || decide (t.fld (TL_LINK_LINKA n) + t.fld (TL_LINK_LINKB n) + (k - 1) * hop ≤ 10000))))

/-- R174 for a line. -/
def State.splitLegal (t : State) (n : Nat) : Bool :=
  !t.flag (TL_LCTL_MODE n) || (t.drives n false && t.drives n true && !t.flag PR_CTL_PAIREN)

/-- R281 for an engine in local mode. -/
def State.localLegal (t : State) (n : Nat) : Bool :=
  let w := t.fld (PW_LOC_WAKE_WAKE n)
  let l := t.fld (PW_LOC_LATCH_LATCH n)
  !t.localMode n || (t.fld (TL_LCTL_PERIOD n) != 0 && decide (0 < w ∧ w + 400 ≤ l ∧ l + 1000 ≤ t.linePer n) &&
    (!t.flag PR_CTL_PAIREN || decide (3000 ≤ w)))

/-- R322 for a controller in use: one that is enabled or has a bit timing. -/
def State.canLegal (t : State) (k : Nat) : Bool :=
  let f := fun (x : Fld) => t.fld x + 1
  let t1 := f (CN_NBT_TSEG1 k)
  let t2 := f (CN_NBT_TSEG2 k)
  let d2 := f (CN_DBT_DTSEG2 k)
  !(t.flag (CN_CTL_EN k) || t.reg (CN_NBT k) != 0) ||
  decide (2 ≤ t1 ∧ 2 ≤ t2 ∧ f (CN_NBT_SJW k) ≤ t2 ∧ f (CN_DBT_DSJW k) ≤ d2 ∧ 80 ≤ f (CN_NBT_BRP k) * (1 + t1 + t2) ∧
    10 ≤ f (CN_DBT_DBRP k) * (1 + f (CN_DBT_DTSEG1 k) + d2))

/-- Whether a stopping table meets R158. -/
def stopsOk (pts : List (Nat × Nat × Nat)) : Bool :=
  let used := (pts.drop 1).takeWhile (fun x => x.1 != 0)
  let rest := (pts.drop 1).drop used.length
  let vs := used.map (fun x => x.1)
  decide (pts.length ≤ 32) && (pts.headD (0, 0, 0)).1 == 0 && (vs.zip (vs.drop 1)).all (fun x => decide (x.1 < x.2)) &&
  rest.all (fun x => x == (0, 0, 0))

/-- The stopping table of an arm in the SAFETY section. -/
def stopsFor (c : SafetyCfg) (n : Nat) : List (Nat × Nat × Nat) :=
  match c.stops.find? (fun e => e.1 == n) with | some e => e.2 | none => []

/-- R156, R158 for an arm. -/
def State.safetyLegal (t : State) (c : SafetyCfg) (n : Nat) : Bool :=
  !t.flag (SH_ARM_CFG_USED n) ||
  (c.env.any (fun e => e.1 == n) && stopsOk (stopsFor c n) && t.fld (SH_ARM_TIME_TDROP n) != 0)

/-- Whether a segment meets none of the areas that COREIMG must leave alone. -/
def State.segLegal (t : State) (x : Nat × List Byte) : Bool :=
  let clear := fun (lo hi : Nat) => decide (x.1 + x.2.length ≤ lo ∨ hi ≤ x.1)
  let st := t.fld SP_STRBASE_STRBASE
  let it := t.fld SP_INSTBASE_INSTBASE
  clear 0x4E000000 0x50000000 && clear st (st + 0x1000000) && clear it (it + 0x800000)

/-- R16: the plan period is 500 µs to 4 ms and a multiple of the shroud period in effect. -/
def State.periodsLegal (t : State) : Bool :=
  let sp := max 2 (min 8 (t.fld SH_CTL_SPER))
  let pp := t.fld CT_CTL_PPER
  decide (4 ≤ pp ∧ pp ≤ 32) && pp % sp == 0

/-- LIMITS (R339). -/
def State.rigLimits (t : State) (img : RigImg) : Bool :=
  (List.range 8).all (fun n => t.lineLegal n && t.splitLegal n && t.localLegal n && decide ((t.armJoints n).length ≤ 10) &&
    t.safetyLegal img.safety n) && t.periodsLegal &&
  img.strs.all (fun x => spHdrOk (x.2.take 128)) &&
  img.statics.all (fun x => !badShape t.cvPitch x.kind x.nshape x.shape) &&
  decide (((List.range 8).map (fun n => ((List.range 10).filter (fun a => (t.fld (TL_SYNC_SYNCMASK n)).testBit a)).length)).sum ≤ 16) &&
  (List.range 4).all (fun k => t.canLegal k) && img.core.segs.all (fun x => t.segLegal x)

/-! ### RIGGING (R339 test 11, R350) -/

/-- The nets that block fields name as outputs with their enables set. -/
def State.blockNets (t : State) : List Nat :=
  let f := fun (en net : Fld) => if t.flag en then [t.fld net] else []
  (List.range 16).flatMap (fun n => f (CT_TMR_CTL_NETEN n) (CT_TMR_CTL_NET n)) ++
  (List.range 8).flatMap (fun n => f (CT_WIN_CTL_NETEN n) (CT_WIN_CTL_NET n) ++ f (FB_P_CMPCTL_EN n) (FB_P_CMPCTL_NET n) ++
    f (ST_S_CMPCTL_EN n) (ST_S_CMPCTL_NET n)) ++
  (List.range 32).flatMap (fun i => f (FI_DI_NET_FLTEN i) (FI_DI_NET_FLTNET i) ++ f (FI_DI_NET_RAWEN i) (FI_DI_NET_RAWNET i))

/-- Whether at most `fuel` combinational functions lie on any path that ends at a net. -/
def netShallow (nets : Tab NetFn) : Nat → Nat → Bool
  | 0, n => (tabGet (fun _ => NetFn.reset) nets n).mode != 1
  | fuel + 1, n =>
    let x := tabGet (fun _ => NetFn.reset) nets n
    x.mode != 1 || x.src.all (fun w => w / 4096 != 2 || netShallow nets fuel (w % 512))

/-- RIGGING (R350). -/
def State.riggingLegal (t : State) (nets : Tab NetFn) : Bool :=
  let ds := nets.map (fun e => e.1) ++ t.blockNets
  ds.all (fun n => decide (10 ≤ n)) && ds.all (fun n => (ds.filter (fun m => m == n)).length == 1) &&
  nets.all (fun e => netShallow nets 4 e.1)

/-! ### Verification (R339, R340) -/

/-- The flash address of a slot (R335). -/
def slotBase (slot : Nat) : Nat := 0x200000 + 0x2000000 * slot

/-- Whether a slot's header has MAGIC. -/
def State.slotMagic (s : State) (slot : Nat) : Bool := leNat (s.flBytes (slotBase slot) 4) == 0x4749524B

/-- KEY: the section is there, and its hash is that of a programmed slot that is not revoked (R339 test 4, R341). -/
def State.keyOk (s : State) (img : List Byte) : Bool :=
  let k := leAt img 13 1 % 4
  match sectsOf img 9 with
  | [] => false
  | b :: _ => s.rig.keyset.getLsbD k && !s.rig.keyrev.getLsbD k &&
      beNat (sha256 (sliceB b 0 64)) == tabGet (fun _ => 0) s.rig.keys k

/-- The digest of an image (R340). -/
def rigDigest (img : List Byte) : List Byte := sha256 (img.take (img.length - 64))

/-- SIGNATURE (R339 test 5, R340). -/
def sigOk (img : List Byte) : Bool :=
  let key := (sectsOf img 9).headD []
  let sig := img.drop (img.length - 64)
  ecdsaOk (beAt key 0 32) (beAt key 32 32) (beNat (rigDigest img)) (beAt sig 0 32) (beAt sig 32 32)

/-- The image of a slot judged: the RESULT code of the first test that fails, or the image taken apart (R339). -/
def State.judgeImage (s : State) (slot : Nat) : Except Nat RigImg :=
  let h := s.flBytes (slotBase slot) 64
  if !s.slotMagic slot then .error 2
  else if !rigHdrOk h then .error 3
  else
    let img := s.flBytes (slotBase slot) (leAt h 8 4)
    if !rigSectsOk img then .error 3
    else if leAt img 14 1 ≠ s.fld GLB_ID_STEPPING then .error 4
    else if !s.keyOk img then .error 5
    else if !sigOk img then .error 6
    else if leAt img 12 1 < s.rig.roll then .error 7
    else if leAt img 15 1 % 2 ≠ s.fld PR_CTL_PAIREN then .error 8
    else match parseRig img with
      | none => .error 9
      | some x =>
        let t := s.resetRegs.putEntries x
        if !t.rigLimits x then .error 10
        else if !x.regs.all entryOk then .error 11
        else if !t.riggingLegal x.nets then .error 12
        else .ok x

/-- A sector of a slot that a power loss cut off, if there is one (R345). -/
def State.tornOf (s : State) (slot : Nat) : Option Nat :=
  s.rig.torn.find? (fun a => decide (slotBase slot ≤ a) && decide (a < slotBase slot + 0x2000000))

/-- A slot judged: one that a power loss cut off fails at EMPTY, FORMAT or SIGNATURE, whatever its bytes are (R339, R345). -/
def State.judgeSlot (s : State) (slot : Nat) : Except Nat RigImg :=
  match s.tornOf slot, s.judgeImage slot with
  | none, r => r
  | some a, .error c => if c = 2 ∨ c = 3 ∨ c = 6 then .error c else .error ([2, 3, 6].getD (Config.tornSlot a % 3) 2)
  | some a, .ok _ => .error ([2, 3, 6].getD (Config.tornSlot a % 3) 2)

/-! ### The calibration set (R352) -/

/-- Which check of a calibration set fails: 0 none, 1 MAGIC, 2 VERSION, 3 LEN, 4 CRC, 5 SERIAL; one that a power loss cut off fails at
one of them (R353). -/
def State.calBad (s : State) : Nat :=
  let b := s.flBytes 0 0x1580
  if leAt b 0 4 ≠ 0x4C41434B then 1
  else if leAt b 4 2 ≠ 1 then 2
  else if leAt b 8 4 ≠ 0x1580 then 3
  else if leAt b 12 4 ≠ (crc32c 0 (b.drop 16)).toNat then 4
  else if leAt b 16 4 ≠ Config.serialLo ∨ leAt b 20 4 ≠ Config.serialHi then 5
  else if 0 ∈ s.rig.torn then 1 + Config.tornCal % 5
  else 0

/-- The calibration set loaded, or the defaults with CAL_BAD; CT_AOINCR written from it (R36, R347, R352). -/
def State.loadCal (s : State) : State :=
  let c := s.calBad
  let b := s.flBytes 0 0x1580
  let s := if c = 0 then
      let cal := (b.zip (List.range 0x1580)).foldl (fun (t : Tab Byte) x => tabSet calDefault t x.2 x.1) []
      { s with rig := { s.rig with cal := cal } }.setFld RG_STAT_CALSRC (min 1 (leAt b 6 1))
    else
      ({ s with rig := { s.rig with cal := [] } }.setFld RG_STAT_CALSRC 2).sticky 5 0 c
  s.setReg CT_AOINCR (BitVec.ofNat 32 (s.cal 0x24 4))

/-! ### Applying a rig (R346, R347) -/

/-- Steps 2 and 3: registers and blocks at their reset values, the alarm disarmed, the calibration set loaded. DRAM keeps its
contents, but for the staging area. -/
def State.clearForRig (s : State) : State :=
  let dram := fun (a : Nat) => decide (0x40000000 ≤ a) && decide (a < 0x4E000000)
  let t := s.resetRegs
  { t with
    mem := s.mem.filter (fun e => dram e.1)
    eccBad := s.eccBad.filter dram
    time := { s.time with timers := [], windows := [], latches := [] }
    ini := []
    hal := { HalSt.reset with stopped := true }
    cores := .reset
    rigging := { RiggingSt.reset with pins := s.rigging.pins }
    host := { s.host with ports := [] }
    joints := []
    arms := (List.range 8).map (fun n => (n, { Arm.reset with paramDue := true }))
    engines := []
    lines := []
    fta := .reset
    spar := .reset
    canvas := .reset
    shroud := .reset
    pwm := .reset
    ports := []
    axes := []
    field := { FieldSt.reset with pins := s.field.pins, tickAt := s.field.tickAt }
    can := []
    pair := .reset
    rig := { s.rig with sealed := false } }.loadCal

/-- A structure image placed in its slot (R104). -/
def State.placeStr (s : State) (x : Nat × List Byte) : State :=
  let h := spHdr (x.2.take 128)
  let s := s.wrBytes (s.spSlotAt x.1) x.2
  ((s.setFld (SP_SLOT_STAT_VALID x.1) 1).setFlag (SP_SLOT_STAT_CLASS x.1) h.qp).setFld (SP_SLOT_STAT_PAGES x.1) (ceilDiv h.img 4096)

/-- An engine's program and data segments loaded (R81, R95). -/
def State.loadProg (s : State) (p : SeProgCfg) : State :=
  let s := (p.words.zip (List.range p.words.length)).foldl (fun (t : State) w => t.wr32 (seProg p.engine w.2) w.1) s
  p.data.foldl (fun (t : State) d => t.wrBytes (seData p.engine d.1) d.2) s

/-- The stopping table of an arm shown in its registers (R158). -/
def State.showStops (s : State) (c : SafetyCfg) (n : Nat) : State :=
  let pts := stopsFor c n
  (pts.zip (List.range pts.length)).foldl (fun (t : State) x =>
    ((t.setFld (SH_STOP_V_V n x.2) x.1.1).setFld (SH_STOP_TS_TS n x.2) x.1.2.1).setFld (SH_STOP_SS_SS n x.2) x.1.2.2) s

/-- Timers and windows that the entries enable are armed as by a write (R41, R45). -/
def State.armRig (s : State) : State :=
  let s := (List.range 16).foldl (fun (t : State) n =>
    if t.flag (CT_TMR_CTL_EN n) then t.writeTmrCtl .host n (t.reg (CT_TMR_CTL n)) else t) s
  (List.range 8).foldl (fun (t : State) n =>
    if t.flag (CT_WIN_CTL_EN n) then t.writeWinCtl .host n (t.reg (CT_WIN_CTL n)) else t) s

/-- Steps 2 to 5 of an apply (R346). -/
def State.loadRig (s : State) (x : RigImg) : State :=
  let s := (s.clearForRig.putEntries x).armRig
  let s := x.progs.foldl (fun (t : State) p => t.loadProg p) s
  let s := (x.core.segs ++ x.safety.prog).foldl (fun (t : State) g => t.wrBytes g.1 g.2) s
  let s := x.strs.foldl (fun (t : State) g => t.placeStr g) s
  let s := x.statics.foldl (fun (t : State) g => t.cvStatic g.owner g.kind g.nshape g.shape) s.cvClear
  let s := (List.range 8).foldl (fun (t : State) n => t.showStops x.safety n) s
  let ent := (x.core.entries ++ [x.safety.entry, x.safety.entry]).zip (List.range 6)
  { s with
    rigging := { s.rigging with
      fns := x.nets
      outs := (x.outs.zip (List.range 6)).foldl (fun (t : Tab Nat) o => tabSet (fun _ => 0) t o.2 o.1) []
      routes := (Config.routesOf x.bytes).foldl (fun (t : Tab Nat) r => tabSet (fun _ => 0) t r.1 r.2) [] }
    cores := { s.cores with entry := ent.foldl (fun (t : Tab Nat) e => tabSet (fun _ => 0) t e.2 e.1) [] }
    shroud := { s.shroud with safety := x.safety }
    rig := { s.rig with etherType := x.cell.etherType, endaMap := x.cell.endaMap, bases := x.cell.bases } }

/-! ### Slots tried in order (R343, R348) -/

/-- The header fields of a slot shown (RG_SLOTs_STAT, RG_SLOTs_SEQ). -/
def State.showSlot (s : State) (slot : Nat) : State :=
  let h := s.flBytes (slotBase slot) 64
  let ok := s.slotMagic slot
  ((s.setFld (RG_SLOT_STAT_SECVER slot) (if ok then leAt h 12 1 else 0)).setFld (RG_SLOT_STAT_KEYIDX slot)
    (if ok then leAt h 13 1 % 4 else 0)).setFld (RG_SLOT_SEQ_SEQ slot) (if ok then leAt h 16 4 else 0)

/-- The result of a slot recorded. -/
def State.slotResult (s : State) (slot code : Nat) : State := (s.showSlot slot).setFld (RG_SLOT_STAT_RESULT slot) code

/-- Slots judged in order until one is loaded; `failed` is the result of the slot tried first. -/
def State.tryRigs (s : State) (cmd : Bool) (first failed : Nat) : List Nat → State
  | [] => { s with rig := { s.rig with job := some ⟨first, [], cmd, first, failed, false⟩ } }
  | x :: rest =>
    match s.judgeSlot x with
    | .error c => (s.slotResult x c).tryRigs cmd first (if failed = 0 then c else failed) rest
    | .ok img =>
      let t := (s.slotResult x 1).loadRig img
      { t with rig := { t.rig with job := some ⟨x, rest, cmd, first, failed, true⟩ } }

/-- An apply begun on slots in order (R348, R395). -/
def State.beginApply (s : State) (cmd : Bool) (slots : List Nat) : State :=
  let s := (s.setFld RG_STAT_STATE 1).setFld GLB_PWR_STAT_STATE 2
  s.tryRigs cmd (slots.headD 0) 0 slots

/-- The slots in the order of start-up (R343). -/
def State.bootSlots (s : State) : List Nat :=
  let m0 := s.slotMagic 0
  let m1 := s.slotMagic 1
  let q := fun (k : Nat) => leNat (s.flBytes (slotBase k + 16) 4)
  if m1 && (!m0 || decide (q 0 < q 1)) then [1, 0] else [0, 1]

/-! ### Loss of the switched domains (R344, R386) -/

/-- The contents of a flash area after an operation that failed or was cut off. -/
def State.flUnknown (s : State) (a n : Nat) : State :=
  let k := s.freeCtr
  { s with freeCtr := s.freeCtr + 1 }.flPut a ((List.range n).map (fun i => Config.flashByte k (a + i)))

/-- A sector noted as cut off, or no longer. -/
def State.tear (s : State) (a : Nat) (cut : Bool) : State :=
  { s with rig := { s.rig with torn := if cut then insNat a s.rig.torn else s.rig.torn.filter (fun x => x != a) } }

/-- A flash operation or a CALWRITE that loses power leaves its area open and its sector cut off (R345, R353). -/
def State.flCutOff (s : State) : State :=
  let s := match s.rig.flash with
    | some j =>
      let a := j.addr / 65536 * 65536
      if j.op = 3 then (s.flUnknown a 65536).tear a true else if j.op = 2 then (s.flUnknown j.addr 4096).tear a true else s
    | none => s
  if s.rig.calJob then (s.flUnknown 0 65536).tear 0 true else s

/-- Every domain off but PD_AO; with `plant`, what a module without a rig keeps stays: PD_PLANT, general SRAM, DRAM
but for the staging area, whose contents are open after an apply (R346), the RG block. -/
def State.loseDomains (s : State) (plant : Bool) : State :=
  let keep := fun (a : Nat) => decide (a < 0x10030) || (plant && decide (0xD0000 ≤ a ∧ a < 0x100000))
  let kept := fun (a : Nat) => plant && (decide (0x08000000 ≤ a ∧ a < 0x09000000) || decide (0x40000000 ≤ a ∧ a < 0x4E000000))
  let s := if plant then s else s.flCutOff
  { s with
    regs := s.regs.filter (fun e => keep e.1)
    eff := []
    mem := s.mem.filter (fun e => kept e.1)
    eccBad := s.eccBad.filter kept
    time := { s.time with timers := [], windows := [], latches := [] }
    ini := if plant then s.ini else []
    hal := { HalSt.reset with stopped := true }
    cores := .reset
    rigging := { RiggingSt.reset with pins := s.rigging.pins }
    host := if plant then s.host else { HostSt.reset with inReset := s.host.inReset }
    joints := []
    arms := []
    engines := []
    lines := []
    fta := .reset
    spar := .reset
    canvas := .reset
    shroud := .reset
    pwm := .reset
    ports := []
    axes := []
    field := { FieldSt.reset with pins := s.field.pins }
    can := if plant then s.can else []
    pair := .reset
    rig := { RigSt.reset with
      flash := if plant then s.rig.flash else none, calJob := plant && s.rig.calJob, roll := s.rig.roll, keys := s.rig.keys,
      keyset := s.rig.keyset, keyrev := s.rig.keyrev, keylock := s.rig.keylock, torn := s.rig.torn } }

/-! ### The end of an apply (R346 steps 6 and 7, R343, R348) -/

/-- The outcome of an RG command that has ended, and the RIG vector (R354, R360). -/
def State.rgEnd (s : State) (outcome : Nat) : State := (s.setFld RG_CMDSTAT_OUTCOME outcome).cause 5

/-- Sealing and release: RG_STAT and the applied image's registers, the cores and engines (R346). -/
def State.releaseRig (s : State) (slot : Nat) (fallback : Bool) : State :=
  let img := s.flBytes (slotBase slot) (leNat (s.flBytes (slotBase slot + 8) 4))
  let d := rigDigest img
  let s := ((s.setFld RG_STAT_STATE 2).setFld RG_STAT_SLOT slot).setFlag RG_STAT_FALLBACK fallback
  let s := (s.setReg RG_SEQ (BitVec.ofNat 32 (leAt img 16 4))).setFld RG_SECVER_V (leAt img 12 1)
  let s := (List.range 8).foldl (fun (t : State) i => t.setReg (RG_DIGEST i) (BitVec.ofNat 32 (leAt d (4 * i) 4))) s
  let s := (List.range 8).foldl (fun (t : State) n => if t.flag (SE_CTL_RUN n) then t.setFld (SE_STAT_STATE n) 1 else t) s
  { s with rig := { s.rig with sealed := true, job := none }, cores := { s.cores with started := false } }.setFld GLB_PWR_STAT_STATE 1

/-- The end of an apply: APPLIED, or without a rig. A flash read error has the next slot tried first. -/
def State.endApply (s : State) (flashError : Bool) : State :=
  match s.rig.job with
  | none => s
  | some j =>
    if j.ok && flashError then
      (s.slotResult j.slot 13).tryRigs j.cmd j.first (if j.failed = 0 then 13 else j.failed) j.rest
    else if j.ok then
      let fb := j.failed != 0
      let s := s.releaseRig j.slot fb
      let s := if fb then s.sticky 4 j.slot j.failed else s
      let s := if j.cmd then s.rgEnd (if fb then 6 else 1) else s.fiStart
      s.settleEsc
    else
      let s := ((s.loseDomains true).setFld RG_STAT_STATE 0).setFld RG_STAT_FALLBACK 0
      let s := (s.setFld GLB_PWR_STAT_STATE 1).sticky 3 j.first j.failed
      (if j.cmd then s.rgEnd 6 else s).settleEsc

/-! ### RG_CMD (R341, R342, R348, R353, R354) -/

/-- Bytes of general SRAM; what lies outside it reads 0 (R355). -/
def State.sramBytes (s : State) (a n : Nat) : List Byte :=
  (List.range n).map (fun i => if 0x08000000 ≤ a + i ∧ a + i < 0x09000000 then s.rdB (a + i) else 0)

/-- Whether a command or flash operation is running (R354). -/
def State.rgBusy (s : State) : Bool := s.rig.job.isSome || s.rig.calJob || s.rig.flash.isSome

/-- ROLLUP (R342). -/
def State.rollUp (s : State) : State :=
  let v := s.fld RG_SECVER_V
  if s.hasRig && decide (s.rig.roll < v) then { s with rig := { s.rig with roll := min 64 v } }.rgEnd 1 else s.rgEnd 5

/-- KEYPROG (R341). -/
def State.keyProg (s : State) (k : Nat) : State :=
  if s.rig.keylock || s.rig.keyset.getLsbD k then s.rgEnd 5
  else
    let h := beNat (s.sramBytes (s.reg RG_KEYADDR).toNat 32)
    { s with rig := { s.rig with keys := tabSet (fun _ => 0) s.rig.keys k h,
                                 keyset := s.rig.keyset ||| BitVec.ofNat 4 (2 ^ k) } }.rgEnd 1

/-- KEYREV (R341). -/
def State.keyRev (s : State) (k : Nat) : State :=
  { s with rig := { s.rig with keyrev := s.rig.keyrev ||| BitVec.ofNat 4 (2 ^ k) } }.rgEnd 1

/-- KEYLOCK (R341). -/
def State.keyLock (s : State) : State := { s with rig := { s.rig with keylock := true } }.rgEnd 1

/-- A write of RG_CMD (R354). -/
def State.rgCmd (s : State) (v : Nat) : State :=
  let op := bits v 0 4
  let ks := bits v 5 2
  if op = 0 ∨ 6 < op then s
  else
    let s := s.setFld RG_CMDSTAT_LASTOP op
    if 2 ≤ op ∧ bits v 16 16 ≠ 0xC0DE then s.rgEnd 4
    else if (op = 1 ∨ op = 3) ∧ s.underWay then s.rgEnd 3
    else if s.rgBusy then s.rgEnd 2
    else match op with
      | 1 =>
        let was := if s.hasRig then [s.fld RG_STAT_SLOT] else []
        (s.setFld RG_CMDSTAT_OUTCOME 7).beginApply true (bits v 4 1 :: was)
      | 2 => s.rollUp
      | 3 => { s with rig := { s.rig with calJob := true } }.setFld RG_CMDSTAT_OUTCOME 7
      | 4 => s.keyProg ks
      | 5 => s.keyRev ks
      | _ => s.keyLock

/-- The word of an RG_CMD row, which names its OP. -/
def rgRow (v : Word) (op : Nat) : Nat := putBits v.toNat 0 4 op

/-- The set that CALWRITE writes (R353). -/
def State.calSet (s : State) : List Byte :=
  let b := s.sramBytes (s.reg RG_CALADDR).toNat 0x1580
  let n := (leNat (s.flBytes 0x18 4) + 1) % 2 ^ 32
  let body := (b.drop 16).take 8 ++ leBytes 4 n ++ b.drop 28
  b.take 6 ++ [1#8] ++ (b.drop 7).take 5 ++ leBytes 4 (crc32c 0 body).toNat ++ body

/-- The end of a CALWRITE (R353). -/
def State.endCalwrite (s : State) (fail : Bool) : State :=
  if !s.rig.calJob then s else
  let t := { s with rig := { s.rig with calJob := false } }
  if fail then (t.flUnknown 0 65536).rgEnd 6
  else
    let t := (t.tear 0 false).flPut 0 (s.calSet ++ List.replicate (65536 - 0x1580) 0xFF#8)
    (t.sticky 6 0 (leNat (t.flBytes 0x18 4))).rgEnd 1

/-! ### Flash operations (R336, R337) -/

/-- Whether PROGRAM or ERASE of an address is refused. -/
def State.flRefused (s : State) (a : Nat) : Bool :=
  let slot := if a < 0x2000000 then 0 else 1
  !(decide (slotBase slot ≤ a) && decide (a < slotBase slot + 0x1E00000)) || (s.hasRig && s.fld RG_STAT_SLOT == slot) ||
  s.rig.job.isSome || a % 4096 != 0

/-- A write of RG_FL_CMD (R336, R337). -/
def State.flCmd (s : State) (op : Nat) : State :=
  let a := s.fld RG_FL_ADDR_V
  if op = 0 then s
  else if s.rig.flash.isSome || (if op = 1 then s.rig.job.isSome else s.flRefused a) then s.setFld RG_FL_STAT_REFUSED 1
  else { s with rig := { s.rig with flash := some ⟨op, a, (s.reg RG_FL_SRC).toNat⟩ } }.setFld RG_FL_STAT_BUSY 1

/-- Bytes stored to general SRAM; what falls outside it is lost (R355). -/
def State.sramPut (s : State) : Nat → List Byte → State
  | _, [] => s
  | a, b :: bs => (if 0x08000000 ≤ a ∧ a < 0x09000000 then s.wrBytes a [b] else s).sramPut (a + 1) bs

/-- What a flash operation does by its end, and whether its read-back differs. -/
def State.flDo (s : State) (j : FlashJob) (fail : Bool) : State × Bool :=
  match j.op with
  | 1 =>
    if fail then
      let k := s.freeCtr
      ({ s with freeCtr := k + 1 }.sramPut j.src ((List.range 4096).map (fun i => Config.flashByte k i)), false)
    else (s.sramPut j.src ((List.range 4096).map (fun i => s.flB ((j.addr + i) % 2 ^ 26))), false)
  | 2 =>
    let bs := s.sramBytes j.src 4096
    let t := if fail || (s.flBytes j.addr 4096).any (fun b => b != 0xFF#8) then s.flUnknown j.addr 4096 else s.flPut j.addr bs
    (t, t.flBytes j.addr 4096 != bs)
  | _ =>
    let a := j.addr / 65536 * 65536
    (if fail then s.flUnknown a 65536 else (s.tear a false).flPut a (List.replicate 65536 0xFF#8), false)

/-- The end of a flash operation (R336, R360). -/
def State.endFlash (s : State) (fail : Bool) : State :=
  match s.rig.flash with
  | none => s
  | some j =>
    let r := s.flDo j fail
    let t := ({ r.1 with rig := { r.1.rig with flash := none } }.setFld RG_FL_STAT_BUSY 0).setFld RG_FL_STAT_DONE 1
    ((if fail || r.2 then t.setFld RG_FL_STAT_ERROR 1 else t).cause 5).settleEsc

/-! ### The commands -/

/-- FLASH_READ (R336). -/
def execFlashRead (i : Initiator) (s : State) : Out := .next (s.gated i RG_FL_CMD fun s => s.flCmd 1)
/-- FLASH_PROGRAM (R336, R337). -/
def execFlashProgram (i : Initiator) (s : State) : Out := .next (s.gated i RG_FL_CMD fun s => s.flCmd 2)
/-- FLASH_ERASE (R336, R337). -/
def execFlashErase (i : Initiator) (s : State) : Out := .next (s.gated i RG_FL_CMD fun s => s.flCmd 3)
/-- FLASH_OP_END (R336). -/
def execFlashOpEnd (fail : Bool) (s : State) : Out := .next (s.endFlash fail)
/-- RIG_APPLY (R339, R346 steps 1 to 5, R348, R354). -/
def execRigApply (i : Initiator) (v : Word) (s : State) : Out := .next (s.gated i RG_CMD fun s => s.rgCmd (rgRow v 1))
/-- ROLLUP (R342). -/
def execRollup (i : Initiator) (v : Word) (s : State) : Out := .next (s.gated i RG_CMD fun s => s.rgCmd (rgRow v 2))
/-- CALWRITE (R353). -/
def execCalwrite (i : Initiator) (v : Word) (s : State) : Out := .next (s.gated i RG_CMD fun s => s.rgCmd (rgRow v 3))
/-- KEYPROG (R341). -/
def execKeyprog (i : Initiator) (v : Word) (s : State) : Out := .next (s.gated i RG_CMD fun s => s.rgCmd (rgRow v 4))
/-- KEYREV (R341). -/
def execKeyrev (i : Initiator) (v : Word) (s : State) : Out := .next (s.gated i RG_CMD fun s => s.rgCmd (rgRow v 5))
/-- KEYLOCK (R341). -/
def execKeylock (i : Initiator) (v : Word) (s : State) : Out := .next (s.gated i RG_CMD fun s => s.rgCmd (rgRow v 6))
/-- CALWRITE_END (R353). -/
def execCalwriteEnd (fail : Bool) (s : State) : Out := .next (s.endCalwrite fail)

end Sys2Proof.Machine
end

