-- ==== Sys2Proof/Machine/Power.lean ====
section
/-! DEFINITION. Power states, wake, resets, supplies, watchdog, temperature, uncorrectable memory errors (R310, R371, R381 to
R399). -/

namespace Sys2Proof.Machine

/-! ### The watchdog (R398) -/

/-- TIMEOUT in ns: 0 acts as 1 ms. -/
def State.wdtTimeout (s : State) : Nat := max 1 (s.fld GLB_WDT_CTL_TIMEOUT) * 1000000

/-- The count restarted from TIMEOUT. -/
def State.wdtRestart (s : State) : State := { s with power := { s.power with wdtLeft := s.wdtTimeout, wdtSince := s.nowNs } }

/-- Whether the watchdog counts. -/
def State.wdtRuns (s : State) : Bool := s.underWay && s.flag GLB_WDT_CTL_EN

/-- The ns that remain. -/
def State.wdtNow (s : State) : Nat :=
  if s.wdtRuns then s.power.wdtLeft - (s.nowNs - s.power.wdtSince) else s.power.wdtLeft

/-- The count held where it stands. -/
def State.wdtHold (s : State) : State := { s with power := { s.power with wdtLeft := s.wdtNow, wdtSince := s.nowNs } }

/-- A write of GLB_WDT_CTL: enabling starts the count from TIMEOUT, disabling holds it. -/
def State.wdtCtl (s : State) (i : Initiator) (v : Word) : State :=
  let was := s.flag GLB_WDT_CTL_EN
  let t := s.wdtHold.plainWrite i GLB_WDT_CTL v
  if !was && t.flag GLB_WDT_CTL_EN then t.wdtRestart else t

/-! ### The clocks (R395) -/

/-- The clocks of the module. -/
inductive Clock where
  | tcxo
  | ao
  | pllCore
  | pllEng
  | pllTb
  | pllTl
  | pllSl
  | pllPe
  | pllPcie
  deriving DecidableEq, Repr

/-- Whether a clock runs: the TCXO but for furled, the AO oscillator always, a PLL while a domain that it clocks is on and not
retained, or an apply needs it (R395). -/
def State.clockRuns (s : State) (c : Clock) : Bool :=
  match c with
  | .tcxo => !s.power.furled
  | .ao => true
  | .pllCore | .pllEng | .pllTb => s.underWay || s.rig.job.isSome
  | .pllTl => s.underWay
  | .pllSl => s.underWay && s.flag PR_CTL_PAIREN
  | .pllPe | .pllPcie => !s.power.furled

/-! ### Leaving under way (R389) -/

/-- Writes that wait on a mirror page or the forwarding queue proceed, and the queue is dropped. -/
def State.settleStalls (s : State) : State :=
  let ws := s.pair.stalled
  let fs := s.pair.fwdWait
  let s := { s with pair := { s.pair with stalled := [], fwdWait := [], unsent := [] } }
  let s := ws.foldl (fun (t : State) w => t.wrBytes w.addr w.data) s
  (fs.foldl (fun (t : State) w => t.putForward w.ini w.addr w.data) s).setFwd []

/-- Requests of the spar array and the canvas engine end ABORTED (R121, R146). -/
def State.abortRequests (s : State) : State := s.sparAbort.cvAbort

/-- A line stopped for a REEF: IDLE, with no replies of the cycle that ends (R389 step 2). -/
def State.reefLine (s : State) (n : Nat) : State :=
  let s := s.lineIdle n
  s.setLine n { s.line n with used := [], rx := 0 }

/-- The rest of a REEF once every line is IDLE: the pair role of step 2, then steps 3 to 5 (R389). -/
def State.finishReef (s : State) : State :=
  let s := s.wdtHold.settleStalls
  let s := (List.range 8).foldl State.reefLine s
  let s := (s.goHalted 4).abortRequests
  let s := s.canLeave.shLeave.doKeep
  let s := ((s.setFld PR_STAT_SL0UP 0).setFld PR_STAT_SL1UP 0).setFld PW_STAT_DLLOCK 0
  let s := { s with cores := { s.cores with running := false }, power := { s.power with reefWait := false, reefLines := false } }
  (s.setFld CT_STAT_CLKMODE 1).setFld GLB_PWR_STAT_STATE 1

/-- Whether every core has written DONE (R260). -/
def State.allDone (s : State) : Bool := s.hal.serv.all (fun e => e.2.isNone)

/-- Whether every line is IDLE. -/
def State.linesIdle (s : State) : Bool := (List.range 8).all (fun n => s.fld (TL_LSTAT_STATE n) == 0)

/-- A REEF goes on as far as it can: its items in service have ended, then its lines have stopped (R389 steps 1 and 2). -/
def State.reefOn (s : State) : State :=
  if s.power.reefWait && s.allDone then
    let t := { s with power := { s.power with reefLines := true } }
    if t.linesIdle then t.finishReef else t
  else s

/-- An accepted REEF: dispatch stops; the rest follows the items in service (R389 step 1). -/
def State.beginReef (s : State) : State :=
  let s := { s with hal := { s.hal with stopped := true }, power := { s.power with reefWait := true } }.setFld GLB_PWR_STAT_STATE 3
  s.reefOn

/-! ### Entering under way (R390) -/

/-- An accepted UNDER_WAY. -/
def State.goUnderWay (s : State) : State :=
  let s := { s with
    power := { s.power with sparOff := s.fld GLB_PWR_CFG_SPAROFF }
    cores := { s.cores with running := true, started := true }
    pwm := { s.pwm with lost := [] }
    pair := { s.pair with muted := false, seenActive := false, hb := none, hbPoint := none, hbPoints := [], frameAt := none, actFrameAt := none } }
  let s := (s.setFld CT_STAT_CLKMODE 0).setFld PR_STAT_PROLE 7
  let s := s.endDelays
  let s := { s with hal := { s.hal with stopped := false } }
  let s := (s.setFld GLB_PWR_STAT_STATE 0).wdtRestart
  let s := (List.range 16).foldl (fun (t : State) q => t.showLink q false) (s.shEnter.canEnter)
  (List.range 8).foldl (fun (t : State) n => if t.flag (TL_LCTL_RUN n) then t.lineStart n else t) s

/-! ### Furled (R385, R391, R397) -/

/-- The switched domains lose power with a cause; requests end first where the module was under way. The DRAM ring is lost (R378). -/
def State.furlNow (s : State) (cause : Nat) : State :=
  let s := if s.underWay then s.abortRequests else s
  let s := (s.loseDomains false).setFld GLB_PWR_STAT_FURLCAUSE cause
  let s := (s.setFld GLB_PWR_STAT_STATE 2).setFld CT_STAT_CLKMODE 2
  { s with power := { s.power with furled := true, pgood := false, reefWait := false, reefLines := false, uwAfterApply := false, sparOff := 0 },
           log := { s.log with escPend := false, ringAt := none } }

/-- A wake from furled: the switched domains power up, STEPPED clears, UW is noted (R394, R397). A thermal furl holds it off. -/
def State.wake (s : State) (cause : Nat) : State :=
  if s.power.thermal then s else
  let uw := s.flag GLB_WAKE_CFG_UW
  let s := (s.setFld CT_STAT_STEPPED 0).setFld GLB_RSTCAUSE_CAUSE cause
  { s with power := { s.power with furled := false, uwAfterApply := uw, failed := false } }.setFld GLB_PWR_STAT_STATE 2

/-- A reset of the switched domains: through furled, and awake again at once (R397). -/
def State.resetAll (s : State) (cause : Nat) : State := (s.furlNow 4).wake cause

/-! ### Requests (R388) -/

/-- A refused request. -/
def State.pwrRefuse (s : State) (r : Nat) : State := (s.setFld GLB_PWR_STAT_REFUSED 1).setFld GLB_PWR_STAT_REASON r

/-- Whether some axis that this module drives is not IDLE (R388). -/
def State.axesMoving (s : State) : Bool :=
  (List.range 8).any (fun k => s.fld (ST_S_STAT_STATE k) != 0 && !(s.role == 2 && (s.fld PR_OUTMASK_STEP).testBit k))

/-- Why a request is refused, by the order of R388; 0 when it is accepted. UNDER_WAY while an apply is running is refused with
RIG_APPLYING (R348), although STATE then reads STARTING. -/
def State.pwrReason (s : State) (req : Nat) : Nat :=
  if req = 1 ∧ s.rig.job.isSome then 3
  else if 2 ≤ s.fld GLB_PWR_STAT_STATE then 8
  else if (req = 1 ∧ s.underWay) ∨ (req = 2 ∧ !s.underWay) ∨ (req = 3 ∧ s.underWay) then 7
  else if req = 2 then
    if (List.range 64).any (fun k => (s.joint k).state.live) then 1
    else if (List.range 8).any (fun g => s.flag (PW_G_CTL_EN g)) then 2
    else if s.axesMoving then 5
    else 0
  else if req = 1 then
    if !s.hasRig then 4
    else if !s.flag GLB_VBAK_AGOOD && !s.flag GLB_VBAK_BGOOD then 6 else 0
  else 0

/-- A request judged and carried out; `src` is the wake source that makes it, 0 for none (R388 to R392). -/
def State.pwrRequest (s : State) (src req : Nat) : State :=
  if req = 0 then s
  else
    let r := s.pwrReason req
    if r ≠ 0 then s.pwrRefuse r
    else
      let s := if req = 1 ∧ src ≠ 0 then s.setFld GLB_PWR_STAT_WAKESRC src else s
      match req with
      | 1 => s.goUnderWay
      | 2 => s.beginReef
      | _ => s.furlNow 1

/-- A written request; the host's is a wake source too (R392). -/
def State.pwrWrite (s : State) (i : Initiator) (v : Word) : State :=
  s.pwrRequest (if i = .host then 5 else 0) (v.toNat % 4)

/-- A wake source's event (R392). -/
def State.wakeEvent (s : State) (src : Nat) : State :=
  if s.power.furled then
    if s.power.thermal then s
    else (s.wake (if src = 3 then 1 else 6)).setFld GLB_PWR_STAT_WAKESRC src
  else if s.fld GLB_PWR_STAT_STATE = 1 then s.pwrRequest src 1
  else s

/-! ### The commands -/

/-- DONE (R249, R260): a REEF that waits for the items in service goes on. -/
def execDone (i : Initiator) (c : Fin 4) (s : State) : Out :=
  .next (s.gated i (HAL_C_DONE c) fun s =>
    let t := s.doneCore c
    if t.power.reefLines then t else t.reefOn)
/-- What a cycle start of line `n` finds while a REEF waits for the lines: the line goes to IDLE (R389 step 2). -/
def State.reefStart (s : State) (n : Nat) : State := if s.power.reefLines then s.reefLine n else s
/-- SERVO_CYCLE_START (R15, R389). -/
def execServoCycleStart (n : Fin 8) (s : State) : Out :=
  let start := s.cycleStart (s.linePer n.val)
  let l := s.line n.val
  .next (if s.underWay && !(l.seenCyc && l.cycAt == start) then ((s.reefStart n.val).servoCycle n.val start).reefOn else s)
/-- COLD_CYCLE_START (R213 to R215, R389). -/
def execColdCycleStart (n : Fin 8) (s : State) : Out :=
  .next (if s.underWay && !s.pair.muted then
    (if s.power.reefLines then (s.reefStart n.val).reefOn else s.coldCycle n (s.cycleStart 125000))
  else s)
/-- A change of input `k` declared if it is due, with the wake that it may be (R306, R308, R310, R392). -/
def State.inputDue (s : State) (k : Nat) : State :=
  if s.fieldOn && s.fiDue k then
    let t := s.declareChange k
    if t.flag (FI_DI_CFG_WAKE k) && t.flag GLB_WAKE_CFG_DI && !t.underWay then t.wakeEvent 4 else t
  else s
/-- The filters at a halyard tick boundary: each sample, and the change that it declares (R306). -/
def State.fiTick (s : State) : State :=
  if s.fieldOn then (List.range 32).foldl (fun (t : State) i => (t.fiSample i).inputDue i) s else s
/-- The inputs whose filters are bypassed, at a tick of the time base (R306). -/
def State.fiFollow (s : State) : State :=
  (List.range 32).foldl (fun (t : State) i => if t.fld (FI_DI_CFG_LIM i) = 0 then t.inputDue i else t) s
/-- INPUT_CHANGE (R306, R308, R310, R392). -/
def execInputChange (k : Fin 32) (s : State) : Out := .next (s.inputDue k)
/-- UNDER_WAY (R388, R390). -/
def execUnderWay (i : Initiator) (s : State) : Out := .next (s.gated i GLB_PWR_REQ fun s => s.pwrWrite i 1)
/-- REEF (R388, R389). -/
def execReef (i : Initiator) (s : State) : Out := .next (s.gated i GLB_PWR_REQ fun s => s.pwrWrite i 2)
/-- FURL (R388, R391). -/
def execFurl (i : Initiator) (s : State) : Out := .next (s.gated i GLB_PWR_REQ fun s => s.pwrWrite i 3)
/-- RIG_APPLY_END (R343, R346, R348): a start-up that notes UW then requests UNDER_WAY (R394). -/
def execRigApplyEnd (flashError : Bool) (s : State) : Out :=
  .next (let t := s.endApply flashError
    if t.rig.job.isNone && t.power.uwAfterApply then
      { t with power := { t.power with uwAfterApply := false } }.pwrRequest 0 1
    else t)

/-- POWER_FAIL (R385): outputs off, PD_AO on VBAK, furled. -/
def execPowerFail (vbak : BitVec 16) (s : State) : Out :=
  .next (let s := ((s.setFld GLB_VBAK_MV vbak.toNat).setFld GLB_VBAK_AOSRC 1).sticky 12 0 vbak.toNat
    let s := s.furlNow 2
    { s with power := { s.power with failed := true } })
/-- FEED_FAIL (R384). -/
def execFeedFail (feedB : Bool) (mv : BitVec 16) (s : State) : Out :=
  .next (if feedB then ((s.setFld GLB_FEED_STAT_VB mv.toNat).setFld GLB_VBAK_BGOOD 0).sticky 11 0 mv.toNat
    else ((s.setFld GLB_FEED_STAT_VA mv.toNat).setFld GLB_VBAK_AGOOD 0).sticky 10 0 mv.toNat)
/-- FEED_GOOD (R384, R385, R392). -/
def execFeedGood (feedB : Bool) (mv : BitVec 16) (s : State) : Out :=
  .next (let s := if feedB then (s.setFld GLB_FEED_STAT_VB mv.toNat).setFld GLB_VBAK_BGOOD 1
      else (s.setFld GLB_FEED_STAT_VA mv.toNat).setFld GLB_VBAK_AGOOD 1
    let s := s.setFld GLB_VBAK_AOSRC 0
    if s.power.furled && s.power.failed && s.flag GLB_WAKE_CFG_FEED then s.wakeEvent 3 else s)
/-- WAKE_PIN (R392). -/
def execWakePin (s : State) : Out := .next (if s.flag GLB_WAKE_CFG_PIN then s.wakeEvent 1 else s)
/-- ALARM_ARM (R393). -/
def execAlarmArm (i : Initiator) (v : Word) (s : State) : Out :=
  .next (s.gated i GLB_WAKE_AT_HI fun s => (s.setReg GLB_WAKE_AT_HI v).setFld GLB_WAKE_STAT_ARMED 1)
/-- WAKE_ALARM (R392, R393). -/
def execWakeAlarm (s : State) : Out :=
  .next (if s.flag GLB_WAKE_STAT_ARMED && decide ((s.reg GLB_WAKE_AT_HI).toNat * 2 ^ 32 + (s.reg GLB_WAKE_AT_LO).toNat ≤ s.nowNs) then
    let t := s.setFld GLB_WAKE_STAT_ARMED 0
    if t.flag GLB_WAKE_CFG_ALARM then t.wakeEvent 2 else t
  else s)
/-- POWER_GOOD (R343, R382, R394, R396): straps, TCXO time, the apply of the boot slots. -/
def execPowerGood (pairEn pairId : Bool) (s : State) : Out :=
  .next (if s.power.furled || s.power.pgood then s else
    let s := (s.setFlag PR_CTL_PAIREN pairEn).setFlag PR_CTL_PAIRID pairId
    let s := { s with power := { s.power with pgood := true } }.setFld CT_STAT_CLKMODE 1
    ((s.showSlot 0).showSlot 1).beginApply false s.bootSlots)
/-- POR (R37, R372): the state after a power-on of PD_AO without retained state; flash and fuses keep. -/
def execPor (s : State) : Out :=
  .next (let s := s.flCutOff
    { State.reset with
      flash := s.flash
      rig := { RigSt.reset with roll := s.rig.roll, torn := s.rig.torn, keys := s.rig.keys, keyset := s.rig.keyset,
                                keyrev := s.rig.keyrev, keylock := s.rig.keylock }
      rigging := { RiggingSt.reset with pins := s.rigging.pins }
      field := { FieldSt.reset with pins := s.field.pins }
      host := { HostSt.reset with inReset := s.host.inReset }
      freeCtr := s.freeCtr
      pending := s.pending })

/-- PD_AO_LOSS (R385): every retained state is gone until the next power-on (R37); flash and fuses stay. -/
def execPdAoLoss (s : State) : Out :=
  .next (let s := s.flCutOff
    { State.reset with
      flash := s.flash
      rig := { RigSt.reset with roll := s.rig.roll, torn := s.rig.torn, keys := s.rig.keys, keyset := s.rig.keyset,
                                keyrev := s.rig.keyrev, keylock := s.rig.keylock }
      rigging := { RiggingSt.reset with pins := s.rigging.pins }
      field := { FieldSt.reset with pins := s.field.pins }
      host := { HostSt.reset with inReset := s.host.inReset }
      power := { PowerSt.reset with furled := true }
      log := { LogSt.reset with entries := [], total := 0 }
      freeCtr := s.freeCtr
      pending := s.pending })
/-- RESET_PIN (R397). -/
def execResetPin (s : State) : Out := .next (s.resetAll 2)
/-- SOFTWARE_RESET (R397). -/
def execSoftwareReset (i : Initiator) (v : Word) (s : State) : Out :=
  .next (s.gated i GLB_RST fun s => if v.getLsbD 0 && bits v.toNat 16 16 == 0xC0DE then s.resetAll 3 else s)
/-- PERST (R397): the endpoint alone; its MSI-X capability returns to its default. -/
def execPerst (s : State) : Out :=
  .next { s with host := { s.host with
    inReset := true, training := false, speed := 0, width := 0, bar0 := 0, bar2 := 0, mask := BitVec.allOnes 32, pba := s.reg GLB_HIRQ_STAT, table := [] } }
/-- The link trained at Gen1, Gen2 or Gen3 and at ×1 or ×2, which of them is open (R356). -/
def State.train (s : State) : State :=
  let d := s.draw 3
  { d.2 with host := { d.2.host with
    inReset := false, training := true, speed := 1 + d.1.toNat / 2 % 3, width := 1 + d.1.toNat % 2 } }

/-- PERST_RELEASE (R356, R396). -/
def execPerstRelease (s : State) : Out := .next (if s.host.inReset then s.train else s)
/-- WATCHDOG_KICK (R398). -/
def execWatchdogKick (i : Initiator) (v : Word) (s : State) : Out :=
  .next (s.gated i GLB_WDT_KICK fun s => if v.toNat % 65536 = 0x5A5A then s.wdtRestart else s)
/-- WATCHDOG_EXPIRY (R397, R398). -/
def execWatchdogExpiry (s : State) : Out := .next (if s.wdtRuns && s.wdtNow == 0 then s.resetAll 4 else s)
/-- TEMPERATURE_READING (R394, R397, R399): a module furled by heat wakes below the warning limit. -/
def execTemperatureReading (t : BitVec 16) (s : State) : Out :=
  .next (let s := s.setFld GLB_TEMP_TEMP t.toNat
    let w := toS 16 (s.fld GLB_TEMP_WARN)
    let s := if w < t.toInt then s.sticky 13 0 (ofS 32 t.toInt) else s
    if s.power.thermal && decide (t.toInt < w) then { s with power := { s.power with thermal := false } }.wake 5 else s)
/-- THERMAL_FURL (R399). -/
def execThermalFurl (s : State) : Out :=
  .next (let s := s.furlNow 3
    { s with power := { s.power with thermal := true } })

/-! ### Uncorrectable errors (R371) -/

/-- A lane whose intake is yet to read an address of its job's delta entries. -/
def State.laneReads (s : State) (k a : Nat) : Option SparRun :=
  match (s.spLane k).run with
  | some r => if !r.taken && decide (r.job.ent ≤ a + 3 ∧ a < r.job.ent + 8 * r.job.nent) then some r else none
  | none => none

/-- A word marked uncorrectable. -/
def State.markBad (s : State) (a : Nat) : State :=
  let w := a / 4 * 4
  { s with eccBad := s.eccBad.filter (fun x => decide (x < w)) ++ [w] ++ s.eccBad.filter (fun x => decide (w < x)) }

/-- The sticky bit of an error in general SRAM or DRAM, with the reader's initiator number, open for a unit without one. -/
def State.memNote (s : State) (bit a : Nat) (r : EccReader) : State :=
  match r with
  | .core i => s.sticky bit i.num a
  | .fetch i => s.sticky bit i.num a
  | .host => s.sticky bit 6 a
  | .spar _ => (let d := s.draw 8; d.2.sticky bit d.1.toNat a)
  | .canvas => (let d := s.draw 8; d.2.sticky bit d.1.toNat a)

/-- What the reader makes of it. -/
def State.readerEffect (s : State) (a : Nat) (r : EccReader) : State :=
  match r with
  | .core i => s.raise i .loadFault
  | .fetch i => s.raise i .fetchFault
  | .host => s.answer 0
  | .spar k => match s.laneReads k a with | some r => s.spBadEntry k r | none => s
  | .canvas => s

/-- The counter of corrected errors of a memory (R371, GLB_ECC_CNT0 and GLB_ECC_CNT1). -/
def eccCounter : EccMem → Fld
  | .engine _ => GLB_ECC_CNT0_SE
  | .lane _ => GLB_ECC_CNT0_LANE
  | .canvas => GLB_ECC_CNT0_CANVAS
  | .tickets => GLB_ECC_CNT0_CANVAS
  | .gsram => GLB_ECC_CNT0_GSRAM
  | .dram => GLB_ECC_CNT1_DRAM
  | .tcmAc _ => GLB_ECC_CNT1_TCM
  | .tcmSc _ => GLB_ECC_CNT1_TCM

/-- ECC_ERROR: a single-bit error is corrected and counted; an uncorrectable one marks its word and acts on the reader (R98, R120, R148,
R371). -/
def execEccError (e : MemErr) (addr : Word) (r : EccReader) (s : State) : Out :=
  .next (if s.power.furled then s else if e.single then s.incFld (eccCounter e.mem) else
    let a := addr.toNat
    let t := s.markBad a
    match e.mem with
    | .engine _ => t
    | .canvas => t
    | .tickets => s
    | .lane k => if s.spServ k then s.spLaneFault k else s
    | .gsram => (t.memNote 32 a r).readerEffect a r
    | .dram => (t.memNote 33 a r).readerEffect a r
    | .tcmAc c => (t.sticky 34 c (a % 0x40000)).readerEffect a r
    | .tcmSc c =>
      let t := (t.sticky 34 (4 + c) (a % 0x40000)).readerEffect a r
      if t.scHalted c then t else t.haltSafety c 0)

end Sys2Proof.Machine
end

