-- ==== Sys2Proof/Machine/Bus.lean ====
section
/-! DEFINITION. The bus: what a write to, and a read of, each device address does (R5 to R8, R81, R82, R105, R126, R231 to R233,
R263, R266, R267, R355, R359), and the rows REGISTER_WRITE, REGISTER_READ and MEMORY_WRITE. -/

namespace Sys2Proof.Machine

/-- The next state of a meaning, from inside another. -/
def State.via (s : State) (f : State → Out) : State :=
  match f s with
  | .next t => t
  | _ => s

/-! ### The plant ports' registers with behaviour (R363 to R366) -/

/-- The outcome register of an initiator for a PE push register. -/
def State.peOutcome (s : State) (i : Initiator) (a v : Nat) : State :=
  s.setIni i { s.inis i with peOut := tabSet (fun _ => 0) (s.inis i).peOut a v }

/-- Whether `n` bytes from an address lie in general SRAM or DRAM. -/
def inRam (a n : Nat) : Bool :=
  (decide (0x08000000 ≤ a) && decide (a + n ≤ 0x09000000)) || (decide (0x40000000 ≤ a) && decide (a + n ≤ 0x50000000))

/-- A write of PE_Pp_RXPUSH (R364). -/
def State.rxPushBuf (s : State) (i : Initiator) (p : Nat) (v : Word) : State :=
  let a := v.toNat
  if a % 64 ≠ 0 ∨ inRam a 2048 = false then s.peOutcome i (PE_P_RXPUSH p) 3
  else if 256 ≤ (s.pe p).free.length then s.peOutcome i (PE_P_RXPUSH p) 2
  else (s.setPe p { s.pe p with free := (s.pe p).free ++ [a] }).peOutcome i (PE_P_RXPUSH p) 1

/-- A read of PE_Pp_RXPOP (R364). -/
def State.rxPopBuf (s : State) (p : Nat) : State :=
  match (s.pe p).filled with
  | [] => s.answer 0
  | a :: as => (s.setPe p { s.pe p with filled := as }).answer (BitVec.ofNat 32 a)

/-- A launch-time queue of a port. -/
def State.txq (s : State) (p q : Nat) : List (Nat × Bool) := (tabGet (fun _ => TxQueue.reset) (s.pe p).queues q).items

/-- A launch-time queue replaced. -/
def State.setTxq (s : State) (p q : Nat) (l : List (Nat × Bool)) : State :=
  s.setPe p { s.pe p with queues := tabSet (fun _ => TxQueue.reset) (s.pe p).queues q ⟨l⟩ }

/-- The head of a queue: its oldest descriptor that is not completed. -/
def State.txHead (s : State) (p q : Nat) : Option Nat := ((s.txq p q).find? (fun d => !d.2)).map (fun d => d.1)

/-- Whether a descriptor holds its frame until a launch time. -/
def State.txHeld (s : State) (d : Nat) : Bool := (s.rd32 (d + 4)).testBit 16

/-- Whether the head frame of a queue is due (R51, R52). -/
def State.txDue (s : State) (p q : Nat) : Bool :=
  match s.txHead p q with
  | none => false
  | some d => !s.txHeld d || reached (s.rd32 (d + 8)) s.now

/-- The queue that starts: of those whose heads are due, the highest number (R51). -/
def State.txChoice (s : State) (p : Nat) : Option Nat := ((List.range 8).filter (fun q => s.txDue p q)).getLast?

/-- A due head frame started when the port is free and its link up; `onTime` at the launch time itself, else a frame with a
launch time counts LATE (R51, R52). -/
def State.txStart (s : State) (p : Nat) (onTime : Bool) : State :=
  if (s.pe p).sending.isSome || !s.flag (PE_P_CTL_EN p) || !s.flag (PE_P_STAT_LINK p) then s else
  match s.txChoice p with
  | none => s
  | some q =>
    match s.txHead p q with
    | none => s
    | some d =>
      let late := s.txHeld d && !onTime
      let n := s.rd32 (d + 4) % 2048
      let body := s.rdBytes (s.rd32 d) n
      let frame := body ++ List.replicate (60 - n) 0
      let t := s.setPe p { s.pe p with sending := some (q, d, late), sent := frame }
      if late then t.incFld (PE_Q_STAT_LATE p q) else t

/-- A write of PE_Pp_Qq_PUSH: the outcomes of R365. -/
def State.txPush (s : State) (i : Initiator) (p q : Nat) (v : Word) : State :=
  let a := v.toNat
  let w := s.rd32 (a + 4)
  let len := w % 2048
  let bad := a % 32 != 0 || decide (len < 14) || decide (1518 < len) || w - len != (w / 65536 % 2) * 65536 || s.rd32 (a + 0xC) != 0
  if !s.flag (PE_P_CTL_EN p) then s.peOutcome i (PE_Q_PUSH p q) 4
  else if bad then s.peOutcome i (PE_Q_PUSH p q) 3
  else if 64 ≤ (s.txq p q).length then s.peOutcome i (PE_Q_PUSH p q) 2
  else (((s.wr32 (a + 0x10) 0).setTxq p q (s.txq p q ++ [(a, false)])).peOutcome i (PE_Q_PUSH p q) 1).txStart p false

/-- A read of PE_Pp_Qq_POP (R365). -/
def State.txPop (s : State) (p q : Nat) : State :=
  match s.txq p q with
  | (a, true) :: ds => (s.setTxq p q ds).answer (BitVec.ofNat 32 a)
  | _ => s.answer 0

/-! ### Interrupts (R361, R362) -/

/-- A write-one clear of GLB_HIRQ_STAT: a masked vector's PBA bit follows (R361). -/
def State.hirqClear (s : State) (v : Word) : State :=
  let t := s.setReg GLB_HIRQ_STAT (s.reg GLB_HIRQ_STAT &&& ~~~v)
  { t with host := { t.host with pba := t.host.pba &&& ~~~v } }

/-- A write of GLB_HDB (R362). -/
def State.doorbell (s : State) (v : Word) : State :=
  (List.range 8).foldl (fun (t : State) k => if v.getLsbD k then t.cause (8 + k) else t) s

/-! ### Writes to the register blocks -/

/-- Writes to GLB. -/
def State.writeGLB (s : State) (i : Initiator) (a : Nat) (v : Word) : State :=
  if a = GLB_PWR_REQ then s.pwrWrite i v
  else if a = GLB_WAKE_AT_HI then s.via (execAlarmArm i v)
  else if a = GLB_RST then s.via (execSoftwareReset i v)
  else if a = GLB_WDT_CTL then s.wdtCtl i v
  else if a = GLB_WDT_KICK then s.via (execWatchdogKick i v)
  else if a = GLB_HIRQ_STAT then s.hirqClear v
  else if a = GLB_HDB then s.doorbell v
  else s.plainWrite i a v

/-- Writes to CT. -/
def State.writeCT (s : State) (i : Initiator) (a : Nat) (v : Word) : State :=
  let n := a % 0x100 / 16
  if a = CT_INCRI then s.writeIncri v
  else if a = CT_INCR then s.writeIncr v
  else if a = CT_SLEW then s.writeSlew v
  else if a = CT_CTL then (s.plainWrite i a v).refreshApplied
  else if a = CT_SLEW_CTL then s.writeSlewCtl v
  else if a = CT_STEP_LO then s.setReg CT_STEP_LO v
  else if a = CT_STEP_HI then s.writeStep v
  else if 0x10100 ≤ a ∧ a < 0x10200 ∧ a % 16 = 0 then s.writeTmrTgt n v
  else if 0x10100 ≤ a ∧ a < 0x10200 ∧ a % 16 = 8 then s.writeTmrCtl i n v
  else if 0x10200 ≤ a ∧ a < 0x10280 ∧ a % 16 = 8 then s.writeWinCtl i n v
  else s.plainWrite i a v

/-- Writes to HAL. -/
def State.writeHAL (s : State) (i : Initiator) (a : Nat) (v : Word) : State :=
  let c := a % 0x100 / 0x20
  let x := s.inis i
  if a = HAL_POST then s.post i v.toNat (bits v.toNat 12 2)
  else if a = HAL_PARG0 then s.setIni i { x with parg0 := v }
  else if a = HAL_PARG1 then s.setIni i { x with parg1 := v }
  else if a = HAL_PTIME then s.setIni i { x with ptime := v }
  else if a = HAL_WSIG then s.signal (v.toNat % 256) (bits v.toNat 8 16)
  else if 0x20100 ≤ a ∧ a < 0x20180 ∧ a % 0x20 = 0x14 then s.via (execDone i ⟨c % 4, Nat.mod_lt _ (by decide)⟩)
  else if 0x20100 ≤ a ∧ a < 0x20180 ∧ a % 0x20 = 0x18 then (s.plainWrite i a v).judgeSvc (c % 4)
  else s.plainWrite i a v

/-- Writes to JC: the shadows are forwarded (R227). -/
def State.writeJC (s : State) (i : Initiator) (a : Nat) (v : Word) : State :=
  let k := (a - 0x30000) / 0x100
  let n := (a - 0x34000) / 0x100
  if a < 0x34000 then
    (if a % 0x100 = 0 then s.writeJointCmd k (v.toNat % 8)
     else if (shadowJoint a).isSome then s.fwdWrite i a (leBytes 4 v.toNat)
     else s.plainWrite i a v)
  else if a < 0x34800 then
    (if a % 0x100 = 0 then s.writeArmCmd n (v.toNat % 16)
     else if a % 0x100 = 0x28 then s.writeApply n v
     else if a % 0x100 = 0x30 then s.commitHorizon n
     else if shadowArm a then s.fwdWrite i a (leBytes 4 v.toNat)
     else s.plainWrite i a v)
  else s

/-- Writes to SE. -/
def State.writeSE (s : State) (i : Initiator) (a : Nat) (v : Word) : State :=
  let e := (a - 0x40000) / 0x2000
  if a % 0x2000 = 0x24 then (if v.getLsbD 0 then s.setFld (SE_MINSLACK_MINSLACK e) 0xFFFF else s)
  else if a % 0x2000 = 0x30 then s.writeDbg e v.toNat
  else if a % 0x2000 = 0x38 then s.dbgWrite e v
  else s.plainWrite i a v

/-- Writes to SH. A CLEAR finds the wires as they last read back. -/
def State.writeSH (s : State) (i : Initiator) (a : Nat) (v : Word) : State :=
  let n := (a - 0x70100) / 0x40
  let m := (a - 0x70600) / 0x10
  if a = SH_APPLY then s.shApply v
  else if (shadowCap a).isSome then s.fwdWrite i a (leBytes 4 v.toNat)
  else if 0x70100 ≤ a ∧ a < 0x70300 ∧ a % 0x40 = 0x34 then (if v.getLsbD 0 then s.shRelease n else s)
  else if 0x70600 ≤ a ∧ a < 0x70620 ∧ a % 0x10 = 0xC then
    (if v.getLsbD 0 then s.soClear m (s.flag (SH_SO_STAT_RBA m)) (s.flag (SH_SO_STAT_RBB m)) else s)
  else s.plainWrite i a v

/-- Writes to TL. -/
def State.writeTL (s : State) (i : Initiator) (a : Nat) (v : Word) : State :=
  let n := (a - 0x80000) / 0x1000
  if 8 ≤ n then s.plainWrite i a v
  else if a % 0x1000 = 0 then s.writeLctl i n v
  else if a % 0x1000 = 0x100 ∧ v.getLsbD 0 then s.mbGo n (bits v.toNat 1 2) v
  else s.plainWrite i a v

/-- Writes to PR_CMD: the commands in the order of the bits. -/
def State.writePR (s : State) (i : Initiator) (a : Nat) (v : Word) : State :=
  if a = PR_CMD then
    let s := if v.getLsbD 0 then s.via (execHandover i) else s
    let s := if v.getLsbD 1 then s.via (execPairHalt i) else s
    let s := if v.getLsbD 2 then s.via (execUnhalt i) else s
    if v.getLsbD 3 then s.via (execJoin i) else s
  else s.plainWrite i a v

/-- Writes to PW and AD. -/
def State.writePW (s : State) (i : Initiator) (a : Nat) (v : Word) : State :=
  let g := (a - 0xA0100) / 0x40
  if 0xA0100 ≤ a ∧ a < 0xA0300 then
    (if a = PW_G_CTL g then s.pwCtl i g v
     else if a = PW_G_CMD g then s.pwCmd g v
     else if (pwShadowRegs g).contains a then s.pwShadow i g a v
     else s.plainWrite i a v)
  else s.plainWrite i a v

/-- Writes to FB and ST. -/
def State.writeFB (s : State) (i : Initiator) (a : Nat) (v : Word) : State :=
  let p := (a - 0xB0000) / 0x40
  let k := (a - 0xB8000) / 0x80
  if a < 0xB0200 then
    (if a = FB_P_POS p then s.countSet p v.toNat
     else if a = FB_P_CMP p then s.cmpWrite (fbCmp p) v.toNat (s.fld (FB_P_POS_V p)) (s.eisNow p)
     else s.plainWrite i a v)
  else if 0xB8000 ≤ a ∧ a < 0xB8400 then
    (if a = ST_S_CMD k then s.stCmd k (v.toNat % 8)
     else if a = ST_S_POS k then s.stPosWrite k v.toNat
     else if a = ST_S_DLIM k then s.dlimWrite k v.toNat
     else if [ST_S_TGT k, ST_S_VLIM k, ST_S_ALIM k, ST_S_PMIN k, ST_S_PMAX k].contains a then s.stValue i k a v
     else if a = ST_S_CMP k then s.axisCmp k v.toNat
     else s.plainWrite i a v)
  else s.plainWrite i a v

/-- Writes to FI. -/
def State.writeFI (s : State) (i : Initiator) (a : Nat) (v : Word) : State :=
  if a = FI_CMD then (if v.getLsbD 0 then s.via (execVfrearm i) else s)
  else if a = FI_DO_SET then s.via (execDoSet i v)
  else if a = FI_DO_RES then s.via (execDoRes i v)
  else s.plainWrite i a v

/-- Writes to CN: the buffer's registers are fixed while its transmission is pending or active. -/
def State.writeCN (s : State) (i : Initiator) (a : Nat) (v : Word) : State :=
  let k := (a - 0xD0000) / 0x1000 % 4
  let b := (a % 0x1000 - 0x100) / 0x80 % 3
  let kf : Fin 4 := ⟨k, Nat.mod_lt _ (by decide)⟩
  let bf : Fin 3 := ⟨b, Nat.mod_lt _ (by decide)⟩
  if 0xD4000 ≤ a then s
  else if a % 0x1000 = 0 then s.canCtl i k v
  else if a % 0x1000 = 0x14 then
    let s := if v.getLsbD 0 then s.via (execRecover i kf) else s
    if v.getLsbD 1 then s.via (execRxunlock i kf) else s
  else if 0x100 ≤ a % 0x1000 ∧ a % 0x1000 < 0x280 then
    (if a = CN_TX_CMD k b then
       let s := if v.getLsbD 0 then s.via (execReq i kf bf) else s
       if v.getLsbD 1 then s.via (execAbort i kf bf) else s
     else if s.txState k b = 1 ∨ s.txState k b = 2 then s
     else s.plainWrite i a v)
  else s.plainWrite i a v

/-- Writes to PE. -/
def State.writePE (s : State) (i : Initiator) (a : Nat) (v : Word) : State :=
  let p := (a - 0xE0000) / 0x1000
  let q := (a % 0x1000 - 0x100) / 0x10
  if 2 ≤ p then s.plainWrite i a v
  else if a = PE_P_RXPUSH p then s.rxPushBuf i p v
  else if 0x100 ≤ a % 0x1000 ∧ a % 0x1000 < 0x180 ∧ a % 0x10 = 0 then s.txPush i p q v
  else s.plainWrite i a v

/-- Writes to RG. -/
def State.writeRG (s : State) (i : Initiator) (a : Nat) (v : Word) : State :=
  if a = RG_CMD then s.rgCmd v.toNat
  else if a = RG_FL_CMD then s.flCmd (v.toNat % 4)
  else s.plainWrite i a v

/-- A write to a register of a block whose domain is on. -/
def State.writeOn (s : State) (i : Initiator) (a : Nat) (v : Word) : State :=
  match a / 0x10000 with
  | 0 => s.writeGLB i a v
  | 1 => s.writeCT i a v
  | 2 => s.writeHAL i a v
  | 3 => s.writeJC i a v
  | 4 => s.writeSE i a v
  | 5 => if a = SP_SUBMIT then s.submit i v.toNat else s.plainWrite i a v
  | 6 => if a = CV_REQ then s.cvAccept i v.toNat else s.plainWrite i a v
  | 7 => s.writeSH i a v
  | 8 => s.writeTL i a v
  | 9 => s.writePR i a v
  | 10 => s.writePW i a v
  | 11 => s.writeFB i a v
  | 12 => s.writeFI i a v
  | 13 => s.writeCN i a v
  | 14 => s.writePE i a v
  | 15 => s.writeRG i a v
  | _ => s

/-- A write of an aligned word to a register (R6, R8, R359). -/
def State.regWrite (s : State) (i : Initiator) (a : Nat) (v : Word) : State := s.gated i a (fun s => (s.fbFor a).writeOn i a v)

/-! ### Reads of the register blocks -/

/-- A field of a word that a read computes. -/
def withFld (w : Word) (f : Fld) (x : Nat) : Word := BitVec.ofNat 32 (putBits w.toNat f.lo f.width x)

/-- What GLB reads. -/
def State.viewGLB (s : State) (a : Nat) : Word :=
  let w := s.plainValue a
  if a = GLB_FAULT_SUM then
    BitVec.ofNat 32 ((List.range 8).foldl (fun m k => m + b2n (s.reg (GLB_FAULT_STICKY k) != 0) * 2 ^ k) 0)
  else if a = GLB_LOG_STAT then
    withFld (withFld w GLB_LOG_STAT_TOTAL s.log.total) GLB_LOG_STAT_FILLED s.log.entries.length
  else if 0x26C ≤ a ∧ a < 0x27C then
    (match s.log.entries[s.fld GLB_LOG_SEL_SEL]? with
     | some e => BitVec.ofNat 32 (e.words.getD ((a - 0x26C) / 4) 0)
     | none => 0)
  else if a = GLB_WDT_LEFT then BitVec.ofNat 32 (ceilDiv s.wdtNow 1000000 % 65536)
  else w

/-- What CT reads. -/
def State.viewCT (s : State) (i : Initiator) (a : Nat) : Word :=
  let w := s.plainValue a
  if a = CT_STAT then withFld (withFld w CT_STAT_EFFSRC s.effSrc) CT_STAT_SLEWING (b2n (s.time.slew != 0))
  else if a = CT_NOW_HI then (s.inis i).nowHi
  else if a = CT_SLEW_REM then BitVec.ofInt 32 (s.time.slew.tdiv (2 ^ 32))
  else w

/-- What HAL reads. -/
def State.viewHAL (s : State) (i : Initiator) (a : Nat) : Word :=
  let w := s.plainValue a
  let c := (a - 0x20100) / 0x20
  let f := (a - 0x20C00) / 4
  let o := s.wobj ((a - 0x21000) / 4)
  if a = HAL_STAT then withFld (withFld w HAL_STAT_FREE s.freeSlots) HAL_STAT_DELAYS s.delaysUsed
  else if a = HAL_POST then BitVec.ofNat 32 (s.inis i).halOut
  else if a = HAL_PARG0 then (s.inis i).parg0
  else if a = HAL_PARG1 then (s.inis i).parg1
  else if a = HAL_PTIME then (s.inis i).ptime
  else if 0x20100 ≤ a ∧ a < 0x20180 ∧ a % 0x20 = 0x1C then
    (match s.serv c with
     | some x => withFld (withFld w (HAL_C_STAT_STATE c) 1) (HAL_C_STAT_SVC c) (s.svcTime x)
     | none => withFld w (HAL_C_STAT_STATE c) (if s.flag (HAL_C_CTL_EN c) then 0 else 2))
  else if 0x20C00 ≤ a ∧ a < 0x21000 then
    BitVec.ofNat 32 ((s.hal.ready.filter (fun x => x.flow == f)).length + 8192 * (s.inService.filter (fun x => x.flow == f)).length +
      65536 * b2n (s.flowBusy f) + 2 ^ 20 * min 4095 (s.flowHeld f))
  else if 0x21000 ≤ a ∧ a < 0x21400 then BitVec.ofNat 32 (o.count + 65536 * o.queue.length)
  else w

/-- What SP reads. -/
def State.viewSP (s : State) (i : Initiator) (a : Nat) : Word :=
  let w := s.plainValue a
  if a = SP_STAT then BitVec.ofNat 32 s.spStat
  else if a = SP_LANEMASK then BitVec.ofNat 32 s.spMask
  else if a = SP_SUBMIT then BitVec.ofNat 32 (s.inis i).spOut
  else if 0x50400 ≤ a ∧ a < 0x50800 then
    withFld w (SP_SLOT_STAT_RESIDENT ((a - 0x50400) / 4)) (s.spResident ((a - 0x50400) / 4))
  else if 0x50C00 ≤ a ∧ a < 0x50C80 then withFld w (SP_LANE_STAT_STATE ((a - 0x50C00) / 4)) (s.spLaneState ((a - 0x50C00) / 4))
  else w

/-- What CV reads. -/
def State.viewCV (s : State) (i : Initiator) (a : Nat) : Word :=
  if a = CV_STAT then BitVec.ofNat 32 s.cvStat
  else if a = CV_REQ then BitVec.ofNat 32 (s.inis i).cvOut
  else if a = CV_BRICK_DATA then BitVec.ofNat 32 s.brickWord
  else if 0x60100 ≤ a ∧ a < 0x60120 then BitVec.ofNat 32 (s.cvArmStat ((a - 0x60100) / 4))
  else s.plainValue a

/-- What FB and ST read. -/
def State.viewFB (s : State) (a : Nat) : Word :=
  let p := (a - 0xB0000) / 0x40
  let k := (a - 0xB8000) / 0x80
  if a < 0xB0200 ∧ a % 0x40 = 0x10 then BitVec.ofInt 32 (s.eisNow p)
  else if a < 0xB0200 ∧ a % 0x40 = 0x1C ∧ s.fld (FB_P_CFG_MODE p) = 2 then
    withFld (s.plainValue a) (FB_P_STAT_HALL p) (hallCode (s.port p))
  else if 0xB8000 ≤ a ∧ a < 0xB8400 ∧ a % 0x80 = 0xC then BitVec.ofInt 32 (s.stPosNow k)
  else s.plainValue a

/-- What PE reads (R364, R365). -/
def State.viewPE (s : State) (i : Initiator) (a : Nat) : Word :=
  let p := (a - 0xE0000) / 0x1000
  let q := (a % 0x1000 - 0x100) / 0x10
  let w := s.plainValue a
  if 2 ≤ p then w
  else if a = PE_P_RXPUSH p then BitVec.ofNat 32 (tabGet (fun _ => 0) (s.inis i).peOut a)
  else if a = PE_P_RXSTAT p then
    withFld (withFld w (PE_P_RXSTAT_FREE p) (s.pe p).free.length) (PE_P_RXSTAT_FILLED p) (s.pe p).filled.length
  else if 0x100 ≤ a % 0x1000 ∧ a % 0x1000 < 0x180 ∧ a % 0x10 = 0 then BitVec.ofNat 32 (tabGet (fun _ => 0) (s.inis i).peOut a)
  else if 0x100 ≤ a % 0x1000 ∧ a % 0x1000 < 0x180 ∧ a % 0x10 = 4 then
    withFld (withFld w (PE_Q_STAT_USED p q) (s.txq p q).length) (PE_Q_STAT_FULL p q) (b2n (decide (64 ≤ (s.txq p q).length)))
  else w

/-- The value that an initiator's read of a register returns. -/
def State.regView (s : State) (i : Initiator) (a : Nat) : Word :=
  match a / 0x10000 with
  | 0 => s.viewGLB a
  | 1 => s.viewCT i a
  | 2 => s.viewHAL i a
  | 4 => if a % 0x2000 = 0x38 then s.dbgValue ((a - 0x40000) / 0x2000) else s.plainValue a
  | 5 => s.viewSP i a
  | 6 => s.viewCV i a
  | 8 => if a < 0x88000 ∧ a % 0x1000 = 0x1C then BitVec.ofNat 32 (s.wakeOff ((a - 0x80000) / 0x1000)) else s.plainValue a
  | 11 => s.viewFB a
  | 12 =>
    if a = FI_DIRAW then BitVec.ofNat 32 ((List.range 32).foldl (fun m k => m + b2n (s.rawLevel k) * 2 ^ k) 0)
    else if a = FI_DO_STAT then BitVec.ofNat 32 s.doStat
    else s.plainValue a
  | 14 => s.viewPE i a
  | 15 =>
    if a = RG_ROLL then BitVec.ofNat 32 s.rig.roll
    else if a = RG_OTP then
      BitVec.ofNat 32 (s.rig.keyset.toNat + 16 * s.rig.keyrev.toNat + 256 * b2n s.rig.keylock)
    else s.plainValue a
  | _ => s.plainValue a

/-- A read of a register of a block whose domain is on: those with an effect, the others by their access types (R7). -/
def State.readOn (s : State) (i : Initiator) (a : Nat) : State :=
  let c := (a - 0x20100) / 0x20
  let k : Fin 4 := ⟨(a - 0xD0000) / 0x1000 % 4, Nat.mod_lt _ (by decide)⟩
  if a = CT_NOW_LO then s.readNowLo i
  else if 0x10400 ≤ a ∧ a < 0x10600 ∧ a % 16 = 4 then s.readLatFrac ((a - 0x10400) / 16)
  else if 0x20100 ≤ a ∧ a < 0x20180 ∧ a % 0x20 = 0 then s.readItem0 c
  else if a = FI_COS0 then s.via (execCos0Read i)
  else if a = FI_COS1 then s.via (execCos1Read i)
  else if 0xA8100 ≤ a ∧ a < 0xA8280 ∧ a % 0x10 = 4 then s.readRes ((a - 0xA8100) / 0x10)
  else if h : 0xD0000 ≤ a ∧ a < 0xD4000 ∧ 0x400 ≤ a % 0x1000 ∧ a % 0x1000 < 0x44C ∧ a % 4 = 0 then
    s.via (execRxwRead i k ⟨(a % 0x1000 - 0x400) / 4, by omega⟩)
  else if 0xE0000 ≤ a ∧ a < 0xE2000 ∧ a % 0x1000 = 0x24 then s.rxPopBuf ((a - 0xE0000) / 0x1000)
  else if 0xE0000 ≤ a ∧ a < 0xE2000 ∧ 0x100 ≤ a % 0x1000 ∧ a % 0x1000 < 0x180 ∧ a % 0x10 = 8 then
    s.txPop ((a - 0xE0000) / 0x1000) ((a % 0x1000 - 0x100) / 0x10)
  else (s.answer (s.regView i a)).clearRc a

/-- A read of an aligned word of a register (R7, R8, R359). -/
def State.regRead (s : State) (i : Initiator) (a : Nat) : State := (s.answer 0).gated i a (fun s => (s.fbFor a).readOn i a)

/-! ### The memory regions -/

/-- The canonical address of a core's view: its own TCM alias at 0x1000_0000 (the cores' memory table, R266). -/
def tcmOf (i : Initiator) (a : Nat) : Nat :=
  if 0x10000000 ≤ a ∧ a < 0x10040000 then
    match i with
    | .ac c => a + 0x1000000 + 0x40000 * c.val
    | .sc c => a + 0x2000000 + 0x40000 * c.val
    | .host => a
  else a

/-- The reservations of application cores that a store of another initiator to their word ends (R263). -/
def State.endResv (s : State) (i : Initiator) (a n : Nat) : State :=
  { s with cores := { s.cores with resv := s.cores.resv.filter (fun e =>
      i == .ac (Fin.ofNat 4 e.1) || decide (e.2 + 4 ≤ a) || decide (a + n ≤ e.2)) } }

/-- A write to a TCM at its canonical address; `own` by the own-alias path (R266, R267). The host reaches none (R355). -/
def State.tcmWrite (s : State) (i : Initiator) (own : Bool) (a : Nat) (bs : List Byte) : State :=
  if 0x11000000 ≤ a ∧ a < 0x11100000 then (if i = .host then s else (s.wrBytes a bs).endResv i a bs.length)
  else if 0x12000000 ≤ a ∧ a < 0x12080000 then
    (if own then s.wrBytes a bs
     else match i with
       | .sc _ => s
       | _ => s.sticky 39 i.num a)
  else s

/-- An aligned access of 1, 2, 4 or 8 bytes. -/
def alignedAccess (a n : Nat) : Bool := (n == 1 || n == 2 || n == 4 || n == 8) && a % n == 0

/-- A write to a servo engine's memory (R81, R82). -/
def State.seWrite (s : State) (i : Initiator) (a : Nat) (bs : List Byte) : State :=
  match seOf a with
  | none => if s.underWay then s else s.wrBytes a bs
  | some x => if x.2 < 0x4000 then s.setFld (SE_STAT_HOSTW x.1) 1 else s.fwdWrite i a bs

/-- A write to DRAM: through the cache of an application core (R264), with the areas of R105 closed. -/
def State.dramStore (s : State) (i : Initiator) (a : Nat) (bs : List Byte) : State :=
  match i with
  | .ac c => s.cacheBytes c.val a bs
  | _ => s.dramWrite i.num a bs

/-- A write to a memory region whose domain is on. -/
def State.memOn (s : State) (i : Initiator) (a : Nat) (bs : List Byte) : State :=
  if a < 0x01000000 then s
  else if a < 0x01200000 then s.seWrite i a bs
  else if 0x04000000 ≤ a ∧ a < 0x06000000 then s.sticky 38 i.num a
  else if 0x08000000 ≤ a ∧ a < 0x09000000 then (s.mirWrite i a bs).endResv i a bs.length
  else if 0x40000000 ≤ a ∧ a < 0x50000000 then s.dramStore i a bs
  else s.tcmWrite i (decide (a < 0x10040000)) (tcmOf i a) bs

/-- A write of an aligned access to a memory region (R5, R355, R359): an unlisted address is no region and no domain. -/
def State.memWrite (s : State) (i : Initiator) (a : Nat) (bs : List Byte) : State :=
  if alignedAccess a bs.length then s.gated i a (fun s => s.memOn i a bs) else s

/-- Whether an address is in a region whose bytes the spec does not describe: the lane memories and the instance area. -/
def State.opaqueMem (s : State) (a : Nat) : Bool :=
  (decide (0x02000000 ≤ a) && decide (a < 0x02800000)) ||
  (decide (s.fld SP_INSTBASE_INSTBASE ≤ a) && decide (a < s.fld SP_INSTBASE_INSTBASE + 0x800000))

/-- Whether an initiator reads memory at an address (R355, the cores' memory table). -/
def readable (i : Initiator) (a : Nat) : Bool :=
  (decide (0x01000000 ≤ a) && decide (a < 0x01200000)) || (decide (0x02000000 ≤ a) && decide (a < 0x02800000)) ||
  (decide (0x04000000 ≤ a) && decide (a < 0x06000000)) || (decide (0x08000000 ≤ a) && decide (a < 0x09000000)) ||
  (decide (0x40000000 ≤ a) && decide (a < 0x50000000)) ||
  (i != .host && ((decide (0x11000000 ≤ a) && decide (a < 0x11100000)) || (decide (0x12000000 ≤ a) && decide (a < 0x12080000))))

/-- `n` bytes of a memory region whose domain is on, as an initiator reads them: open values where the spec describes no contents. -/
def State.memBytes (s : State) (i : Initiator) (a n : Nat) : List Byte × State :=
  if s.opaqueMem a then
    let d := s.draw 64
    (leBytes n d.1.toNat, d.2)
  else if inMap a then s.mapBytes a n
  else
    let t := match i with
      | .ac c => if isDram a then s.cacheLoad c.val a else s
      | _ => s
    ((List.range n).map (fun j =>
      if readable i (tcmOf i (a + j)) then
        (match i with
         | .ac c => if isDram (a + j) then t.cacheRead c.val (a + j) else t.rdB (tcmOf i (a + j))
         | _ => t.rdB (tcmOf i (a + j)))
      else 0), t)

/-- What a read of an uncorrectable word does, if the access meets one (R371): a core's exception, the sticky bit, the halt of a safety core. The line
that an application core has in its cache serves it without a read of DRAM. -/
def State.eccRead (s : State) (i : Initiator) (a n : Nat) : Option State :=
  let inCache := match i with | .ac c => isDram a && (s.findLine c.val a).isSome | _ => false
  if inCache || !readable i (tcmOf i a) then none
  else match s.eccHit (tcmOf i a) n with
  | none => none
  | some w =>
    let s := if i = .host then s else s.raise i .loadFault
    if 0x08000000 ≤ w ∧ w < 0x09000000 then some (s.sticky 32 i.num w)
    else if isDram w then some (s.sticky 33 i.num w)
    else if 0x11000000 ≤ w ∧ w < 0x11100000 then some (s.sticky 34 ((w - 0x11000000) / 0x40000) (w % 0x40000))
    else if 0x12000000 ≤ w ∧ w < 0x12080000 then
      let c := (w - 0x12000000) / 0x40000
      let t := s.sticky 34 (4 + c) (w % 0x40000)
      some (if t.scHalted c then t else t.haltSafety c 0)
    else none

/-- A read of an aligned access to a memory region: the bytes go to `burst`. -/
def State.memRead (s : State) (i : Initiator) (a n : Nat) : State :=
  let s := { s with burst := s.burst ++ List.replicate n 0 }
  if alignedAccess a n then
    s.gated i a (fun s =>
      match s.eccRead i a n with
      | some t => t
      | none =>
        let r := s.memBytes i a n
        { r.2 with burst := s.burst.take (s.burst.length - n) ++ r.1 })
  else s

/-- A read's word answered from the bytes that it returned. -/
def State.fromBurst (s : State) : State := s.answer (BitVec.ofNat 32 (leNat s.burst))

/-! ### Accesses (R5, R231, R233, R358) -/

/-- Whether an initiator waits on a write of its own (R231, R233, R358): it sends nothing until that write proceeds. -/
def State.stuck (s : State) (i : Initiator) : Bool :=
  s.pair.stalled.any (fun w => w.ini == i) || s.pair.fwdWait.any (fun w => w.ini == i)

/-- A write access of some bytes as the device meets it (R5). -/
def State.devWrite (s : State) (i : Initiator) (a : Nat) (bs : List Byte) : State :=
  if s.stuck i then s
  else if a < 0x100000 then
    (if bs.length = 4 ∧ a % 4 = 0 then s.regWrite i a (BitVec.ofNat 32 (leNat bs)) else s.sticky 0 i.num a)
  else s.memWrite i a bs

/-- A read access of some bytes as the device meets it (R5). -/
def State.devRead (s : State) (i : Initiator) (a n : Nat) : State :=
  if s.stuck i then s
  else if a < 0x100000 then (if n = 4 ∧ a % 4 = 0 then s.regRead i a else (s.answer 0).sticky 0 i.num a)
  else ({ s with burst := [] }.memRead i a n).fromBurst

/-! ### A core's loads and stores (R263, R265) -/

/-- The kinds of a core's access. -/
inductive Access where
  | load
  | store
  | reserve
  | atomic
  deriving DecidableEq, Repr

/-- Whether an address lies in the memory that the cores see (the cores' memory table, R266). -/
def coreSees (i : Initiator) (a : Nat) : Bool := decide (a < 0x100000) || readable i (tcmOf i a)

/-- Whether a core's atomic instructions work at an address: general SRAM and its own TCM (R263). -/
def atomicAt (i : Initiator) (a : Nat) : Bool :=
  (decide (0x08000000 ≤ a) && decide (a < 0x09000000)) ||
  (match i with
   | .ac c => decide (0x11000000 + 0x40000 * c.val ≤ tcmOf i a) && decide (tcmOf i a < 0x11040000 + 0x40000 * c.val)
   | _ => false)

/-- Whether privilege permits an access: in machine mode every one, in user mode one that a PMP entry permits (R265, R266). -/
def State.permits (s : State) (i : Initiator) (k : Access) (a n : Nat) : Bool :=
  match i with
  | .ac c =>
    !(tabGet (fun _ => false) s.cores.user c) ||
    (tabGet (fun _ => []) s.cores.pmp c).any (fun e =>
      decide (e.lo ≤ a) && decide (a + n ≤ e.hi) && (if k = .load ∨ k = .reserve then e.r else e.w && (e.r || k == .store)))
  | _ => true

/-- The exception that an access of a core raises, if any; the host raises none (R263, R265). -/
def State.coreExc (s : State) (i : Initiator) (k : Access) (a n : Nat) : Option CoreExc :=
  let loads := k == .load || k == .reserve
  let fault : CoreExc := if loads then .loadFault else .storeFault
  if i = .host then none
  else if a % n ≠ 0 then some (if loads then .loadMisaligned else .storeMisaligned)
  else if !s.permits i k a n then some fault
  else if (k == .reserve || k == .atomic) && !atomicAt i a then some .storeFault
  else if !coreSees i a then some fault
  else none

/-- A write of an initiator: the exception that it raises, or the store; a misaligned register access sets BUS_SIZE all the same (R5). -/
def State.busWrite (s : State) (i : Initiator) (a : Nat) (bs : List Byte) : State :=
  match s.coreExc i .store a bs.length with
  | some e => let t := s.raise i e; if a < 0x100000 ∧ a % bs.length ≠ 0 then t.devWrite i a bs else t
  | none => s.devWrite i a bs

/-- A read of an initiator: the exception that it raises, or the load. -/
def State.busRead (s : State) (i : Initiator) (a n : Nat) : State :=
  match s.coreExc i .load a n with
  | some e => let t := s.raise i e; if a < 0x100000 ∧ a % n ≠ 0 then t.devRead i a n else t
  | none => s.devRead i a n

/-- An application core's reservation replaced. -/
def State.setResv (s : State) (c : Nat) (a : Option Nat) : State :=
  let l := s.cores.resv.filter (fun e => e.1 != c)
  { s with cores := { s.cores with resv := match a with | some x => tabSet (fun _ => 0) l c x | none => l } }

/-- What an atomic memory operation stores. -/
def amoValue (f : AmoOp) (x y : Word) : Word :=
  match f with
  | .swap => y
  | .add => x + y
  | .xor => x ^^^ y
  | .and => x &&& y
  | .or => x ||| y
  | .min => if x.slt y then x else y
  | .max => if x.slt y then y else x
  | .minu => if x < y then x else y
  | .maxu => if x < y then y else x

/-- LR: a load that reserves its word (R263). -/
def State.lr (s : State) (i : Initiator) (a : Nat) : State :=
  match i, s.coreExc i .reserve a 4 with
  | .ac c, none => (s.devRead i a 4).setResv c (some (tcmOf i a))
  | _, some e => s.raise i e
  | _, none => s

/-- SC: stored with 0 answered while the reservation stands, else 1 answered and nothing stored; the reservation ends (R263). -/
def State.sc (s : State) (i : Initiator) (a : Nat) (bs : List Byte) : State :=
  match i, s.coreExc i .atomic a 4 with
  | .ac c, none =>
    let t := s.setResv c none
    if s.cores.resv.find? (fun e => e.1 == c.val) = some (c.val, tcmOf i a) then (t.devWrite i a bs).answer 0
    else t.answer 1
  | _, some e => s.raise i e
  | _, none => s

/-- An atomic memory operation: its word read, the result stored, the word read answered (R263). -/
def State.amo (s : State) (f : AmoOp) (i : Initiator) (a : Nat) (y : Word) : State :=
  match i, s.coreExc i .atomic a 4 with
  | .ac _, none =>
    let t := s.devRead i a 4
    (t.devWrite i a (leBytes 4 (amoValue f t.data y).toNat)).answer t.data
  | _, some e => s.raise i e
  | _, none => s

/-- REGISTER_WRITE (R5, R6, R8, R355, R359). -/
def execRegisterWrite (i : Initiator) (addr : Word) (size : Nat) (v : Word) (s : State) : Out :=
  .next (s.busWrite i addr.toNat (leBytes size v.toNat))
/-- REGISTER_READ, as a load or as an LR (R5, R7, R8, R263, R265, R355, R359). -/
def execRegisterRead (i : Initiator) (addr : Word) (k : LoadKind) (s : State) : Out :=
  .next (if k.reserve then s.lr i addr.toNat else s.busRead i addr.toNat k.size)
/-- MEMORY_WRITE, as a store, an SC or an atomic memory operation (R81, R82, R105, R126, R231 to R233, R263 to R265, R267). -/
def execMemoryWrite (i : Initiator) (addr : Word) (d : StoreData) (s : State) : Out :=
  .next (match d.op with
    | .plain => s.busWrite i addr.toNat d.data
    | .cond => s.sc i addr.toNat d.data
    | .amo f => s.amo f i addr.toNat (BitVec.ofNat 32 (leNat d.data)))

end Sys2Proof.Machine
end

