-- ==== Sys2Proof/Machine/EngineCmd.lean ====
section
/-! DEFINITION. The command rows of the servo engines: one per instruction (R89), and their debug (R90, R97, R99). -/

namespace Sys2Proof.Machine

/-- MPY (R89). -/
def execMpy (e : Fin 8) (c : Ctx) (a : Fin 4) (dm dn : Fin 8) (l : MLoads) (s : State) : Out := .next (s.seRow e c (.mpy a dm dn l))
/-- MAC (R89). -/
def execMac (e : Fin 8) (c : Ctx) (a : Fin 4) (dm dn : Fin 8) (l : MLoads) (s : State) : Out := .next (s.seRow e c (.mac a dm dn l))
/-- MSU (R89). -/
def execMsu (e : Fin 8) (c : Ctx) (a : Fin 4) (dm dn : Fin 8) (l : MLoads) (s : State) : Out := .next (s.seRow e c (.msu a dm dn l))
/-- CLR (R89). -/
def execClr (e : Fin 8) (c : Ctx) (a : Fin 4) (l : MLoads) (s : State) : Out := .next (s.seRow e c (.clr a l))
/-- MOVL (R89). -/
def execMovl (e : Fin 8) (c : Ctx) (l : MLoads) (s : State) : Out := .next (s.seRow e c (.movl l))
/-- ADD (R86). -/
def execAdd (e : Fin 8) (c : Ctx) (ad as : Fin 4) (s : State) : Out := .next (s.seRow e c (.add ad as))
/-- SUB (R86). -/
def execSub (e : Fin 8) (c : Ctx) (ad as : Fin 4) (s : State) : Out := .next (s.seRow e c (.sub ad as))
/-- ADDD (R89). -/
def execAddd (e : Fin 8) (c : Ctx) (ad : Fin 4) (dx : Fin 8) (sh : Fin 64) (s : State) : Out := .next (s.seRow e c (.addd ad dx sh))
/-- SHA (R86). -/
def execSha (e : Fin 8) (c : Ctx) (ad : Fin 4) (sh : BitVec 6) (s : State) : Out := .next (s.seRow e c (.sha ad sh))
/-- SHE (R87). -/
def execShe (e : Fin 8) (c : Ctx) (ad : Fin 4) (ej ek : Fin 8) (sh : BitVec 6) (s : State) : Out := .next (s.seRow e c (.she ad ej ek sh))
/-- NEG (R89). -/
def execNeg (e : Fin 8) (c : Ctx) (ad : Fin 4) (s : State) : Out := .next (s.seRow e c (.neg ad))
/-- ABS (R89). -/
def execAbs (e : Fin 8) (c : Ctx) (ad : Fin 4) (s : State) : Out := .next (s.seRow e c (.abs ad))
/-- CLMP (R89). -/
def execClmp (e : Fin 8) (c : Ctx) (ad : Fin 4) (dx dy : Fin 8) (sh : Fin 64) (s : State) : Out := .next (s.seRow e c (.clmp ad dx dy sh))
/-- CLS (R89). -/
def execCls (e : Fin 8) (c : Ctx) (dx : Fin 8) (as : Fin 4) (s : State) : Out := .next (s.seRow e c (.cls dx as))
/-- MVD (R88). -/
def execMvd (e : Fin 8) (c : Ctx) (dx : Fin 8) (as : Fin 4) (sh : Fin 64) (s : State) : Out := .next (s.seRow e c (.mvd dx as sh))
/-- MVA (R89). -/
def execMva (e : Fin 8) (c : Ctx) (ad : Fin 4) (dx : Fin 8) (sh : Fin 64) (s : State) : Out := .next (s.seRow e c (.mva ad dx sh))
/-- LD (R89). -/
def execLd (e : Fin 8) (c : Ctx) (dk : Fin 8) (m : LAddr) (s : State) : Out := .next (s.seRow e c (.ld dk m))
/-- ST (R82, R89). -/
def execSt (e : Fin 8) (c : Ctx) (dk : Fin 8) (m : LAddr) (s : State) : Out := .next (s.seRow e c (.st dk m))
/-- LDA (R89). -/
def execLda (e : Fin 8) (c : Ctx) (ak : Fin 4) (m : LAddr) (s : State) : Out := .next (s.seRow e c (.lda ak m))
/-- STA (R88). -/
def execSta (e : Fin 8) (c : Ctx) (ak : Fin 4) (m : LAddr) (s : State) : Out := .next (s.seRow e c (.sta ak m))
/-- LDE (R87). -/
def execLde (e : Fin 8) (c : Ctx) (ek : Fin 8) (m : LAddr) (s : State) : Out := .next (s.seRow e c (.lde ek m))
/-- LDP (R89). -/
def execLdp (e : Fin 8) (c : Ctx) (pk : Fin 8) (m : LAddr) (s : State) : Out := .next (s.seRow e c (.ldp pk m))
/-- MVR (R84). -/
def execMvr (e : Fin 8) (c : Ctx) (dst src : BitVec 6) (s : State) : Out := .next (s.seRow e c (.mvr dst src))
/-- LDI (R89). -/
def execLdi (e : Fin 8) (c : Ctx) (dst : BitVec 6) (imm : BitVec 16) (s : State) : Out := .next (s.seRow e c (.ldi dst imm))
/-- CLRS (R89). -/
def execClrs (e : Fin 8) (c : Ctx) (s : State) : Out := .next (s.seRow e c .clrs)
/-- BR (R89). -/
def execBr (e : Fin 8) (c : Ctx) (cond : Fin 16) (tgt : BitVec 14) (s : State) : Out := .next (s.seRow e c (.br cond tgt))
/-- CALL (R89). -/
def execCall (e : Fin 8) (c : Ctx) (tgt : BitVec 14) (s : State) : Out := .next (s.seRow e c (.call tgt))
/-- RET (R89). -/
def execRet (e : Fin 8) (c : Ctx) (s : State) : Out := .next (s.seRow e c .ret)
/-- DBNZ (R89). -/
def execDbnz (e : Fin 8) (c : Ctx) (dd : Fin 8) (tgt : BitVec 14) (s : State) : Out := .next (s.seRow e c (.dbnz dd tgt))
/-- REP (R90). -/
def execRep (e : Fin 8) (c : Ctx) (creg : Bool) (dd : Fin 8) (count : Fin 512) (s : State) : Out := .next (s.seRow e c (.rep creg dd count))
/-- CEND (R92, R93). -/
def execCend (e : Fin 8) (c : Ctx) (s : State) : Out := .next (s.seRow e c .cend)
/-- BEND (R93, R94). -/
def execBend (e : Fin 8) (c : Ctx) (s : State) : Out := .next (s.seRow e c .bend)
/-- NOP (R89). -/
def execNop (e : Fin 8) (c : Ctx) (s : State) : Out := .next (s.seRow e c .nop)
/-- TRAP (R89). -/
def execTrap (e : Fin 8) (c : Ctx) (code : BitVec 16) (s : State) : Out := .next (s.seRow e c (.trap code))
/-- HALTREQ (R99). -/
def execHaltreq (i : Initiator) (e : Fin 8) (s : State) : Out := .next (s.gated i (SE_DBG e) fun s => s.dbgHalt e)
/-- DEBUG_RESUME (R99). -/
def execDebugResume (i : Initiator) (e : Fin 8) (s : State) : Out := .next (s.gated i (SE_DBG e) fun s => s.dbgResume e)
/-- DEBUG_STEP (R90). -/
def execDebugStep (i : Initiator) (e : Fin 8) (s : State) : Out := .next (s.gated i (SE_DBG e) fun s => s.dbgStep e)
/-- DEBUG_DATA_WRITE (R84). -/
def execDebugDataWrite (i : Initiator) (e : Fin 8) (v : Word) (s : State) : Out :=
  .next (s.gated i (SE_DBGDATA e) fun s => s.dbgWrite e v)
/-- MONCLR (R97): a 1 resets SE_MINSLACK. -/
def execMonclr (i : Initiator) (e : Fin 8) (v : Word) (s : State) : Out :=
  .next (s.gated i (SE_MONCLR e) fun s => if v.getLsbD 0 then s.setFld (SE_MINSLACK_MINSLACK e) 0xFFFF else s)

end Sys2Proof.Machine
end

