-- ==== Sys2Proof/Machine/HostPort.lean ====
section
/-! DEFINITION. The host side: PCI Express requests, MSI-X, the plant Ethernet ports and the host datagram service (R51, R52,
R150, R355 to R369). -/

namespace Sys2Proof.Machine

/-! ### The endpoint (R356 to R358, R361) -/

/-- The words of the endpoint's configuration space that R356 gives, by offset: device and vendor ID, class code (its lowest byte, the
revision, is not given), the BARs with their sizes of 256 MiB and their types. -/
def State.configWord (s : State) (o : Nat) : Option Nat :=
  match o with
  | 0 => some 0x08601E4B
  | 8 => some (0x088000 * 256 + (BitVec.ofNat 8 (Config.pciRevision)).toNat)
  | 0x10 => some (s.host.bar0.toNat * 2 ^ 28)
  | 0x18 => some (s.host.bar2.toNat * 2 ^ 28 % 2 ^ 32 + 0xC)
  | 0x1C => some (s.host.bar2.toNat / 16)
  | _ => none

/-- The MSI-X table's byte at an offset: vector control holds the mask bit (R356, R361). -/
def State.tableByte (s : State) (o : Nat) : Byte :=
  if o % 16 = 12 then BitVec.ofNat 8 (b2n (s.host.mask.getLsbD (o / 16)))
  else if 12 < o % 16 then 0
  else tabGet (fun _ => 0) s.host.table o

/-- A vector unmasked: the message is sent only if the cause bit, and so the PBA bit, is still 1 (R361). -/
def State.unmask (s : State) (v : Nat) : State :=
  if !s.host.mask.getLsbD v then s else
  let m := BitVec.ofNat 32 (2 ^ v)
  let due := s.host.pba.getLsbD v && (s.reg GLB_HIRQ_STAT).getLsbD v && s.host.msixEn
  { s with host := { s.host with
      mask := s.host.mask &&& ~~~m
      pba := s.host.pba &&& ~~~m
      sent := if due then tabSet (fun _ => 0) s.host.sent v (tabGet (fun _ => 0) s.host.sent v + 1) else s.host.sent } }

/-- A vector masked. -/
def State.maskVec (s : State) (v : Nat) : State :=
  { s with host := { s.host with mask := s.host.mask ||| BitVec.ofNat 32 (2 ^ v) } }

/-- A byte of the MSI-X table written. -/
def State.tablePut (s : State) (o : Nat) (b : Byte) : State :=
  if o % 16 = 12 then (if b.getLsbD 0 then s.maskVec (o / 16) else s.unmask (o / 16))
  else if 12 < o % 16 then s
  else { s with host := { s.host with table := tabSet (fun _ => 0) s.host.table o b } }

/-- Bytes of the MSI-X table written. -/
def State.tableBytes (s : State) : Nat → List Byte → State
  | _, [] => s
  | o, b :: bs => (s.tablePut o b).tableBytes (o + 1) bs

/-- What the PBA reads at an offset: 32 bits. -/
def State.pbaByte (s : State) (o : Nat) : Byte := if o < 4 then BitVec.ofNat 8 (s.host.pba.toNat / 256 ^ o) else 0

/-- The size of the next aligned access of a request at `a` with `n` bytes to go (R357). -/
def nextSize (a n : Nat) : Nat :=
  if a % 8 = 0 ∧ 8 ≤ n then 8 else if a % 4 = 0 ∧ 4 ≤ n then 4 else if a % 2 = 0 ∧ 2 ≤ n then 2 else 1

/-- A memory write request executed as consecutive aligned accesses in address order (R357). -/
def State.writeRun (s : State) : Nat → Nat → List Byte → State
  | 0, _, _ => s
  | fuel + 1, a, bs =>
    if bs.isEmpty then s else
    let k := nextSize a bs.length
    (s.memWrite .host a (bs.take k)).writeRun fuel (a + k) (bs.drop k)

/-- A memory read request executed as consecutive aligned accesses in address order (R357). -/
def State.readRun (s : State) : Nat → Nat → Nat → State
  | 0, _, _ => s
  | fuel + 1, a, n =>
    if n = 0 then s else
    let k := nextSize a n
    (s.memRead .host a k).readRun fuel (a + k) (n - k)

/-- Whether a device address is reached through a BAR (R356). -/
def inBar (a : Nat) : Bool := decide (a < 0x10000000) || (decide (0x40000000 ≤ a) && decide (a < 0x50000000))

/-- A memory request to the register blocks: one DW with all byte enables set, else BUS_SIZE (R357). -/
def State.pcieReg (s : State) (write beOk : Bool) (a len : Nat) (bs : List Byte) : State :=
  if len = 4 ∧ beOk ∧ a % 4 = 0 then
    (if write then s.regWrite .host a (BitVec.ofNat 32 (leAt bs 0 4))
     else let t := s.regRead .host a
       { t with burst := leBytes 4 t.data.toNat })
  else if write then s.sticky 0 6 a
  else { (s.answer 0).sticky 0 6 a with burst := List.replicate len 0 }

/-- PCIE_REQUEST (R356 to R359, R361). -/
def State.pcie (s : State) (write : Bool) (a : Nat) (beOk : Bool) (len : Nat) (bs : List Byte) : State :=
  let n := if write then bs.length else len
  if s.host.inReset || s.power.furled || s.stuck .host || n == 0 || !inBar a then s
  else if a < 0x100000 then s.pcieReg write beOk a n bs
  else if a < 0x100200 then
    (if write then s.tableBytes (a - 0x100000) (bs.take (0x100200 - a))
     else { s with burst := (List.range n).map (fun j => if a + j < 0x100200 then s.tableByte (a - 0x100000 + j) else 0) }.fromBurst)
  else if 0x101000 ≤ a ∧ a < 0x101008 then
    (if write then s else { s with burst := (List.range n).map (fun j => s.pbaByte (a - 0x101000 + j)) }.fromBurst)
  else if write then s.writeRun n a bs
  else ({ s with burst := [] }.readRun n a n).fromBurst

/-! ### The host datagram service (R367 to R369) -/

/-- A counter of PE_HDS_CNT incremented. -/
def State.hdsCount (s : State) (f : Fld) : State := s.incFld f

/-- The allow entry of a source address. -/
def State.hdsEntry (s : State) (src : Word) : Option Nat :=
  (List.range 4).find? (fun e => s.reg (PE_HDS_ALLOW e) != 0 && s.reg (PE_HDS_ALLOW e) == src)

/-- A response header: the request's words with OP + 0x80 and STATUS. -/
def hdsHead (q : List Byte) (status : Nat) : List Byte :=
  leBytes 2 0x4B53 ++ [BitVec.ofNat 8 (leAt q 2 1 + 0x80), BitVec.ofNat 8 status] ++ sliceB q 4 10 ++ [0, 0]

/-- Whether a request is well formed: MAGIC, OP, STATUS, an aligned ADDR, COUNT, the reserved field, the length. -/
def hdsFormat (q : List Byte) : Bool :=
  let op := leAt q 2 1
  let count := leAt q 12 2
  decide (16 ≤ q.length) && leAt q 0 2 == 0x4B53 && (op == 1 || op == 2) && leAt q 3 1 == 0 && leAt q 8 4 % 4 == 0 &&
  decide (1 ≤ count) && decide (count ≤ 256) && leAt q 14 2 == 0 &&
  q.length == 16 + (if op = 2 then 4 * count else 0)

/-- One word of a request written as an aligned access (R368). -/
def State.hostWord (s : State) (a : Nat) (bs : List Byte) : State :=
  if a < 0x100000 then s.regWrite .host a (BitVec.ofNat 32 (leNat bs)) else s.memWrite .host a bs

/-- The words of a WRITE in ascending address order. -/
def State.hostWords (s : State) : Nat → Nat → List Byte → State
  | 0, _, _ => s
  | n + 1, a, bs => (s.hostWord a (bs.take 4)).hostWords n (a + 4) (bs.drop 4)

/-- One word read as an aligned access, its bytes added to those read before. -/
def State.hostRead (s : State) (a : Nat) : State :=
  if a < 0x100000 then
    let t := s.regRead .host a
    { t with burst := s.burst ++ leBytes 4 t.data.toNat }
  else s.memRead .host a 4

/-- The words of a READ in ascending address order. -/
def State.hostReads (s : State) : Nat → Nat → State
  | 0, _ => s
  | n + 1, a => (s.hostRead a).hostReads n (a + 4)

/-- The response of a port. -/
def State.hdsReply (s : State) (p : Nat) (r : List Byte) : State := s.setPe p { s.pe p with reply := r }

/-- A request executed: its response is sent and kept for its allow entry (R368, R369). -/
def State.hdsDo (s : State) (p e : Nat) (q : List Byte) : State :=
  let a := leAt q 8 4
  let n := leAt q 12 2
  let t := if leAt q 2 1 = 2 then s.hostWords n a (q.drop 16) else { s with burst := [] }.hostReads n a
  let r := hdsHead q 0 ++ (if leAt q 2 1 = 1 then t.burst else [])
  let t := { t with host := { t.host with hds := tabSet (fun _ => HdsLast.reset) t.host.hds e ⟨true, leAt q 4 4, r⟩ } }
  t.hdsReply p r

/-- A service request: FORMAT, the retry of R369, NOWRITE, or execution. -/
def State.hdsServe (s : State) (p e : Nat) (q : List Byte) : State :=
  let last := tabGet (fun _ => HdsLast.reset) s.host.hds e
  let s := s.hdsCount PE_HDS_CNT_REQ
  if !hdsFormat q then s.hdsReply p (hdsHead q 2)
  else if last.used && last.tag == leAt q 4 4 then s.hdsReply p last.response
  else if leAt q 2 1 = 2 ∧ s.flag PE_HDS_CTL_WREN = false then s.hdsReply p (hdsHead q 1)
  else s.hdsDo p e q

/-- A datagram to the service's address and port, judged by R367: `ok` when it is not fragmented and its checksum holds. -/
def State.hdsDatagram (s : State) (p : Nat) (src : Word) (ok : Bool) (q : List Byte) : State :=
  if s.stuck .host then s else
  match s.hdsEntry src with
  | none => s.hdsCount PE_HDS_CNT_DENY
  | some e => if ok && s.flag PE_HDS_CTL_EN then s.hdsServe p e q else s.hdsCount PE_HDS_CNT_BAD

/-- Whether the service listens on a port. -/
def State.hdsPort (s : State) (p : Nat) : Bool := (s.fld PE_HDS_CTL_PORTS).testBit p

/-- A request's payload with the OP of its row. -/
def hdsRow (q : List Byte) (op : Nat) : List Byte := q.take 2 ++ [BitVec.ofNat 8 op] ++ q.drop 3

/-! ### Reception (R363, R364) -/

/-- The multicast addresses that a port takes. -/
def ptpMac : List (List Byte) := [[0x01, 0x1B, 0x19, 0, 0, 0], [0x01, 0x80, 0xC2, 0, 0, 0x0E]]

/-- A port's own MAC address. -/
def State.ownMac (s : State) (p : Nat) : List Byte :=
  leBytes 4 (s.reg (PE_P_MACLO p)).toNat ++ leBytes 2 (s.fld (PE_P_MACHI_V p))

/-- Whether a destination address is the port's own, broadcast or PTP multicast (R363). -/
def State.macOk (s : State) (p : Nat) (m : List Byte) : Bool :=
  m == s.ownMac p || m == List.replicate 6 0xFF || ptpMac.contains m

/-- Whether a frame carries an IEEE 802.1Q tag. -/
def tagged (f : List Byte) : Bool := beAt f 12 2 == 0x8100

/-- Where the EtherType of a frame lies. -/
def typeAt (f : List Byte) : Nat := if tagged f then 16 else 12

/-- The IPv4 header of a frame that carries UDP: its offset, if there is one. -/
def ipAt (f : List Byte) : Option Nat :=
  let o := typeAt f + 2
  let ihl := leAt f o 1 % 16 * 4
  if beAt f (o - 2) 2 = 0x0800 ∧ leAt f o 1 / 16 = 4 ∧ 20 ≤ ihl ∧ leAt f (o + 9) 1 = 17 ∧ o + ihl + 8 ≤ f.length then some o else none

/-- The length of an IPv4 header. -/
def ipLen (f : List Byte) (o : Nat) : Nat := leAt f o 1 % 16 * 4

/-- Whether a datagram is a fragment: MF set or an offset. -/
def fragment (f : List Byte) (o : Nat) : Bool := beAt f (o + 6) 2 % 0x4000 != 0

/-- Whether a fragment holds the UDP header: offset 0. -/
def firstPart (f : List Byte) (o : Nat) : Bool := beAt f (o + 6) 2 % 0x2000 == 0

/-- The UDP payload. -/
def udpData (f : List Byte) (o : Nat) : List Byte :=
  sliceB f (o + ipLen f o + 8) (beAt f (o + ipLen f o + 4) 2 - 8)

/-- A list of bytes summed as big-endian 16-bit words. -/
def sum16 : List Byte → Nat
  | a :: b :: r => a.toNat * 256 + b.toNat + sum16 r
  | [a] => a.toNat * 256
  | [] => 0

/-- Whether the UDP checksum, if not 0, is correct. -/
def udpOk (f : List Byte) (o : Nat) : Bool :=
  let u := o + ipLen f o
  let n := beAt f (u + 4) 2
  beAt f (u + 6) 2 == 0 ||
  (sum16 (sliceB f (o + 12) 8) + 17 + n + sum16 (sliceB f u n)) % 65535 == 0

/-- The sensor whose presence segments a UDP datagram from `src` to port `dport` are (R150). -/
def State.sensorOf (s : State) (p : Nat) (src dport : Nat) : Option (Fin 8) :=
  (List.finRange 8).find? (fun k =>
    s.flag (SH_SENS_CFG_USED k) && s.fld (SH_SENS_CFG_PORT k) == p && (s.reg (SH_SENS_SRC k)).toNat == src &&
    s.fld (SH_SENS_CFG_UDP k) == dport)

/-- A frame placed in the receive list, or discarded for want of a free buffer (R364). -/
def State.rxPlace (s : State) (p : Nat) (f : List Byte) (ts : Stamp) : State :=
  match (s.pe p).free with
  | [] => s.incFld (PE_P_CNT_RXNOBUF p)
  | b :: bs =>
    let s := if s.domainOn b then
        let s := s.wrBytes (b + 0x20) f
        ((s.wr32 b (f.length % 2048 + 2048 * b2n (tagged f) + 2 ^ 31)).wr32 (b + 4) ts.ns.toNat).wr32 (b + 8) ts.frac.toNat
      else s
    let s := s.setPe p { s.pe p with free := bs, filled := (s.pe p).filled ++ [b] }
    if s.flag (PE_P_CTL_RXIRQ p) then s.cause (6 + p) else s

/-- An accepted frame classified: presence segment, service request, receive list (R363). -/
def State.classify (s : State) (p : Nat) (f : List Byte) (ts : Stamp) : State :=
  match ipAt f with
  | none => s.rxPlace p f ts
  | some o =>
    if !firstPart f o then s.rxPlace p f ts else
    let src := beAt f (o + 12) 4
    let dport := beAt f (o + ipLen f o + 2) 2
    match s.sensorOf p src dport with
    | some k => s.presenceIn k (fragment f o) (udpData f o) ts
    | none =>
      if beAt f (o + 16) 4 = (s.reg (PE_P_IPV4 p)).toNat ∧ dport = s.fld PE_HDS_CTL_UDP ∧ s.hdsPort p then
        s.hdsDatagram p (BitVec.ofNat 32 src) (!fragment f o && udpOk f o) (udpData f o)
      else s.rxPlace p f ts

/-- A received frame, without its FCS, filtered by R363. -/
def State.rxFrame (s : State) (p : Nat) (fcsOk : Bool) (f : List Byte) (ts : Stamp) : State :=
  if s.power.furled || !s.flag (PE_P_CTL_EN p) then s
  else if !fcsOk then s.incFld (PE_P_CNT_FCSERR p)
  else if 1522 < f.length + 4 then s.incFld (PE_P_CNT_TOOLONG p)
  else if !s.macOk p (f.take 6) || (tagged f && beAt f 16 2 == 0x8100) then s
  else s.classify p f ts

/-! ### Transmission (R51, R52, R366) -/

/-- The end of a frame: words 0x14 and 0x18 before word 0x10; the port is free for a waiting frame. -/
def State.txDone (s : State) (p : Nat) (ts : Stamp) : State :=
  match (s.pe p).sending with
  | none => s
  | some (q, d, late) =>
    let s := (s.wr32 (d + 0x14) ts.ns.toNat).wr32 (d + 0x18) ts.frac.toNat
    let s := s.wr32 (d + 0x10) (1 + 4 * b2n late)
    let s := s.setPe p { s.pe p with sending := none }
    let l := s.txq p q
    let i := l.findIdx (fun x => !x.2)
    (s.setTxq p q (l.set i (d, true))).txStart p false

/-! ### The commands -/

/-- PCIE_REQUEST (R355 to R359, R361). -/
def execPcieRequest (write : Bool) (addr : Word) (beOk : Bool) (len : Nat) (data : List Byte) (s : State) : Out :=
  .next (s.pcie write addr.toNat beOk len data)
/-- MSIX_UNMASK (R361). -/
def execMsixUnmask (v : Fin 32) (s : State) : Out := .next (if s.host.inReset || s.power.furled then s else s.unmask v.val)
/-- DOORBELL (R362). -/
def execDoorbell (i : Initiator) (v : Word) (s : State) : Out := .next (s.gated i GLB_HDB fun s => s.doorbell v)
/-- PE_FRAME_RX (R150, R363, R364, R367). -/
def execPeFrameRx (p : Fin 2) (fcsOk : Bool) (frame : List Byte) (ts : Stamp) (s : State) : Out :=
  .next (s.rxFrame p.val fcsOk frame (s.stampOn (88 + p.val) ts))
/-- RX_BUFFER_PUSH (R364). -/
def execRxBufferPush (i : Initiator) (p : Fin 2) (v : Word) (s : State) : Out :=
  .next (s.gated i (PE_P_RXPUSH p) fun s => s.rxPushBuf i p v)
/-- RX_BUFFER_POP (R364). -/
def execRxBufferPop (i : Initiator) (p : Fin 2) (s : State) : Out := .next (s.gated i (PE_P_RXPOP p) fun s => s.rxPopBuf p)
/-- TX_DESCRIPTOR_PUSH (R51, R52, R53, R365). -/
def execTxDescriptorPush (i : Initiator) (p : Fin 2) (q : Fin 8) (v : Word) (s : State) : Out :=
  .next (s.gated i (PE_Q_PUSH p q) fun s => s.txPush i p q v)
/-- TX_DESCRIPTOR_POP (R365). -/
def execTxDescriptorPop (i : Initiator) (p : Fin 2) (q : Fin 8) (s : State) : Out :=
  .next (s.gated i (PE_Q_POP p q) fun s => s.txPop p q)
/-- HDS_READ (R367 to R369): the payload of a READ request that arrived intact. -/
def execHdsRead (p : Fin 2) (src : Word) (payload : List Byte) (s : State) : Out :=
  .next (if !s.power.furled && s.hdsPort p && s.flag (PE_P_CTL_EN p) then s.hdsDatagram p src true (hdsRow payload 1) else s)
/-- HDS_WRITE (R367 to R369): the payload of a WRITE request that arrived intact. -/
def execHdsWrite (p : Fin 2) (src : Word) (payload : List Byte) (s : State) : Out :=
  .next (if !s.power.furled && s.hdsPort p && s.flag (PE_P_CTL_EN p) then s.hdsDatagram p src true (hdsRow payload 2) else s)
/-- LAUNCH_TIME (R51, R52): the launch time of the head of queue `q` is reached. -/
def execLaunchTime (p : Fin 2) (q : Fin 8) (s : State) : Out :=
  .next (if !s.power.furled && s.txDue p q then s.txStart p true else s)
/-- FRAME_TRANSMITTED (R366). -/
def execFrameTransmitted (p : Fin 2) (ts : Stamp) (s : State) : Out := .next (if s.power.furled then s else s.txDone p (s.stampOn (88 + p.val) ts))
/-- PE_LINK_UP (R363, the PE register table). -/
def execPeLinkUp (p : Fin 2) (speed : Fin 4) (fullDuplex : Bool) (s : State) : Out :=
  .next (if s.power.furled then s else
    (((s.setFld (PE_P_STAT_LINK p) 1).setFld (PE_P_STAT_SPEED p) speed.val).setFlag (PE_P_STAT_FD p) fullDuplex).txStart p false)
/-- PE_LINK_DOWN (R363, the PE register table). -/
def execPeLinkDown (p : Fin 2) (s : State) : Out :=
  .next (if s.power.furled then s else s.setReg (PE_P_STAT p) 0)

end Sys2Proof.Machine
end

