-- ==== Sys2Proof/Machine/Tick.lean ====
section
/-! DEFINITION. The halyard tick, and one tick of the time base: what comes about in it whether or not anything is commanded. -/

namespace Sys2Proof.Machine

/-! ### The halyard tick (R17) -/

/-- The periodic work of a tick boundary under way: step profiles and speed estimates, then the input filters; reefed, the
filters alone (R291, R297, R306, R310). -/
def State.tickAt (s : State) (b : Nat) : State :=
  let s := { s with field := { s.field with tickAt := some b } }
  if s.underWay then
    let s := (List.range 8).foldl (fun (t : State) k => t.stTick k b) s.fbAll
    let s := (List.range 8).foldl (fun (t : State) p => t.pdsTick p b) s
    (s.fiTick).doTick b
  else s.fiTick

/-- HALYARD_TICK (R17). -/
def execHalyardTick (s : State) : Out :=
  let b := s.cycleStart 1000
  .next (if s.power.furled || s.field.tickAt == some b then s else s.tickAt b)

/-! ### The tick of the time base -/

/-- One tick: cell time, nets, windows and timers (R29, R31, R33, R36, R43, R48, R350), then the step axes' crossings (R293, R295), bypassed inputs (R306), the
spar array's lanes (R122) and the canvas engine (R145). -/
def State.advance (s : State) : State := s.tick.stepTick.fiFollow.spTick.cvTick

/-- SLEW_END (R31): the final tick of a slew. -/
def execSlewEnd (s : State) : Out :=
  .next (if s.clkMode = 0 ∧ s.time.slew ≠ 0 ∧ s.slewNow = s.time.slew then s.advance else s)

end Sys2Proof.Machine
end

