-- ==== Sys2Proof/Machine/Dispatch.lean ====
section
/-! DEFINITION. The effect of each command: one arm per constructor, one call of its meaning. -/

namespace Sys2Proof.Machine

/-- The effect of a command on everything but the queue. -/
def exec (i : Instr) (s : State) : Host.Outcome State Fault Refusal :=
  match i with
  | .servoCycleStart n => Sys2Proof.Machine.execServoCycleStart n s
  | .shroudCycleStart => Sys2Proof.Machine.execShroudCycleStart s
  | .planCycleStart => Sys2Proof.Machine.execPlanCycleStart s
  | .halyardTick => Sys2Proof.Machine.execHalyardTick s
  | .commandLatchPoint n => Sys2Proof.Machine.execCommandLatchPoint n s
  | .staleFault n => Sys2Proof.Machine.execStaleFault n s
  | .ctIncriWrite ini v => Sys2Proof.Machine.execCtIncriWrite ini v s
  | .ctIncrWrite ini v => Sys2Proof.Machine.execCtIncrWrite ini v s
  | .ctSlewWrite ini v => Sys2Proof.Machine.execCtSlewWrite ini v s
  | .ctSlewCtlWrite ini v => Sys2Proof.Machine.execCtSlewCtlWrite ini v s
  | .slewEnd => Sys2Proof.Machine.execSlewEnd s
  | .step ini v => Sys2Proof.Machine.execStep ini v s
  | .ctNowLoRead ini => Sys2Proof.Machine.execCtNowLoRead ini s
  | .por => Sys2Proof.Machine.execPor s
  | .timerArm ini n v => Sys2Proof.Machine.execTimerArm ini n v s
  | .timerTargetWrite ini n v => Sys2Proof.Machine.execTimerTargetWrite ini n v s
  | .timerFire n => Sys2Proof.Machine.execTimerFire n s
  | .windowArm ini n v => Sys2Proof.Machine.execWindowArm ini n v s
  | .windowOpen n => Sys2Proof.Machine.execWindowOpen n s
  | .windowClose n => Sys2Proof.Machine.execWindowClose n s
  | .latchCapture n falling ts => Sys2Proof.Machine.execLatchCapture n falling ts s
  | .latchFracRead ini n => Sys2Proof.Machine.execLatchFracRead ini n s
  | .launchTime p q => Sys2Proof.Machine.execLaunchTime p q s
  | .enable ini k => Sys2Proof.Machine.execEnable ini k s
  | .disable ini k => Sys2Proof.Machine.execDisable ini k s
  | .jointHome ini k => Sys2Proof.Machine.execJointHome ini k s
  | .jointClear ini k => Sys2Proof.Machine.execJointClear ini k s
  | .hold ini n => Sys2Proof.Machine.execHold ini n s
  | .traj ini n => Sys2Proof.Machine.execTraj ini n s
  | .jog ini n => Sys2Proof.Machine.execJog ini n s
  | .armMove ini n => Sys2Proof.Machine.execArmMove ini n s
  | .armStop ini n => Sys2Proof.Machine.execArmStop ini n s
  | .resume ini n => Sys2Proof.Machine.execResume ini n s
  | .enableAll ini n => Sys2Proof.Machine.execEnableAll ini n s
  | .disableAll ini n => Sys2Proof.Machine.execDisableAll ini n s
  | .clearAll ini n => Sys2Proof.Machine.execClearAll ini n s
  | .horizonCommit ini n => Sys2Proof.Machine.execHorizonCommit ini n s
  | .armApply ini n t => Sys2Proof.Machine.execArmApply ini n t s
  | .enableTimeout k => Sys2Proof.Machine.execEnableTimeout k s
  | .nofbFault n => Sys2Proof.Machine.execNofbFault n s
  | .ferrFault k => Sys2Proof.Machine.execFerrFault k s
  | .homeHardstopDetect k => Sys2Proof.Machine.execHomeHardstopDetect k s
  | .engineWake n => Sys2Proof.Machine.execEngineWake n s
  | .mpy e c a dm dn l => Sys2Proof.Machine.execMpy e c a dm dn l s
  | .mac e c a dm dn l => Sys2Proof.Machine.execMac e c a dm dn l s
  | .msu e c a dm dn l => Sys2Proof.Machine.execMsu e c a dm dn l s
  | .clr e c a l => Sys2Proof.Machine.execClr e c a l s
  | .movl e c l => Sys2Proof.Machine.execMovl e c l s
  | .add e c ad as => Sys2Proof.Machine.execAdd e c ad as s
  | .sub e c ad as => Sys2Proof.Machine.execSub e c ad as s
  | .addd e c ad dx sh => Sys2Proof.Machine.execAddd e c ad dx sh s
  | .sha e c ad sh => Sys2Proof.Machine.execSha e c ad sh s
  | .she e c ad ej ek sh => Sys2Proof.Machine.execShe e c ad ej ek sh s
  | .neg e c ad => Sys2Proof.Machine.execNeg e c ad s
  | .abs e c ad => Sys2Proof.Machine.execAbs e c ad s
  | .clmp e c ad dx dy sh => Sys2Proof.Machine.execClmp e c ad dx dy sh s
  | .cls e c dx as => Sys2Proof.Machine.execCls e c dx as s
  | .mvd e c dx as sh => Sys2Proof.Machine.execMvd e c dx as sh s
  | .mva e c ad dx sh => Sys2Proof.Machine.execMva e c ad dx sh s
  | .ld e c dk m => Sys2Proof.Machine.execLd e c dk m s
  | .st e c dk m => Sys2Proof.Machine.execSt e c dk m s
  | .lda e c ak m => Sys2Proof.Machine.execLda e c ak m s
  | .sta e c ak m => Sys2Proof.Machine.execSta e c ak m s
  | .lde e c ek m => Sys2Proof.Machine.execLde e c ek m s
  | .ldp e c pk m => Sys2Proof.Machine.execLdp e c pk m s
  | .mvr e c dst src => Sys2Proof.Machine.execMvr e c dst src s
  | .ldi e c dst imm => Sys2Proof.Machine.execLdi e c dst imm s
  | .clrs e c => Sys2Proof.Machine.execClrs e c s
  | .br e c cond tgt => Sys2Proof.Machine.execBr e c cond tgt s
  | .call e c tgt => Sys2Proof.Machine.execCall e c tgt s
  | .ret e c => Sys2Proof.Machine.execRet e c s
  | .dbnz e c dd tgt => Sys2Proof.Machine.execDbnz e c dd tgt s
  | .rep e c creg dd count => Sys2Proof.Machine.execRep e c creg dd count s
  | .cend e c => Sys2Proof.Machine.execCend e c s
  | .bend e c => Sys2Proof.Machine.execBend e c s
  | .nop e c => Sys2Proof.Machine.execNop e c s
  | .trap e c code => Sys2Proof.Machine.execTrap e c code s
  | .haltreq ini e => Sys2Proof.Machine.execHaltreq ini e s
  | .debugResume ini e => Sys2Proof.Machine.execDebugResume ini e s
  | .debugStep ini e => Sys2Proof.Machine.execDebugStep ini e s
  | .debugDataWrite ini e v => Sys2Proof.Machine.execDebugDataWrite ini e v s
  | .monclr ini e v => Sys2Proof.Machine.execMonclr ini e v s
  | .submit ini addr => Sys2Proof.Machine.execSubmit ini addr s
  | .dispatch => Sys2Proof.Machine.execDispatch s
  | .solveEnd k => Sys2Proof.Machine.execSolveEnd k s
  | .stopInstant k => Sys2Proof.Machine.execStopInstant k s
  | .expired inst => Sys2Proof.Machine.execExpired inst s
  | .laneFault k => Sys2Proof.Machine.execLaneFault k s
  | .claim ini desc => Sys2Proof.Machine.execClaim ini desc s
  | .release ini desc => Sys2Proof.Machine.execRelease ini desc s
  | .relall ini desc => Sys2Proof.Machine.execRelall ini desc s
  | .cancel ini desc => Sys2Proof.Machine.execCancel ini desc s
  | .probe ini desc => Sys2Proof.Machine.execProbe ini desc s
  | .setstatic ini desc => Sys2Proof.Machine.execSetstatic ini desc s
  | .clrstatic ini desc => Sys2Proof.Machine.execClrstatic ini desc s
  | .claimTimeout => Sys2Proof.Machine.execClaimTimeout s
  | .presenceSegment x fragmented d => Sys2Proof.Machine.execPresenceSegment x fragmented d s
  | .channel1Result => Sys2Proof.Machine.execChannel1Result s
  | .channel2Result => Sys2Proof.Machine.execChannel2Result s
  | .shApply ini t => Sys2Proof.Machine.execShApply ini t s
  | .forcedRelease ini n => Sys2Proof.Machine.execForcedRelease ini n s
  | .soClear ini m rbA rbB => Sys2Proof.Machine.execSoClear ini m rbA rbB s
  | .safeOutputReadback m rbA rbB => Sys2Proof.Machine.execSafeOutputReadback m rbA rbB s
  | .testPulse m wireB rb => Sys2Proof.Machine.execTestPulse m wireB rb s
  | .reply n f => Sys2Proof.Machine.execReply n f s
  | .mbRead ini n v => Sys2Proof.Machine.execMbRead ini n v s
  | .mbWrite ini n v => Sys2Proof.Machine.execMbWrite ini n v s
  | .mbIdent ini n v => Sys2Proof.Machine.execMbIdent ini n v s
  | .mbreq n => Sys2Proof.Machine.execMbreq n s
  | .mbrsp n f => Sys2Proof.Machine.execMbrsp n f s
  | .partnerCycleFrame n f => Sys2Proof.Machine.execPartnerCycleFrame n f s
  | .coldFrame n f => Sys2Proof.Machine.execColdFrame n f s
  | .collisionWaitEnd n => Sys2Proof.Machine.execCollisionWaitEnd n s
  | .lineRun ini n v => Sys2Proof.Machine.execLineRun ini n v s
  | .lineStop ini n v => Sys2Proof.Machine.execLineStop ini n v s
  | .listenEnd n => Sys2Proof.Machine.execListenEnd n s
  | .coldCycleStart n => Sys2Proof.Machine.execColdCycleStart n s
  | .coldMbrsp n f => Sys2Proof.Machine.execColdMbrsp n f s
  | .verifyTimeout n => Sys2Proof.Machine.execVerifyTimeout n s
  | .integTimeout n => Sys2Proof.Machine.execIntegTimeout n s
  | .ftaRound => Sys2Proof.Machine.execFtaRound s
  | .linkUp q master => Sys2Proof.Machine.execLinkUp q master s
  | .linkDown q => Sys2Proof.Machine.execLinkDown q s
  | .heartbeatSend => Sys2Proof.Machine.execHeartbeatSend s
  | .heartbeat m => Sys2Proof.Machine.execHeartbeat m s
  | .heartbeatLoss => Sys2Proof.Machine.execHeartbeatLoss s
  | .stayLinkUp lane digest => Sys2Proof.Machine.execStayLinkUp lane digest s
  | .stayLinkDown lane => Sys2Proof.Machine.execStayLinkDown lane s
  | .partnerMask n mask crcs => Sys2Proof.Machine.execPartnerMask n mask crcs s
  | .cycleMessage n m => Sys2Proof.Machine.execCycleMessage n m s
  | .forwardedWrite addr v => Sys2Proof.Machine.execForwardedWrite addr v s
  | .forwardQueueRoom => Sys2Proof.Machine.execForwardQueueRoom s
  | .checkpointPage page data last => Sys2Proof.Machine.execCheckpointPage page data last s
  | .backlogTimeout => Sys2Proof.Machine.execBacklogTimeout s
  | .handover ini => Sys2Proof.Machine.execHandover ini s
  | .handoverInstant => Sys2Proof.Machine.execHandoverInstant s
  | .pairHalt ini => Sys2Proof.Machine.execPairHalt ini s
  | .unhalt ini => Sys2Proof.Machine.execUnhalt ini s
  | .join ini => Sys2Proof.Machine.execJoin ini s
  | .resyncStart => Sys2Proof.Machine.execResyncStart s
  | .resyncPassEnd same => Sys2Proof.Machine.execResyncPassEnd same s
  | .staySparRecord r => Sys2Proof.Machine.execStaySparRecord r s
  | .stayCanvasRecord r => Sys2Proof.Machine.execStayCanvasRecord r s
  | .stayShroudOutputs outs apply => Sys2Proof.Machine.execStayShroudOutputs outs apply s
  | .axisStateSend => Sys2Proof.Machine.execAxisStateSend s
  | .stayAxisState x m => Sys2Proof.Machine.execStayAxisState x m s
  | .postNow ini v => Sys2Proof.Machine.execPostNow ini v s
  | .postDelay ini v => Sys2Proof.Machine.execPostDelay ini v s
  | .postWait ini v => Sys2Proof.Machine.execPostWait ini v s
  | .signal ini v => Sys2Proof.Machine.execSignal ini v s
  | .delayExpiry => Sys2Proof.Machine.execDelayExpiry s
  | .waitTimeout => Sys2Proof.Machine.execWaitTimeout s
  | .delivery => Sys2Proof.Machine.execDelivery s
  | .done ini c => Sys2Proof.Machine.execDone ini c s
  | .itemAcknowledge ini c => Sys2Proof.Machine.execItemAcknowledge ini c s
  | .serviceOverrun c => Sys2Proof.Machine.execServiceOverrun c s
  | .eventPost c ts => Sys2Proof.Machine.execEventPost c ts s
  | .eventSignal c => Sys2Proof.Machine.execEventSignal c s
  | .heldItemSlot => Sys2Proof.Machine.execHeldItemSlot s
  | .timeCsrRead c => Sys2Proof.Machine.execTimeCsrRead c s
  | .cacheLineWriteback c addr => Sys2Proof.Machine.execCacheLineWriteback c addr s
  | .cacheLineDiscard c addr => Sys2Proof.Machine.execCacheLineDiscard c addr s
  | .cacheFlush c => Sys2Proof.Machine.execCacheFlush c s
  | .lockstepError c pc => Sys2Proof.Machine.execLockstepError c pc s
  | .groupEnable ini g v => Sys2Proof.Machine.execGroupEnable ini g v s
  | .periodBoundary g => Sys2Proof.Machine.execPeriodBoundary g s
  | .carrierPeak g => Sys2Proof.Machine.execCarrierPeak g s
  | .commit ini g => Sys2Proof.Machine.execCommit ini g s
  | .pwClear ini g => Sys2Proof.Machine.execPwClear ini g s
  | .strip ini g => Sys2Proof.Machine.execStrip ini g s
  | .trip input short => Sys2Proof.Machine.execTrip input short s
  | .dllLock => Sys2Proof.Machine.execDllLock s
  | .dllLost d => Sys2Proof.Machine.execDllLost d s
  | .adcHold net => Sys2Proof.Machine.execAdcHold net s
  | .conversionEnd c raw => Sys2Proof.Machine.execConversionEnd c raw s
  | .resRead ini c => Sys2Proof.Machine.execResRead ini c s
  | .feedbackEdge p a b z ts => Sys2Proof.Machine.execFeedbackEdge p a b z ts s
  | .indexEdge p a b ts => Sys2Proof.Machine.execIndexEdge p a b ts s
  | .ssiTrigger p dataHigh ts => Sys2Proof.Machine.execSsiTrigger p dataHigh ts s
  | .ssiFrameEnd p bits err => Sys2Proof.Machine.execSsiFrameEnd p bits err s
  | .lineflt p pair => Sys2Proof.Machine.execLineflt p pair s
  | .fbPosWrite ini p v => Sys2Proof.Machine.execFbPosWrite ini p v s
  | .compareWrite ini u v => Sys2Proof.Machine.execCompareWrite ini u v s
  | .eisTzero p => Sys2Proof.Machine.execEisTzero p s
  | .axisMove ini x => Sys2Proof.Machine.execAxisMove ini x s
  | .vel ini x => Sys2Proof.Machine.execVel ini x s
  | .axisStop ini x => Sys2Proof.Machine.execAxisStop ini x s
  | .axisHome ini x => Sys2Proof.Machine.execAxisHome ini x s
  | .hardstop ini x => Sys2Proof.Machine.execHardstop ini x s
  | .stopnetEdge x => Sys2Proof.Machine.execStopnetEdge x s
  | .dlimWrite ini x v => Sys2Proof.Machine.execDlimWrite ini x v s
  | .inputChange k => Sys2Proof.Machine.execInputChange k s
  | .rawEdge k level ts => Sys2Proof.Machine.execRawEdge k level ts s
  | .cos0Read ini => Sys2Proof.Machine.execCos0Read ini s
  | .cos1Read ini => Sys2Proof.Machine.execCos1Read ini s
  | .doSet ini v => Sys2Proof.Machine.execDoSet ini v s
  | .doRes ini v => Sys2Proof.Machine.execDoRes ini v s
  | .outputOverload j thermal => Sys2Proof.Machine.execOutputOverload j thermal s
  | .openLoad j => Sys2Proof.Machine.execOpenLoad j s
  | .vfieldLow mv => Sys2Proof.Machine.execVfieldLow mv s
  | .vfieldCut mv => Sys2Proof.Machine.execVfieldCut mv s
  | .vfok mv => Sys2Proof.Machine.execVfok mv s
  | .vfrearm ini => Sys2Proof.Machine.execVfrearm ini s
  | .req ini k b => Sys2Proof.Machine.execReq ini k b s
  | .abort ini k b => Sys2Proof.Machine.execAbort ini k b s
  | .canLaunch k b busIdle => Sys2Proof.Machine.execCanLaunch k b busIdle s
  | .canTxEnd k b ok err sof => Sys2Proof.Machine.execCanTxEnd k b ok err sof s
  | .recover ini k => Sys2Proof.Machine.execRecover ini k s
  | .recoveryEnd k => Sys2Proof.Machine.execRecoveryEnd k s
  | .canFrameRx k f sof => Sys2Proof.Machine.execCanFrameRx k f sof s
  | .rxwRead ini k w => Sys2Proof.Machine.execRxwRead ini k w s
  | .rxLockTimeout k => Sys2Proof.Machine.execRxLockTimeout k s
  | .rxunlock ini k => Sys2Proof.Machine.execRxunlock ini k s
  | .flashRead ini => Sys2Proof.Machine.execFlashRead ini s
  | .flashProgram ini => Sys2Proof.Machine.execFlashProgram ini s
  | .flashErase ini => Sys2Proof.Machine.execFlashErase ini s
  | .flashOpEnd fail => Sys2Proof.Machine.execFlashOpEnd fail s
  | .rigApply ini v => Sys2Proof.Machine.execRigApply ini v s
  | .rollup ini v => Sys2Proof.Machine.execRollup ini v s
  | .calwrite ini v => Sys2Proof.Machine.execCalwrite ini v s
  | .keyprog ini v => Sys2Proof.Machine.execKeyprog ini v s
  | .keyrev ini v => Sys2Proof.Machine.execKeyrev ini v s
  | .keylock ini v => Sys2Proof.Machine.execKeylock ini v s
  | .pcieRequest write addr beOk len data => Sys2Proof.Machine.execPcieRequest write addr beOk len data s
  | .msixUnmask v => Sys2Proof.Machine.execMsixUnmask v s
  | .doorbell ini v => Sys2Proof.Machine.execDoorbell ini v s
  | .peFrameRx p fcsOk frame ts => Sys2Proof.Machine.execPeFrameRx p fcsOk frame ts s
  | .rxBufferPush ini p v => Sys2Proof.Machine.execRxBufferPush ini p v s
  | .rxBufferPop ini p => Sys2Proof.Machine.execRxBufferPop ini p s
  | .txDescriptorPush ini p q v => Sys2Proof.Machine.execTxDescriptorPush ini p q v s
  | .txDescriptorPop ini p q => Sys2Proof.Machine.execTxDescriptorPop ini p q s
  | .hdsRead p src payload => Sys2Proof.Machine.execHdsRead p src payload s
  | .hdsWrite p src payload => Sys2Proof.Machine.execHdsWrite p src payload s
  | .eccError e addr r => Sys2Proof.Machine.execEccError e addr r s
  | .underWay ini => Sys2Proof.Machine.execUnderWay ini s
  | .reef ini => Sys2Proof.Machine.execReef ini s
  | .furl ini => Sys2Proof.Machine.execFurl ini s
  | .powerFail vbak => Sys2Proof.Machine.execPowerFail vbak s
  | .feedFail feedB mv => Sys2Proof.Machine.execFeedFail feedB mv s
  | .feedGood feedB mv => Sys2Proof.Machine.execFeedGood feedB mv s
  | .wakePin => Sys2Proof.Machine.execWakePin s
  | .alarmArm ini v => Sys2Proof.Machine.execAlarmArm ini v s
  | .wakeAlarm => Sys2Proof.Machine.execWakeAlarm s
  | .powerGood pairEn pairId => Sys2Proof.Machine.execPowerGood pairEn pairId s
  | .resetPin => Sys2Proof.Machine.execResetPin s
  | .softwareReset ini v => Sys2Proof.Machine.execSoftwareReset ini v s
  | .perst => Sys2Proof.Machine.execPerst s
  | .watchdogKick ini v => Sys2Proof.Machine.execWatchdogKick ini v s
  | .watchdogExpiry => Sys2Proof.Machine.execWatchdogExpiry s
  | .temperatureReading t => Sys2Proof.Machine.execTemperatureReading t s
  | .thermalFurl => Sys2Proof.Machine.execThermalFurl s
  | .registerWrite ini addr size v => Sys2Proof.Machine.execRegisterWrite ini addr size v s
  | .registerRead ini addr k => Sys2Proof.Machine.execRegisterRead ini addr k s
  | .memoryWrite ini addr d => Sys2Proof.Machine.execMemoryWrite ini addr d s
  | .tripRelease input => Sys2Proof.Machine.execTripRelease input s
  | .linefltEnd p pair => Sys2Proof.Machine.execLinefltEnd p pair s
  | .vflowEnd mv => Sys2Proof.Machine.execVflowEnd mv s
  | .vfokLoss mv => Sys2Proof.Machine.execVfokLoss mv s
  | .peLinkUp p speed fullDuplex => Sys2Proof.Machine.execPeLinkUp p speed fullDuplex s
  | .peLinkDown p => Sys2Proof.Machine.execPeLinkDown p s
  | .canReceiveError k err => Sys2Proof.Machine.execCanReceiveError k err s
  | .arbitrationLost k b => Sys2Proof.Machine.execArbitrationLost k b s
  | .canBusIntegration k => Sys2Proof.Machine.execCanBusIntegration k s
  | .ownFrameAtFarEnd n f => Sys2Proof.Machine.execOwnFrameAtFarEnd n f s
  | .rigApplyEnd flashError => Sys2Proof.Machine.execRigApplyEnd flashError s
  | .calwriteEnd fail => Sys2Proof.Machine.execCalwriteEnd fail s
  | .perstRelease => Sys2Proof.Machine.execPerstRelease s
  | .pdAoLoss => Sys2Proof.Machine.execPdAoLoss s
  | .frameTransmitted p ts => Sys2Proof.Machine.execFrameTransmitted p ts s
  | .checkpointPageSent => Sys2Proof.Machine.execCheckpointPageSent s
  | .resyncGranules adopt data sets => Sys2Proof.Machine.execResyncGranules adopt data sets s
  | .stayPairMeasurement n m => Sys2Proof.Machine.execStayPairMeasurement n m s
  | .stayNodeDelayMeans n means => Sys2Proof.Machine.execStayNodeDelayMeans n means s

end Sys2Proof.Machine
end

