-- ==== Sys2Proof/Safety.lean ====
section
/-! DEFINITION. What a good state is: every sparse table of the state in its canonical form, so that equal contents are equal
data, and the words of the register table inside their registers. -/

namespace Sys2Proof

open Sys2Proof.Machine

/-- The memory in its canonical form. -/
abbrev Memory.wf (s : State) : Prop := tabWf memDefault s.mem = true

/-- The flash in its canonical form. -/
abbrev Flash.wf (s : State) : Prop := tabWf flashDefault s.flash = true

/-- The registers and the values in effect in their canonical form. -/
abbrev Registers.wf (s : State) : Prop := tabWf resetWord s.regs = true ∧ tabWf resetWord s.eff = true

/-- The tables of memories and registers are canonical. -/
abbrev State.tables (s : State) : Prop := Memory.wf s ∧ Flash.wf s ∧ Registers.wf s

end Sys2Proof
end

