-- ==== Sys2Proof/WellFormed.lean ====
section
/-! DEFINITION. Well-formed commands: the limits on operands that their types do not say. A command outside them is one that no
agent of the spec sends; its meaning is total all the same. -/

namespace Sys2Proof

/-- The size of an access: 1, 2, 4 or 8 bytes (R5). -/
def wfSize (n : Nat) : Bool := n == 1 || n == 2 || n == 4 || n == 8

/-- Whether the sender has the atomic instructions: an application core (R263, R266). -/
def wfAtomic : Initiator → Bool
  | .ac _ => true
  | _ => false

/-- Whether the sender is a core and not the host: the host's accesses are requests of its port (R358). -/
def wfCore : Initiator → Bool
  | .host => false
  | _ => true

/-- A PCI Express memory request: 1 to 256 bytes written, 1 to 512 read (R357). -/
def wfPcie (write : Bool) (len : Nat) (data : List Byte) : Bool :=
  if write then decide (1 ≤ data.length) && decide (data.length ≤ 256) && len == data.length
  else decide (1 ≤ len) && decide (len ≤ 512) && data.isEmpty

/-- A field of a written word. -/
def wfField (v : Word) (lo width : Nat) : Nat := v.toNat / 2 ^ lo % 2 ^ width

/-- The MODE of a post: the row's own, or the invalid 3 (R253). -/
def wfPost (v : Word) (mode : Nat) : Bool := wfField v 12 2 == mode || wfField v 12 2 == 3

/-- Postings of a CAN frame: a remote frame and a frame without data carry none, data of at most 64 bytes (R329). -/
def wfCan (f : CanFrame) : Bool :=
  decide (f.data.length ≤ if f.fdf then 64 else 8) && (!f.rtr || f.data.isEmpty) && !(f.rtr && f.fdf) && (f.fdf || !f.brs)

/-- A frame at an end of a line: at most 1 500 bytes of payload (R176). -/
def wfFrame (f : LineFrame) : Bool := decide (f.payload.length ≤ 1500)

/-- Nodes of a line: addresses 1 to 10 (R12). -/
def wfNodes (l : List Nat) : Bool := l.all (fun a => decide (1 ≤ a) && decide (a ≤ 10))

/-- A cycle message: an arm command code, joint commands of the arm's slots (R227). -/
def wfCycle (m : CycleMsg) : Bool :=
  decide (m.armCmd < 16) && m.jointCmds.all (fun e => decide (e.1 < 10) && decide (e.2.1 < 8))

/-- The well-formed commands. -/
def Instr.wf : Instr → Bool
  | .registerWrite _ _ size _ => wfSize size
  | .registerRead i _ k => wfSize k.size && (!k.reserve || (wfAtomic i && k.size == 4))
  | .memoryWrite i _ d => wfCore i && wfSize d.data.length && (d.op == .plain || (wfAtomic i && d.data.length == 4))
  | .pcieRequest write _ _ len data => wfPcie write len data
  | .postNow _ v => wfPost v 0
  | .postDelay _ v => wfPost v 1
  | .postWait _ v => wfPost v 2
  | .rigApply _ v => wfField v 0 4 == 1
  | .rollup _ v => wfField v 0 4 == 2
  | .calwrite _ v => wfField v 0 4 == 3
  | .keyprog _ v => wfField v 0 4 == 4
  | .keyrev _ v => wfField v 0 4 == 5
  | .keylock _ v => wfField v 0 4 == 6
  | .lineRun _ _ v => wfField v 0 1 == 1
  | .lineStop _ _ v => wfField v 0 1 == 0
  | .mbRead _ _ v => wfField v 0 3 == 3
  | .mbWrite _ _ v => wfField v 0 3 == 5
  | .mbIdent _ _ v => wfField v 0 3 == 7
  | .peFrameRx _ _ frame _ => decide (14 ≤ frame.length)
  | .canFrameRx _ f _ => wfCan f
  | .reply _ f => wfFrame f
  | .mbrsp _ f => wfFrame f
  | .partnerCycleFrame _ f => wfFrame f
  | .coldFrame _ f => wfFrame f
  | .coldMbrsp _ f => wfFrame f
  | .ownFrameAtFarEnd _ f => wfFrame f
  | .presenceSegment _ _ d => decide (d.payload.length ≤ 65507)
  | .partnerMask _ _ crcs => wfNodes (crcs.map (fun e => e.1))
  | .stayNodeDelayMeans _ x => wfNodes (x.means.map (fun e => e.1))
  | .cycleMessage _ m => wfCycle m
  | .checkpointPage page data _ => decide (page < 2048) && data.length == 4096
  | .eccError _ a _ => a.toNat % 4 == 0
  | _ => true

end Sys2Proof
end

