-- ==== Sys2Proof/Certificates/Slice0/Obligations.lean ====
section
/-! DEFINITION. The statements for the provers: what the commands do and what they leave alone, by the rules of the spec. -/

open Sys2Proof Sys2Proof.Machine

/-! ### The block as a whole -/

/-- A step of a state whose queue is not empty runs the command in front on the state with the queue's rest. -/
def Obligations.StepRunsTheFrontCommand : Prop :=
  ∀ (s : State) (c : Instr) (rest : List Instr),
    s.pending = c :: rest → step s = exec c { s with pending := rest }

/-- On an empty queue one tick of the time base passes (the model's choice, assumption 1): in the 400 MHz mode the counter
advances by the increment in effect and what the slew adds, in the TCXO mode by sixteen increments (R31, R36); on a furled
module nothing but cell time with its timers and windows and the nets changes. -/
def Obligations.EmptyQueueStepIsOneTick : Prop :=
  ∀ s : State, s.pending = [] →
    ∃ t, step s = .next t ∧ t.time.stepPend = none ∧ t.time.incr = s.time.incr ∧
      (s.time.stepPend = none → s.clkMode = 0 →
        (t.time.ct : Int) = ((s.time.ct : Int) + s.time.incr + clampI (-(s.slewStep : Int)) s.slewStep s.time.slew) % 2 ^ 96 ∧
        t.time.slew = s.time.slew - clampI (-(s.slewStep : Int)) s.slewStep s.time.slew) ∧
      (s.time.stepPend = none → s.clkMode = 1 →
        (t.time.ct : Int) = ((s.time.ct : Int) + 16 * s.time.incr) % 2 ^ 96 ∧ t.time.slew = s.time.slew) ∧
      (s.power.furled = true → { t with time := s.time, rigging := s.rigging } = s)

/-- Every command has an effect in every state: none stops with a fault or a refusal (assumptions 2 and 12). -/
def Obligations.EveryCommandAnswersANextState : Prop :=
  ∀ (c : Instr) (s : State), ∃ t, exec c s = .next t

/-- After reset the tables of registers, memory and flash are in their canonical form, cell time is 0, CT_STAT.VALID and
STEPPED are 0 and TIME_LOST is set (R37), and no command waits. -/
def Obligations.ResetIsPowerOnWithoutRetainedState : Prop :=
  State.tables State.reset ∧ State.reset.time.ct = 0 ∧ State.reset.fld CT_STAT_VALID = 0 ∧ State.reset.fld CT_STAT_STEPPED = 0 ∧
    (State.reset.reg (GLB_FAULT_STICKY 0)).getLsbD 9 = true ∧ State.reset.pending = []

/-- Every step keeps the canonical form of the memory, the flash, the registers and the values in effect. -/
def Obligations.EveryStepKeepsTheTablesCanonical : Prop :=
  ∀ s t : State, State.tables s → step s = .next t → State.tables t

/-- No command touches the queue: a step takes the command in front and leaves the others as they are. -/
def Obligations.EveryStepTakesOnlyTheFrontCommand : Prop :=
  ∀ s t : State, step s = .next t → t.pending = s.pending.tail

/-! ### Accesses to registers and memories (chapters Scope and Conventions, Host Access and Register Map) -/

/-- A write changes each field of a register as R6's table says of its access type: RW takes the written value, RWS takes it unless
sealed, W1C clears the bits written as 1, W1S sets them, RO, RC and WO keep (what a WO field does is its own rule). The other
registers and the memory keep. Where sealed fields are written with other values than they hold, SEALED_WRITE is set. -/
def Obligations.WritesFollowTheAccessTypes : Prop :=
  ∀ (s : State) (i : Initiator) (a : Nat) (v : Word) (r : RegRow), findRow a = some r →
    let old := fun (f : FieldRow) => bits (s.reg a).toNat f.lo f.width
    let new := fun (f : FieldRow) => bits v.toNat f.lo f.width
    let t := s.plainWrite i a v
    let got := fun (f : FieldRow) => bits (t.reg a).toNat f.lo f.width
    ((s.rig.sealed = false ∨ ∀ g ∈ r.fields, g.acc = .rws → new g = old g) →
      (∀ f ∈ r.fields,
        (f.acc = .rw → got f = new f) ∧ (f.acc = .rws → got f = if s.rig.sealed then old f else new f) ∧
        (f.acc = .w1c → got f = old f - (old f &&& new f)) ∧ (f.acc = .w1s → got f = (old f ||| new f)) ∧
        (f.acc = .ro ∨ f.acc = .rc ∨ f.acc = .wo → got f = old f)) ∧
      (∀ b, b ≠ a → t.reg b = s.reg b) ∧ (∀ b, t.rdB b = s.rdB b)) ∧
    ((s.rig.sealed = true ∧ ∃ g ∈ r.fields, g.acc = .rws ∧ new g ≠ old g) →
      (t.reg (GLB_FAULT_STICKY 0)).getLsbD 1 = true)

/-- REGISTER_WRITE and REGISTER_READ as a load: an access of the host of another size or alignment than an aligned word sets
BUS_SIZE and does nothing else, and a read of it returns 0 (R5); a misaligned one of a core does the same and raises the core's exception (R5, R263).
Where an access raises no exception of a core, a write to an address of a block that holds no register is ignored and a read of it
returns 0 (R8), and a word written to GLB_WAKE_AT_LO is held there and read back. -/
def Obligations.RegisterAccessesBySizeAndPlace : Prop :=
  (∀ (s : State) (a v : Word) (n : Nat), s.stuck .host = false → a.toNat < 0x100000 → (n ≠ 4 ∨ a.toNat % 4 ≠ 0) →
    exec (.registerWrite .host a n v) s = .next (s.sticky 0 6 a.toNat) ∧
    exec (.registerRead .host a ⟨n, false⟩) s = .next ((s.answer 0).sticky 0 6 a.toNat)) ∧
  (∀ (s : State) (i : Initiator) (a v : Word) (n : Nat), i ≠ .host → s.stuck i = false → a.toNat < 0x100000 → a.toNat % n ≠ 0 →
    exec (.registerWrite i a n v) s = .next ((s.raise i .storeMisaligned).sticky 0 i.num a.toNat) ∧
    exec (.registerRead i a ⟨n, false⟩) s = .next (((s.raise i .loadMisaligned).answer 0).sticky 0 i.num a.toNat)) ∧
  (∀ (s : State) (i : Initiator) (a v : Word), s.stuck i = false → s.underWay = true → a.toNat % 4 = 0 →
    a.toNat / 0x10000 = 0 → findRow a.toNat = none →
    (s.coreExc i .store a.toNat 4 = none → exec (.registerWrite i a 4 v) s = .next s) ∧
    (s.coreExc i .load a.toNat 4 = none → exec (.registerRead i a ⟨4, false⟩) s = .next (s.answer 0))) ∧
  (∀ (s : State) (i : Initiator) (v : Word), s.stuck i = false → s.underWay = true →
    s.coreExc i .store GLB_WAKE_AT_LO 4 = none → s.coreExc i .load GLB_WAKE_AT_LO 4 = none →
    ∃ t u, exec (.registerWrite i (BitVec.ofNat 32 GLB_WAKE_AT_LO) 4 v) s = .next t ∧
      t = s.setReg GLB_WAKE_AT_LO v ∧
      exec (.registerRead i (BitVec.ofNat 32 GLB_WAKE_AT_LO) ⟨4, false⟩) t = .next u ∧ u.data = v)

/-- MEMORY_WRITE as a store that raises no exception of a core: an aligned access of 1, 2, 4 or 8 bytes to general SRAM by an
initiator that does not wait stores its bytes there, outside the mirror region, and changes no other byte (R5, R10, R355); one of the host to an
address in no range has no effect (R355); one to DRAM by another initiator than an application core stores its bytes, and is ignored with
SP_AREA_WRITE in the structure and instance areas (R105); a write to the canvas SRAM is ignored with CV_AREA_WRITE (R126), one by an application core to a
safety core's memory with SC_TCM_WRITE (R267), one to a fixed area of an engine's data memory sets SE_STAT.HOSTW (R82). In general SRAM outside the mirror
region an SC stores and answers 0 while its core's reservation of the word stands, and answers 1 and stores nothing otherwise; an atomic
memory operation answers the word read and stores the operation's result (R263). -/
def Obligations.MemoryWritesByRegion : Prop :=
  (∀ (s : State) (i : Initiator) (a : Word) (bs : List Byte), s.stuck i = false → s.underWay = true →
    s.coreExc i .store a.toNat bs.length = none →
    0x08000000 ≤ a.toNat → a.toNat < 0x09000000 → alignedAccess a.toNat bs.length = true →
    (s.mirPage a.toNat = none ∨ (s.role ≠ 1 ∧ s.role ≠ 2)) →
    ∃ t, exec (.memoryWrite i a ⟨bs, .plain⟩) s = .next t ∧
      (∀ k (h : k < bs.length), t.rdB (a.toNat + k) = bs[k]) ∧
      (∀ b, b < a.toNat ∨ a.toNat + bs.length ≤ b → t.rdB b = s.rdB b) ∧ t.regs = s.regs ∧ t.joints = s.joints) ∧
  (∀ (s : State) (a : Word) (bs : List Byte), s.stuck .host = false → s.underWay = true →
    0x50000000 ≤ a.toNat → exec (.memoryWrite .host a ⟨bs, .plain⟩) s = .next s) ∧
  (∀ (s : State) (i : Initiator) (a : Word) (bs : List Byte), s.stuck i = false → s.underWay = true →
    s.coreExc i .store a.toNat bs.length = none →
    0x04000000 ≤ a.toNat → a.toNat < 0x06000000 → alignedAccess a.toNat bs.length = true →
    exec (.memoryWrite i a ⟨bs, .plain⟩) s = .next (s.sticky 38 i.num a.toNat)) ∧
  (∀ (s : State) (i : Initiator) (a : Word) (bs : List Byte), s.stuck i = false → s.underWay = true → (∀ c, i ≠ .ac c) →
    s.coreExc i .store a.toNat bs.length = none →
    0x40000000 ≤ a.toNat → a.toNat < 0x50000000 → alignedAccess a.toNat bs.length = true →
    (s.sparArea a.toNat = true → exec (.memoryWrite i a ⟨bs, .plain⟩) s = .next (s.sticky 37 i.num a.toNat)) ∧
    (s.sparArea a.toNat = false → ∃ t, exec (.memoryWrite i a ⟨bs, .plain⟩) s = .next t ∧ (∀ k (h : k < bs.length), t.rdB (a.toNat + k) = bs[k]) ∧
      (∀ b, b < a.toNat ∨ a.toNat + bs.length ≤ b → t.rdB b = s.rdB b) ∧ t.regs = s.regs ∧ t.joints = s.joints)) ∧
  (∀ (s : State) (a : Word) (bs : List Byte) (c : Fin 4), s.stuck (.ac c) = false → s.underWay = true →
    s.coreExc (.ac c) .store a.toNat bs.length = none →
    0x12000000 ≤ a.toNat → a.toNat < 0x12080000 → alignedAccess a.toNat bs.length = true →
    exec (.memoryWrite (.ac c) a ⟨bs, .plain⟩) s = .next (s.sticky 39 c.val a.toNat)) ∧
  (∀ (s : State) (i : Initiator) (e : Fin 8) (o : Nat) (bs : List Byte), s.stuck i = false → s.underWay = true → o < 0x4000 →
    s.coreExc i .store (seData e o) bs.length = none → alignedAccess o bs.length = true →
    exec (.memoryWrite i (BitVec.ofNat 32 (seData e o)) ⟨bs, .plain⟩) s = .next (s.setFld (SE_STAT_HOSTW e) 1)) ∧
  (∀ (s : State) (c : Fin 4) (a : Word) (bs : List Byte), s.stuck (.ac c) = false → s.underWay = true → bs.length = 4 →
    s.coreExc (.ac c) .atomic a.toNat 4 = none → 0x08000000 ≤ a.toNat → a.toNat < 0x09000000 →
    (s.mirPage a.toNat = none ∨ (s.role ≠ 1 ∧ s.role ≠ 2)) →
    (s.cores.resv.find? (fun e => e.1 == c.val) = some (c.val, a.toNat) →
      ∃ t, exec (.memoryWrite (.ac c) a ⟨bs, .cond⟩) s = .next t ∧ t.data = 0 ∧ t.rdBytes a.toNat 4 = bs ∧
        (∀ b, b < a.toNat ∨ a.toNat + 4 ≤ b → t.rdB b = s.rdB b) ∧ t.cores.resv.find? (fun e => e.1 == c.val) = none) ∧
    (s.cores.resv.find? (fun e => e.1 == c.val) ≠ some (c.val, a.toNat) →
      ∃ t, exec (.memoryWrite (.ac c) a ⟨bs, .cond⟩) s = .next t ∧ t.data = 1 ∧ t.mem = s.mem) ∧
    (∀ f, s.eccHit a.toNat 4 = none → s.opaqueMem a.toNat = false →
      ∃ t, exec (.memoryWrite (.ac c) a ⟨bs, (.amo f)⟩) s = .next t ∧ t.data = BitVec.ofNat 32 (s.rd32 a.toNat) ∧
        t.rd32 a.toNat = (amoValue f (BitVec.ofNat 32 (s.rd32 a.toNat)) (BitVec.ofNat 32 (leNat bs))).toNat ∧
        (∀ b, b < a.toNat ∨ a.toNat + 4 ≤ b → t.rdB b = s.rdB b)))

/-- An occurrence of a sticky bit sets it and keeps the others (R372), is counted by the log, whose newest entry names it (R375), and
changes no joint, arm, engine, line, queue or time. -/
def Obligations.StickyBitIsSetAndLogged : Prop :=
  ∀ (s : State) (b inst detail : Nat), b < 256 →
    let t := s.sticky b inst detail
    (t.reg (GLB_FAULT_STICKY (b / 32))).getLsbD (b % 32) = true ∧
    (∀ w k, w < 8 → k < 32 → (w ≠ b / 32 ∨ k ≠ b % 32) →
      (t.reg (GLB_FAULT_STICKY w)).getLsbD k = (s.reg (GLB_FAULT_STICKY w)).getLsbD k) ∧
    (∃ e es, t.log.entries = e :: es ∧ e.bit = b ∧ e.inst = inst) ∧
    t.time = s.time ∧ t.joints = s.joints ∧ t.arms = s.arms ∧ t.engines = s.engines ∧ t.lines = s.lines ∧
    t.eff = s.eff ∧ t.flash = s.flash ∧ t.power = s.power ∧ t.rig = s.rig ∧ t.pending = s.pending

/-! ### Cycle starts and boundaries (chapter The Cell, the Lines and the Four Rates) -/

/-- SERVO_CYCLE_START (R350, R389): at a cycle start of line `n` that was not taken yet, while no REEF waits, the line's start net 2 + n is high at
the end of the step; while a REEF waits for the lines, the line goes to IDLE.
A second start at the same cell time does nothing (assumption 4).

SHROUD_CYCLE_START and PLAN_CYCLE_START (R16, R22, R350): under way, at a boundary not taken yet, net 1 and net 0 are high at the end
of the step; the plan cycle's snapshot is named by its time. A second start of the same boundary does nothing (assumption 4).

HALYARD_TICK (R17, R306, R386): reefed with a rig applied and no input enabled as a wake source, at a tick boundary not taken yet, every input
with a limit counts its sample, up while the terminal differs from the filtered level and down while it does not; a count that reaches the
limit declares the change: FI_DIN takes the terminal's level, FI_DIi_TS the time of its edge, and the count starts anew. Memory, joints and axes
keep, and without change-of-state events every register but FI_DIN and the timestamps. A second command for the same boundary does nothing (assumption 4). -/
def Obligations.CycleStartsAndTicksActOncePerBoundary : Prop :=
  ((∀ (s : State) (n : Fin 8), s.underWay = true →
    ((s.line n).seenCyc && (s.line n).cycAt == s.cycleStart (s.linePer n)) = false →
    (s.power.reefWait = false → ∃ t, exec (.servoCycleStart n) s = .next t ∧ (t.net (2 + n)).high = true) ∧
    (s.power.reefWait = true → s.power.reefLines = true →
      ∃ t, exec (.servoCycleStart n) s = .next t ∧ t.fld (TL_LSTAT_STATE n) = 0)) ∧
  (∀ (s : State) (n : Fin 8), s.underWay = true →
    (s.line n).seenCyc = true → (s.line n).cycAt = s.cycleStart (s.linePer n) → exec (.servoCycleStart n) s = .next s)) ∧
  ((∀ s : State, s.underWay = true → s.shroud.cycAt ≠ some (s.cycleStart s.shPeriod) →
    ∃ t, exec .shroudCycleStart s = .next t ∧ (t.net 1).high = true) ∧
  (∀ s : State, s.underWay = true → s.shroud.cycAt = some (s.cycleStart s.shPeriod) → exec .shroudCycleStart s = .next s) ∧
  (∀ s : State, s.underWay = true → s.shroud.planAt ≠ some (s.cycleStart s.planPer) →
    ∃ t, exec .planCycleStart s = .next t ∧ t.shroud.planAt = some (s.cycleStart s.planPer) ∧ (t.net 0).high = true ∧
      t.joints = s.joints ∧ t.arms = s.arms ∧ t.engines = s.engines ∧ t.lines = s.lines ∧ t.time = s.time) ∧
  (∀ s : State, s.underWay = true → s.shroud.planAt = some (s.cycleStart s.planPer) → exec .planCycleStart s = .next s)) ∧
  ((∀ s : State, s.power.furled = false → s.underWay = false → s.fieldOn = true → s.field.tickAt ≠ some (s.cycleStart 1000) →
    s.fld GLB_WAKE_CFG_DI = 0 →
    ∃ t, exec .halyardTick s = .next t ∧ t.field.tickAt = some (s.cycleStart 1000) ∧
      (∀ k, k < 32 → s.fld (FI_DI_CFG_LIM k) ≠ 0 →
        let c := if s.rawLevel k = (s.fld FI_DIN_V).testBit k then (s.fin k).cnt - 1 else min 65535 ((s.fin k).cnt + 1)
        (c < s.fld (FI_DI_CFG_LIM k) →
          (t.fin k).cnt = c ∧ (t.fld FI_DIN_V).testBit k = (s.fld FI_DIN_V).testBit k ∧ t.reg (FI_DI_TS k) = s.reg (FI_DI_TS k)) ∧
        (s.fld (FI_DI_CFG_LIM k) ≤ c →
          (t.fin k).cnt = 0 ∧ (t.fld FI_DIN_V).testBit k = s.rawLevel k ∧
          t.reg (FI_DI_TS k) = if s.rawLevel k then (s.fin k).rise else (s.fin k).fall)) ∧
      t.mem = s.mem ∧ t.joints = s.joints ∧ t.axes = s.axes ∧
      (s.fld FI_COSEN_V = 0 → t.hal = s.hal ∧ ∀ a, a ≠ FI_DIN → (∀ k, k < 32 → a ≠ FI_DI_TS k) → t.reg a = s.reg a)) ∧
  (∀ s : State, s.field.tickAt = some (s.cycleStart 1000) → exec .halyardTick s = .next s))

/-! ### Cell time (chapter Cell Time) -/

/-- CT_INCRI_WRITE and CT_INCR_WRITE (R27, R28): a written INT is held and the increment in effect stays; a written FRAC puts the
held INT and itself into effect together where they lie within the bounds, and both registers read the increment back; outside
the bounds the increment is the nearer bound and INCR_CLAMP is set. -/
def Obligations.IncrementPartsTakeEffectTogether : Prop :=
  (∀ (s : State) (i : Initiator) (v : Word), s.domainOn CT_INCRI = true → s.effSrc ≠ 1 →
    ∃ t, exec (.ctIncriWrite i v) s = .next t ∧ t.time = { s.time with heldInt := v.toNat % 256 } ∧
      t.fld CT_INCRI_INT = v.toNat % 256 ∧ (∀ a, a ≠ CT_INCRI → t.reg a = s.reg a) ∧ t.mem = s.mem ∧ t.hal = s.hal) ∧
  (∀ (s : State) (i : Initiator) (v : Word), s.domainOn CT_INCR = true → s.effSrc ≠ 1 →
    incrMin ≤ s.time.heldInt * 2 ^ 32 + v.toNat → s.time.heldInt * 2 ^ 32 + v.toNat ≤ incrMax →
    ∃ t, exec (.ctIncrWrite i v) s = .next t ∧ t.time = { s.time with incr := s.time.heldInt * 2 ^ 32 + v.toNat } ∧
      t.fld CT_INCR_FRAC = v.toNat ∧ t.fld CT_INCRI_INT = s.time.heldInt ∧
      (∀ a, a ≠ CT_INCR → a ≠ CT_INCRI → t.reg a = s.reg a) ∧ t.mem = s.mem ∧ t.hal = s.hal) ∧
  (∀ (s : State) (i : Initiator) (v : Word), s.domainOn CT_INCR = true → s.effSrc ≠ 1 →
    (s.time.heldInt * 2 ^ 32 + v.toNat < incrMin ∨ incrMax < s.time.heldInt * 2 ^ 32 + v.toNat) →
    ∃ t, exec (.ctIncrWrite i v) s = .next t ∧
      t.time.incr = (if s.time.heldInt * 2 ^ 32 + v.toNat < incrMin then incrMin else incrMax) ∧ t.time.ct = s.time.ct ∧
      (t.reg (GLB_FAULT_STICKY 0)).getLsbD 7 = true)

/-- While the LINE source is in effect, writes to CT_INCRI, CT_INCR, CT_SLEW and CT_SLEW_CTL are ignored and set OWNED_WRITE; a module
whose role is STANDBY or STALE follows LINE whatever CFGSRC says, any other the source that CFGSRC names, 3 acting as FREE; a read of CT_STAT
shows the source in effect in EFFSRC (R30). -/
def Obligations.LineSourceOwnsTheTimeRegisters : Prop :=
  (∀ (s : State) (i : Initiator) (v : Word), s.underWay = true → s.effSrc = 1 →
    exec (.ctIncriWrite i v) s = .next (s.setFld CT_STAT_OWNED_WRITE 1) ∧
    exec (.ctIncrWrite i v) s = .next (s.setFld CT_STAT_OWNED_WRITE 1) ∧
    exec (.ctSlewWrite i v) s = .next (s.setFld CT_STAT_OWNED_WRITE 1) ∧
    exec (.ctSlewCtlWrite i v) s = .next (s.setFld CT_STAT_OWNED_WRITE 1)) ∧
  (∀ s : State, (s.role = 2 ∨ s.role = 3) → s.effSrc = 1) ∧
  (∀ s : State, s.role ≠ 2 → s.role ≠ 3 → s.effSrc = if s.fld CT_CTL_CFGSRC = 3 then 0 else s.fld CT_CTL_CFGSRC) ∧
  (∀ (s : State) (i : Initiator), s.stuck i = false → s.underWay = true → s.coreExc i .load CT_STAT 4 = none →
    ∃ t, exec (.registerRead i (BitVec.ofNat 32 CT_STAT) ⟨4, false⟩) s = .next t ∧ bits t.data.toNat 2 2 = s.effSrc)

/-- CT_SLEW_WRITE, CT_SLEW_CTL_WRITE and SLEW_END (R31, R32): the written amount replaces the remaining slew; PPM 0 acts as 1 and a
value above 200 as 200, and the register then reads so (the model's choice, assumption 215); the final tick adds exactly what remains and leaves none.

STEP (R33): while STEPPED is 0 and no line sends CYCLE frames, a write of CT_STEP_HI sets STEPPED and VALID, and the next tick adds
the signed 64-bit offset; otherwise it does nothing but set STEP_REFUSED. -/
def Obligations.SlewEndsExactlyAndTheCounterStepsOnce : Prop :=
  ((∀ (s : State) (i : Initiator) (v : Word), s.domainOn CT_SLEW = true → s.effSrc ≠ 1 →
    exec (.ctSlewWrite i v) s = .next { s with time := { s.time with slew := v.toInt * 2 ^ 32 } }) ∧
  (∀ (s : State) (i : Initiator) (v : Word), s.domainOn CT_SLEW_CTL = true → s.effSrc ≠ 1 →
    ∃ t, exec (.ctSlewCtlWrite i v) s = .next t ∧
      t.fld CT_SLEW_CTL_PPM = (if v.toNat % 256 = 0 then 1 else if 200 < v.toNat % 256 then 200 else v.toNat % 256) ∧
      (∀ a, a ≠ CT_SLEW_CTL → t.reg a = s.reg a) ∧ t.time = s.time ∧ t.mem = s.mem) ∧
  (∀ s : State, s.clkMode = 0 → s.time.stepPend = none → s.time.slew ≠ 0 → s.time.slew.natAbs ≤ s.slewStep →
    ∃ t, exec .slewEnd s = .next t ∧ t.time.slew = 0 ∧
      (t.time.ct : Int) = ((s.time.ct : Int) + s.time.incr + s.time.slew) % 2 ^ 96 ∧ t.time.incr = s.time.incr)) ∧
  ((∀ (s : State) (i : Initiator) (v : Word), s.domainOn CT_STEP_HI = true → s.fld CT_STAT_STEPPED = 0 → s.linesSending = false →
    ∃ t, exec (.step i v) s = .next t ∧ t.fld CT_STAT_STEPPED = 1 ∧ t.fld CT_STAT_VALID = 1 ∧
      t.time = { s.time with stepPend := some ((v ++ s.reg CT_STEP_LO).toInt) } ∧
      (∀ a, a ≠ CT_STAT → t.reg a = s.reg a) ∧ t.mem = s.mem ∧
      (t.clkMode = 0 → (t.tick.time.ct : Int) =
        ((s.time.ct : Int) + (s.time.incr + t.slewNow + (v ++ s.reg CT_STEP_LO).toInt * 2 ^ 32)) % 2 ^ 96)) ∧
  (∀ (s : State) (i : Initiator) (v : Word), s.domainOn CT_STEP_HI = true →
    (s.fld CT_STAT_STEPPED = 1 → exec (.step i v) s = .next (s.sticky 8 0 0)) ∧
    (s.fld CT_STAT_STEPPED = 0 → s.linesSending = true → exec (.step i v) s = .next (s.sticky 8 0 1))))

/-- CT_NOW_LO_READ and a read of CT_NOW_HI (R38): the low word of the count is returned and the high word copied into the reading
initiator's shadow, which its later read of CT_NOW_HI returns; the other initiators' shadows keep. TIME_CSR_READ does the same for
a core's own pair (R261). -/
def Obligations.ShortTimeReadLatchesTheHighWord : Prop :=
  (∀ (s : State) (i : Initiator), s.domainOn CT_NOW_LO = true →
    ∃ t, exec (.ctNowLoRead i) s = .next t ∧ t.data = BitVec.ofNat 32 s.now ∧
      (t.inis i).nowHi = BitVec.ofNat 32 (s.nowNs / 2 ^ 32) ∧
      (∀ j, j.num ≠ i.num → t.inis j = s.inis j) ∧ t.regs = s.regs ∧ t.time = s.time ∧ t.mem = s.mem ∧
      (∀ u : State, u.ini = t.ini → u.regView i CT_NOW_HI = BitVec.ofNat 32 (s.nowNs / 2 ^ 32))) ∧
  (∀ (s : State) (c : Fin 4),
    ∃ t, exec (.timeCsrRead c) s = .next t ∧ t.data = BitVec.ofNat 32 s.now ∧
      (t.inis (.ac c)).timeh = BitVec.ofNat 32 (s.nowNs / 2 ^ 32) ∧ (t.inis (.ac c)).nowHi = (s.inis (.ac c)).nowHi ∧
      t.regs = s.regs ∧ t.time = s.time ∧ t.mem = s.mem)

/-- TIMER_ARM, TIMER_TARGET_WRITE and TIMER_FIRE (R41, R42, R44): a write of the control register arms the timer with EN 1 and disarms it with EN 0; a target written while EN is 1
arms it for the new target, after a firing for the old one where that is reached; a target written while EN is 0 arms nothing. An armed timer whose target is reached fires: FIRED is set, with FIRED already set OVER
counts up to 255, and in periodic mode the next target is the previous one plus PER, a PER from 1 to 99 acting as 100, while in one-shot mode the firing disarms it; EN stays. An unarmed timer does not fire, nor one whose target
is not reached.

WINDOW_ARM, WINDOW_OPEN and WINDOW_CLOSE (R45, R46): a write with EN 1 arms the window with the occurrence [OPEN, CLOSE), unless its length is zero or negative or PER × 8 is not 0 and not greater than it, when EMPTY is set, or CLOSE is
reached already, when MISSED is set; every write closes an open window without an event, and one with EN 0 disarms it. An armed window opens once OPEN is reached and closes once CLOSE is reached, and does neither before; at its closing a PER of 0 disarms it,
one that fits advances OPEN and CLOSE by PER × 8 and re-arms it, and one that does not sets EMPTY and stops it. -/
def Obligations.TimersAndWindowsArmAndFire : Prop :=
  ((∀ (s : State) (i : Initiator) (n : Fin 16) (v : Word), s.domainOn (CT_TMR_CTL n) = true →
    ∃ t, exec (.timerArm i n v) s = .next t ∧ (t.tmr n).armed = v.getLsbD 0 ∧ t.fld (CT_TMR_CTL_EN n) = v.toNat % 2 ∧
      (∀ a, a ≠ CT_TMR_CTL n → t.reg a = s.reg a) ∧ (∀ m, m ≠ n.val → t.tmr m = s.tmr m) ∧ t.mem = s.mem) ∧
  (∀ (s : State) (i : Initiator) (n : Fin 16) (v : Word), s.domainOn (CT_TMR_TGT n) = true →
    ∃ t, exec (.timerTargetWrite i n v) s = .next t ∧ t.reg (CT_TMR_TGT n) = v ∧ (∀ m, m ≠ n.val → t.tmr m = s.tmr m) ∧ t.mem = s.mem ∧
      (s.fld (CT_TMR_CTL_EN n) = 1 → (t.tmr n).armed = true) ∧
      (((s.tmr n).armed && reached (s.reg (CT_TMR_TGT n)).toNat s.now) = true → t.fld (CT_TMR_STAT_FIRED n) = 1) ∧
      (((s.tmr n).armed && reached (s.reg (CT_TMR_TGT n)).toNat s.now) = false →
        (s.fld (CT_TMR_CTL_EN n) = 0 → t.tmr n = s.tmr n) ∧ (∀ a, a ≠ CT_TMR_TGT n → t.reg a = s.reg a))) ∧
  (∀ (s : State) (n : Fin 16), s.underWay = true → (s.tmr n).armed = true → reached (s.reg (CT_TMR_TGT n)).toNat s.now = true →
    ∃ t, exec (.timerFire n) s = .next t ∧ t.fld (CT_TMR_STAT_FIRED n) = 1 ∧
      t.fld (CT_TMR_STAT_OVER n) = (if s.fld (CT_TMR_STAT_FIRED n) = 1 then min 255 (s.fld (CT_TMR_STAT_OVER n) + 1) else s.fld (CT_TMR_STAT_OVER n)) ∧
      t.reg (CT_TMR_CTL n) = s.reg (CT_TMR_CTL n) ∧
      ((s.reg (CT_TMR_PER n)).toNat = 0 → (t.tmr n).armed = false ∧ t.reg (CT_TMR_TGT n) = s.reg (CT_TMR_TGT n)) ∧
      ((s.reg (CT_TMR_PER n)).toNat ≠ 0 → (t.tmr n).armed = true ∧
        t.reg (CT_TMR_TGT n) = s.reg (CT_TMR_TGT n) + BitVec.ofNat 32 (max 100 (s.reg (CT_TMR_PER n)).toNat)) ∧
      (s.fld (CT_TMR_CTL_IRQ n) = 1 → (t.reg GLB_HIRQ_STAT).getLsbD (16 + n) = true) ∧
      (∀ m, m ≠ n.val → t.tmr m = s.tmr m) ∧ t.mem = s.mem ∧ (s.fld (CT_TMR_CTL_HAL n) = 0 → t.hal = s.hal) ∧
      (s.fld (CT_TMR_CTL_HAL n) = 0 → s.fld (CT_TMR_CTL_IRQ n) = 0 → ∀ a, a ≠ CT_TMR_TGT n → a ≠ CT_TMR_STAT n → t.reg a = s.reg a)) ∧
  (∀ (s : State) (n : Fin 16), ((s.tmr n).armed = false ∨ reached (s.reg (CT_TMR_TGT n)).toNat s.now = false) →
    exec (.timerFire n) s = .next s)) ∧
  ((∀ (s : State) (i : Initiator) (n : Fin 8) (v : Word), s.domainOn (CT_WIN_CTL n) = true →
    let len := diff32 (s.reg (CT_WIN_CLOSE n)).toNat (s.reg (CT_WIN_OPEN n)).toNat
    let per : Nat := v.toNat / 2 ^ 13 * 8
    ∃ t, exec (.windowArm i n v) s = .next t ∧ t.fld (CT_WIN_STAT_ACTIVE n) = 0 ∧ t.mem = s.mem ∧ t.hal = s.hal ∧
      (∀ a, a ≠ CT_WIN_CTL n → a ≠ CT_WIN_STAT n → t.reg a = s.reg a) ∧ (∀ m, m ≠ n.val → t.win m = s.win m) ∧
      (v.getLsbD 0 = false → (t.win n).armed = false) ∧
      (v.getLsbD 0 = true →
        (len ≤ 0 → (t.win n).armed = false ∧ t.fld (CT_WIN_STAT_EMPTY n) = 1) ∧
        (0 < len → reached (s.reg (CT_WIN_CLOSE n)).toNat s.now = true → (t.win n).armed = false ∧ t.fld (CT_WIN_STAT_MISSED n) = 1) ∧
        (0 < len → reached (s.reg (CT_WIN_CLOSE n)).toNat s.now = false → per ≠ 0 → (per : Int) ≤ len →
          (t.win n).armed = false ∧ t.fld (CT_WIN_STAT_EMPTY n) = 1) ∧
        (0 < len → reached (s.reg (CT_WIN_CLOSE n)).toNat s.now = false → (per = 0 ∨ len < (per : Int)) →
          (t.win n).armed = true ∧ (t.win n).occ = true ∧ (t.win n).occOpen = s.reg (CT_WIN_OPEN n) ∧ (t.win n).occClose = s.reg (CT_WIN_CLOSE n)))) ∧
  (∀ (s : State) (n : Fin 8), s.underWay = true →
    ((s.win n).armed = true → s.fld (CT_WIN_STAT_ACTIVE n) = 0 → reached (s.win n).occOpen.toNat s.now = true →
      ∃ t, exec (.windowOpen n) s = .next t ∧ t.fld (CT_WIN_STAT_ACTIVE n) = 1 ∧ t.win n = s.win n ∧ t.mem = s.mem ∧
        (s.fld (CT_WIN_CTL_HALOPEN n) = 0 → t = s.setFld (CT_WIN_STAT_ACTIVE n) 1)) ∧
    (((s.win n).armed = false ∨ s.fld (CT_WIN_STAT_ACTIVE n) = 1 ∨ reached (s.win n).occOpen.toNat s.now = false) →
      exec (.windowOpen n) s = .next s)) ∧
  (∀ (s : State) (n : Fin 8), s.underWay = true →
    let len := diff32 (s.reg (CT_WIN_CLOSE n)).toNat (s.reg (CT_WIN_OPEN n)).toNat
    let per : Nat := s.fld (CT_WIN_CTL_PER n) * 8
    ((s.win n).armed = true → s.fld (CT_WIN_STAT_ACTIVE n) = 1 → reached (s.win n).occClose.toNat s.now = true →
      ∃ t, exec (.windowClose n) s = .next t ∧ t.fld (CT_WIN_STAT_ACTIVE n) = 0 ∧ t.mem = s.mem ∧
        (per = 0 → (t.win n).armed = false ∧ t.reg (CT_WIN_OPEN n) = s.reg (CT_WIN_OPEN n) ∧ t.reg (CT_WIN_CLOSE n) = s.reg (CT_WIN_CLOSE n)) ∧
        (per ≠ 0 → (per : Int) ≤ len → (t.win n).armed = false ∧ t.fld (CT_WIN_STAT_EMPTY n) = 1) ∧
        (per ≠ 0 → len < (per : Int) → (t.win n).armed = true ∧
          t.reg (CT_WIN_OPEN n) = s.reg (CT_WIN_OPEN n) + BitVec.ofNat 32 per ∧ t.reg (CT_WIN_CLOSE n) = s.reg (CT_WIN_CLOSE n) + BitVec.ofNat 32 per ∧
          (t.win n).occOpen = t.reg (CT_WIN_OPEN n) ∧ (t.win n).occClose = t.reg (CT_WIN_CLOSE n)) ∧
        (s.fld (CT_WIN_CTL_HALCLOSE n) = 0 → t.hal = s.hal ∧
          ∀ a, a ≠ CT_WIN_STAT n → a ≠ CT_WIN_OPEN n → a ≠ CT_WIN_CLOSE n → t.reg a = s.reg a)) ∧
    (((s.win n).armed = false ∨ s.fld (CT_WIN_STAT_ACTIVE n) = 0 ∨ reached (s.win n).occClose.toNat s.now = false) →
      exec (.windowClose n) s = .next s)))

/-- LATCH_CAPTURE and LATCH_FRAC_READ (R40, R47, R48): an enabled latch with VALID 0 takes the timestamp of an edge of its polarity, corrected by its pin's fixed delay, with WINEN
only one inside an occurrence of its window; with VALID 1 it keeps the
old one and sets OVERRUN; another edge leaves the registers; a read of FRAC returns it and clears VALID. (Edges less than 5 ns after the one before may be lost, R49: the
first two clauses are about others.) -/
def Obligations.LatchesCaptureAndRelease : Prop :=
  (∀ (s : State) (n : Fin 32) (falling : Bool) (ts : Stamp), s.underWay = true → s.fld (CT_LAT_CTL_EN n) = 1 →
    let u := s.stampOn (s.netLine (s.fld (CT_LAT_CTL_NET n))) ts
    edgeTakes (s.fld (CT_LAT_CTL_EDGE n)) falling = true →
    (s.fld (CT_LAT_CTL_WINEN n) = 0 ∨ s.winPasses (s.fld (CT_LAT_CTL_WIN n)) u.ns = true) →
    (∀ l, (s.lat n).last = some l → 5 * 65536 ≤ (s.full16 u - l).natAbs) →
    (s.fld (CT_LAT_STAT_VALID n) = 0 →
      ∃ t, exec (.latchCapture n falling ts) s = .next t ∧ t.reg (CT_LAT_NS n) = u.ns ∧
        t.fld (CT_LAT_FRAC_FRAC n) = u.frac.toNat ∧ t.fld (CT_LAT_STAT_VALID n) = 1 ∧
        t.fld (CT_LAT_STAT_POL n) = b2n falling ∧
        (∀ a, a ≠ CT_LAT_NS n → a ≠ CT_LAT_FRAC n → a ≠ CT_LAT_STAT n → t.reg a = s.reg a) ∧ t.mem = s.mem) ∧
    (s.fld (CT_LAT_STAT_VALID n) = 1 →
      ∃ t, exec (.latchCapture n falling ts) s = .next t ∧ t.reg (CT_LAT_NS n) = s.reg (CT_LAT_NS n) ∧
        t.fld (CT_LAT_FRAC_FRAC n) = s.fld (CT_LAT_FRAC_FRAC n) ∧ t.fld (CT_LAT_STAT_OVERRUN n) = 1 ∧
        (∀ a, a ≠ CT_LAT_STAT n → t.reg a = s.reg a) ∧ t.mem = s.mem)) ∧
  (∀ (s : State) (n : Fin 32) (falling : Bool) (ts : Stamp), s.underWay = true →
    (s.fld (CT_LAT_CTL_EN n) = 0 ∨ edgeTakes (s.fld (CT_LAT_CTL_EDGE n)) falling = false ∨
      (s.fld (CT_LAT_CTL_WINEN n) = 1 ∧
        s.winPasses (s.fld (CT_LAT_CTL_WIN n)) (s.stampOn (s.netLine (s.fld (CT_LAT_CTL_NET n))) ts).ns = false)) →
    ∃ t, exec (.latchCapture n falling ts) s = .next t ∧ t.regs = s.regs ∧ t.mem = s.mem) ∧
  (∀ (s : State) (i : Initiator) (n : Fin 32), s.domainOn (CT_LAT_FRAC n) = true →
    ∃ t, exec (.latchFracRead i n) s = .next t ∧ t.data = BitVec.ofNat 32 (s.fld (CT_LAT_FRAC_FRAC n)) ∧
      t.fld (CT_LAT_STAT_VALID n) = 0 ∧ (∀ a, a ≠ CT_LAT_STAT n → t.reg a = s.reg a) ∧ t.mem = s.mem)

/-- ENGINE_WAKE (R91): at the wake point of a cycle not woken yet, on a module that is not paired, the foreground of an engine that is not skipped, runs by
SE_CTL.RUN, has no fault, no debug halt and no run in progress, and serves nodes or local axes, is woken: SE_STAT.STATE reads FG, the cycle count
begins at 0, no CEND of this cycle is known.

COMMAND_LATCH_POINT (R18, R74, R92): where the foreground's CEND came before the latch point, the output block's records are taken for the next
frame, STALE reads 0 and the count of stale frames begins anew; where it did not, on a RUNNING line, the records of the frame before stand,
STALE reads 1, the count of stale frames rises by one, and where the CEND came late SE_MINSLACK reads 0 (R97). -/
def Obligations.WakeAndLatchPointFrameTheEngineCycle : Prop :=
  (∀ (s : State) (n : Fin 8), s.underWay = true → (s.line n).seenCyc = true → (s.line n).wakeDone = false → s.paired = false →
    (s.eng n).skipped = false → s.canWake n = true → (s.localMode n = true ∨ s.nodes n ≠ 0) →
    ∃ t, exec (.engineWake n) s = .next t ∧ t.fld (SE_STAT_STATE n) = 2 ∧ (t.eng n).woken = true ∧ (t.eng n).ended = false ∧
      (t.eng n).fgCyc = 0) ∧
  (∀ (s : State) (n : Fin 8), s.underWay = true → (s.line n).seenCyc = true → (s.line n).latched = false → s.localMode n = false →
    s.nodes n ≠ 0 →
    (s.inTime n ((s.line n).cycAt + s.fld (TL_LATCH_V n)) = true →
      ∃ t, exec (.commandLatchPoint n) s = .next t ∧ (t.arm n).staleRun = 0 ∧ t.fld (JC_ARM_STAT_STALE n) = 0 ∧
        (t.line n).stale = false ∧ (t.line n).latched = true ∧
        (t.line n).lat = (List.range (s.nodes n)).map (fun i => (i + 1, s.rdBytes (seData n (0x3000 + 0x40 * i)) 24)) ∧
        t.mem = s.mem ∧ t.hal = s.hal) ∧
    (s.inTime n ((s.line n).cycAt + s.fld (TL_LATCH_V n)) = false → s.fld (TL_LSTAT_STATE n) = 4 →
      ∃ t, exec (.commandLatchPoint n) s = .next t ∧ (t.arm n).staleRun = (s.arm n).staleRun + 1 ∧
        t.fld (JC_ARM_STAT_STALE n) = 1 ∧ ((s.eng n).woken = true → (s.eng n).ended = true → t.fld (SE_MINSLACK_MINSLACK n) = 0) ∧
        (t.line n).stale = true ∧
        (t.line n).lat = (s.line n).lat ∧ t.mem = s.mem ∧ t.hal = s.hal))

/-! ### Joint control (chapter Joint Control) -/

/-- ENABLE, DISABLE, JOINT_HOME and JOINT_CLEAR (R60): the command waits for the next cycle start of the joint's line, replacing one that waits;
nothing else changes. For a joint that the rig does not configure they have no effect.

HOLD, TRAJ, JOG, ARM_MOVE, ARM_STOP, RESUME, ENABLE_ALL, DISABLE_ALL and CLEAR_ALL (R60): the command waits for the next cycle start of the
arm's line, replacing one that waits; nothing else changes. -/
def Obligations.JointAndArmCommandsWaitForTheCycleStart : Prop :=
  (∀ (s : State) (i : Initiator) (k : Fin 64), s.underWay = true →
    (s.fld (JC_CFG_USED k) = 1 →
      exec (.enable i k) s = .next (s.setJoint k { s.joint k with pend := some 1 }) ∧
      exec (.disable i k) s = .next (s.setJoint k { s.joint k with pend := some 2 }) ∧
      exec (.jointHome i k) s = .next (s.setJoint k { s.joint k with pend := some 3 }) ∧
      exec (.jointClear i k) s = .next (s.setJoint k { s.joint k with pend := some 4 })) ∧
    (s.fld (JC_CFG_USED k) = 0 →
      exec (.enable i k) s = .next s ∧ exec (.disable i k) s = .next s ∧ exec (.jointHome i k) s = .next s ∧
      exec (.jointClear i k) s = .next s)) ∧
  (∀ (s : State) (i : Initiator) (n : Fin 8), s.underWay = true →
    exec (.hold i n) s = .next (s.setArm n { s.arm n with pend := some 1 }) ∧
    exec (.traj i n) s = .next (s.setArm n { s.arm n with pend := some 2 }) ∧
    exec (.jog i n) s = .next (s.setArm n { s.arm n with pend := some 3 }) ∧
    exec (.armMove i n) s = .next (s.setArm n { s.arm n with pend := some 4 }) ∧
    exec (.armStop i n) s = .next (s.setArm n { s.arm n with pend := some 5 }) ∧
    exec (.resume i n) s = .next (s.setArm n { s.arm n with pend := some 6 }) ∧
    exec (.enableAll i n) s = .next (s.setArm n { s.arm n with pend := some 7 }) ∧
    exec (.disableAll i n) s = .next (s.setArm n { s.arm n with pend := some 8 }) ∧
    exec (.clearAll i n) s = .next (s.setArm n { s.arm n with pend := some 9 }))

/-- What the waiting commands do when a cycle starts (R60, R63, R67, R76, R78): ENABLE takes a DISABLED joint of an arm that is not FAULTED to ENABLING and is
refused BUSY of any other; DISABLE takes an ENABLED joint of an arm in HOLD to DISABLING and is refused outside HOLD; HOLD leaves a still arm that is in HOLD there; TRAJ in
HOLD of a ready arm sets TRAJARM; JOG and MOVE in HOLD change the mode of a ready arm whose targets are within bounds and are refused BAD_TARGET
otherwise; STOP of a moving arm starts JSTOP with STOPCAUSE COMMAND; RESUME clears hold_zero; TRAJ, JOG and MOVE of an arm that is not ready are
refused NOT_READY. A refusal BUSY or NOT_READY sets JC_ARM_STAT.REFUSED. -/
def Obligations.WaitingCommandsTakeEffectOrAreRefused : Prop :=
  (∀ (s : State) (n k : Nat),
    ((s.joint k).state = .disabled → (s.arm n).mode ≠ .faulted →
      ((s.takeJoint n k 1).joint k).state = .enabling ∧ ((s.takeJoint n k 1).joint k).since = s.nowNs) ∧
    (((s.joint k).state ≠ .disabled ∨ (s.arm n).mode = .faulted) → ((s.takeJoint n k 1).joint k).state = (s.joint k).state ∧
      (s.takeJoint n k 1).fld (JC_ARM_STAT_REFUSED n) = 1 ∧ (s.takeJoint n k 1).fld (JC_ARM_STAT_REASON n) = 2) ∧
    ((s.joint k).state = .enabled → (s.arm n).mode = .hold → ((s.takeJoint n k 2).joint k).state = .disabling) ∧
    ((s.arm n).mode ≠ .hold → ((s.takeJoint n k 2).joint k).state = (s.joint k).state ∧
      (s.takeJoint n k 2).fld (JC_ARM_STAT_REFUSED n) = 1)) ∧
  (∀ (s : State) (n : Nat), s.armJoints n ≠ [] →
    ((s.arm n).mode = .hold → s.armStill n = true → ((s.takeArm n 1).arm n).mode = .hold) ∧
    (((s.arm n).mode = .jog ∨ (s.arm n).mode = .move ∨ (s.arm n).mode = .traj ∨ (s.arm n).mode = .homing) →
      ((s.takeArm n 5).arm n).mode = .jstop ∧ ((s.takeArm n 5).arm n).stopCause = 1) ∧
    ((s.takeArm n 6).arm n).holdZero = false) ∧
  (∀ (s : State) (n : Nat), s.armReady n = true →
    ((s.arm n).mode = .hold → ((s.takeArm n 2).arm n).trajArm = true ∧ ((s.takeArm n 2).arm n).mode = .hold) ∧
    ((s.arm n).mode = .hold → (∀ k ∈ s.armJoints n, s.jogBad k = false) → ((s.takeArm n 3).arm n).mode = .jog) ∧
    ((s.arm n).mode = .hold → (∃ k ∈ s.armJoints n, s.jogBad k = true) →
      ((s.takeArm n 3).arm n).mode = .hold ∧ (s.takeArm n 3).fld (JC_ARM_STAT_REASON n) = 3) ∧
    ((s.arm n).mode = .hold → (∀ k ∈ s.armJoints n, s.moveBad k = false) → ((s.takeArm n 4).arm n).mode = .move) ∧
    ((s.arm n).mode = .hold → (∃ k ∈ s.armJoints n, s.moveBad k = true) →
      ((s.takeArm n 4).arm n).mode = .hold ∧ (s.takeArm n 4).fld (JC_ARM_STAT_REASON n) = 3)) ∧
  (∀ (s : State) (n c : Nat), s.armReady n = false → 2 ≤ c → c ≤ 4 →
    ((s.takeArm n c).arm n).mode = (s.arm n).mode ∧ (s.takeArm n c).fld (JC_ARM_STAT_REFUSED n) = 1 ∧
      (s.takeArm n c).fld (JC_ARM_STAT_REASON n) = 1)

/-- HORIZON_COMMIT (R61): in this order, JC_ARM_STAT.HSTAT reports BAD_HDR for a header whose counts, reserved bits, address, length or arm are out of
bounds, BAD_START for a START that is no cycle start of the line, LATE for one already reached, NO_GRANT for a ticket that is not live and the
arm's own; otherwise the horizon becomes the pending one and HSTAT reports PENDING, or REPLACED where one was pending. A horizon that is not accepted leaves the pending
one. The other arms, the joints, engines and lines and every byte but the arm's status word keep.

ARM_APPLY (R71): a time that is not reached waits as the arm's APPLY, replacing one that waits; a time already reached is refused with APPLY_LATE, and the
shadows stay as they are. An APPLY that takes effect brings the value written last of each of the arm's and its joints' shadowed registers but JC_DLIM into
effect, clears the joints' PEND and waits no longer. JC_DLIM takes effect with them outside a deceleration ramp, or where it is not smaller; a smaller
one written since is deferred during a ramp (R72, R413). -/
def Obligations.CommitsAndAppliesWaitOrReport : Prop :=
  (∀ (s : State) (i : Initiator) (n : Fin 8), s.underWay = true →
    let a := s.fld (JC_ARM_HADDR_V n)
    let w0 := s.seWord n a
    let w1 := s.seWord n (a + 4)
    let w2 := s.seWord n (a + 8)
    let nj := (s.armJoints n).length
    let badHdr := bits w0 0 8 < 2 ∨ 64 < bits w0 0 8 ∨ bits w0 8 16 = 0 ∨ bits w0 24 8 ≠ 0 ∨ bits w2 10 22 ≠ 0 ∨ a % 8 ≠ 0 ∨ nj = 0 ∨
      a < 0x4000 ∨ 0x30000 < a + 16 + bits w0 0 8 * 12 * nj
    let badStart := s.fullTime w1 % (s.linePer n : Nat) ≠ 0
    ∃ t, exec (.horizonCommit i n) s = .next t ∧ t.fld (JC_ARM_STAT_HSTAT n) = (t.arm n).hstat ∧
      (badHdr → (t.arm n).hstat = 5) ∧
      (¬ badHdr → badStart → (t.arm n).hstat = 6) ∧
      (¬ badHdr → ¬ badStart → reached w1 s.now = true → (t.arm n).hstat = 3) ∧
      (¬ badHdr → ¬ badStart → reached w1 s.now = false → s.ticketOk n (bits w2 0 10) = false → (t.arm n).hstat = 4) ∧
      (¬ badHdr → ¬ badStart → reached w1 s.now = false → s.ticketOk n (bits w2 0 10) = true →
        (t.arm n).hstat = (if (s.arm n).pendHor.isSome then 9 else 1) ∧
        (t.arm n).pendHor = some ⟨false, a, bits w0 0 8, bits w0 8 16, w1, bits w2 0 10, s.seWord n (a + 12)⟩) ∧
      ((t.arm n).hstat ≠ 1 → (t.arm n).hstat ≠ 9 → (t.arm n).pendHor = (s.arm n).pendHor) ∧
      (∀ m, m ≠ n.val → t.arm m = s.arm m) ∧ t.joints = s.joints ∧ t.engines = s.engines ∧ t.lines = s.lines ∧
      (∀ b, (b < seData n 0x33F0 ∨ seData n 0x33F4 ≤ b) → t.rdB b = s.rdB b)) ∧
  ((∀ (s : State) (i : Initiator) (n : Fin 8) (t : Word), s.underWay = true →
    (reached t.toNat s.now = false →
      exec (.armApply i n t) s = .next (s.setArm n { s.arm n with apply := some t.toNat })) ∧
    (reached t.toNat s.now = true → exec (.armApply i n t) s = .next (s.setFld (JC_ARM_STAT_APPLY_LATE n) 1))) ∧
  (∀ (s : State) (n : Nat), n < 8 →
    ((s.applyArm n).arm n).apply = none ∧
    (∀ o ∈ armShadows, (s.applyArm n).effReg (0x34000 + 0x100 * n + o) = s.reg (0x34000 + 0x100 * n + o)) ∧
    (∀ k ∈ s.armJoints n, (s.applyArm n).fld (JC_STAT_PEND k) = 0 ∧
      ∀ o ∈ jointShadows, o ≠ 0x98 → (s.applyArm n).effReg (0x30000 + 0x100 * k + o) = s.reg (0x30000 + 0x100 * k + o))) ∧
  (∀ (s : State) (k : Nat), ((s.joint k).defer = none ∨ (s.joint k).dlimNew = true) →
    (((s.joint k).decel = false ∨ max 1 (s.effReg (JC_DLIM k)).toNat ≤ max 1 (s.reg (JC_DLIM k)).toNat) →
      (s.applyJoint k).effReg (JC_DLIM k) = s.reg (JC_DLIM k)) ∧
    ((s.joint k).decel = true → max 1 (s.reg (JC_DLIM k)).toNat < max 1 (s.effReg (JC_DLIM k)).toNat →
      (s.applyJoint k).effReg (JC_DLIM k) = s.effReg (JC_DLIM k) ∧ ((s.applyJoint k).joint k).defer = some (s.reg (JC_DLIM k)).toNat)))

/-- ENABLE_TIMEOUT (the table of joint states): ENTO ms after the command, a joint still ENABLING becomes DISABLED with cause ENTO, and one still DISABLING becomes DISABLED;
JC_STAT shows it.

STALE_FAULT, NOFB_FAULT and FERR_FAULT (R74, R75, R77, R80): when the limit of consecutive cycles is reached, every joint of the arm goes to FAULT and the arm to FAULTED;
FCAUSE is STALE on every joint, or the cause on the joint that had it and ARM on the others; JC_FAULT is set, and JC_STALE with STALE.

HOME_HARDSTOP_DETECT (R78): after 32 consecutive cycles at the hard-stop torque, the joint's position there becomes JC_HOME_OFS, and the joint backs off by JC_HOME_REL
against its search direction. -/
def Obligations.TimeoutsFaultsAndHardStopsOfJoints : Prop :=
  (∀ (s : State) (k : Fin 64), s.underWay = true → s.fld (JC_CFG_USED k) = 1 →
    (s.joint k).since + max 1 (s.fld (JC_ARM_CFG_ENTO (s.fld (JC_CFG_ARM k)))) * 1000000 ≤ s.nowNs →
    ((s.joint k).state = .enabling →
      ∃ t, exec (.enableTimeout k) s = .next t ∧ t.joint k = { s.joint k with state := .disabled, fcause := 4 } ∧
        t.fld (JC_STAT_STATE k) = 0 ∧ t.fld (JC_STAT_FCAUSE k) = 4 ∧ (∀ j, j ≠ k.val → t.joint j = s.joint j) ∧
        t.arms = s.arms ∧ t.lines = s.lines ∧ t.hal = s.hal) ∧
    ((s.joint k).state = .disabling →
      ∃ t, exec (.enableTimeout k) s = .next t ∧ t.joint k = { s.joint k with state := .disabled } ∧
        t.fld (JC_STAT_STATE k) = 0 ∧ (∀ j, j ≠ k.val → t.joint j = s.joint j) ∧ t.arms = s.arms ∧ t.lines = s.lines ∧ t.hal = s.hal)) ∧
  ((∀ (s : State) (n : Fin 8), s.underWay = true → max 1 (s.fld (JC_ARM_CFG_STALE_LIM n)) ≤ (s.arm n).staleRun →
    (s.arm n).mode ≠ .faulted → s.armJoints n ≠ [] →
    ∃ t, exec (.staleFault n) s = .next t ∧ (t.arm n).mode = .faulted ∧
      (∀ k ∈ s.armJoints n, (t.joint k).state = .fault ∧ (t.joint k).fcause = 6) ∧
      (t.reg (GLB_FAULT_STICKY 2)).getLsbD 0 = true ∧ (t.reg (GLB_FAULT_STICKY 2)).getLsbD 1 = true ∧
      (∀ k, k ∉ s.armJoints n → t.joint k = s.joint k) ∧ (∀ m, m ≠ n.val → t.arm m = s.arm m) ∧ t.lines = s.lines) ∧
  (∀ (s : State) (n : Fin 8) (k : Nat), s.underWay = true → (s.arm n).mode ≠ .faulted →
    (s.armJoints n).find? (fun k => decide (max 1 (s.fld (JC_ARM_CFG_MISS_LIM n)) ≤ (s.joint k).missRun)) = some k →
    ∃ t, exec (.nofbFault n) s = .next t ∧ (t.arm n).mode = .faulted ∧ (t.joint k).fcause = 3 ∧
      (∀ j ∈ s.armJoints n, (t.joint j).state = .fault ∧ (j ≠ k → (t.joint j).fcause = 5)) ∧
      (t.reg (GLB_FAULT_STICKY 2)).getLsbD 1 = true ∧
      (∀ j, j ∉ s.armJoints n → t.joint j = s.joint j) ∧ (∀ m, m ≠ n.val → t.arm m = s.arm m) ∧ t.lines = s.lines) ∧
  (∀ (s : State) (k : Fin 64), s.underWay = true → s.fld (JC_CFG_USED k) = 1 → s.effReg (JC_FERRLIM k) ≠ 0 →
    (s.joint k).state.live = true → max 1 (s.fld (JC_ARM_CFG_FERRCNT (s.fld (JC_CFG_ARM k)))) ≤ (s.joint k).ferrRun →
    (s.arm (s.fld (JC_CFG_ARM k))).mode ≠ .faulted →
    ∃ t, exec (.ferrFault k) s = .next t ∧ (t.arm (s.fld (JC_CFG_ARM k))).mode = .faulted ∧ (t.joint k).state = .fault ∧
      (t.joint k).fcause = 2 ∧ (t.reg (GLB_FAULT_STICKY 2)).getLsbD 1 = true ∧
      (∀ m, m ≠ s.fld (JC_CFG_ARM k) → t.arm m = s.arm m) ∧ t.lines = s.lines)) ∧
  (∀ (s : State) (k : Fin 64), s.underWay = true → s.fld (JC_CFG_USED k) = 1 → (s.joint k).phase = .search →
    s.fld (JC_CFG_HMODE k) = 2 → 32 ≤ (s.joint k).hsRun →
    ∃ t, exec (.homeHardstopDetect k) s = .next t ∧ (t.joint k).phase = .backoff ∧ (t.joint k).hsRun = 0 ∧
      (t.joint k).fbP = (s.effReg (JC_HOME_OFS k)).toInt ∧
      (t.joint k).tgt = (s.effReg (JC_HOME_OFS k)).toInt -
        (if 0 < s.homeVel k then 1 else if s.homeVel k < 0 then -1 else 0) * ((s.effReg (JC_HOME_REL k)).toNat : Int) ∧
      (t.joint k).spP = satS 56 ((s.joint k).spP + ((s.effReg (JC_HOME_OFS k)).toInt - (s.joint k).fbP) * 2 ^ 24) ∧
      t.reg (JC_POS_OFS k) = BitVec.ofInt 32 ((s.reg (JC_POS_OFS k)).toInt + ((s.effReg (JC_HOME_OFS k)).toInt - (s.joint k).fbP)) ∧
      (∀ a, a ≠ JC_POS_OFS k → t.reg a = s.reg a) ∧ (∀ j, j ≠ k.val → t.joint j = s.joint j) ∧ t.mem = s.mem ∧ t.lines = s.lines)

/-! ### Servo engines (chapter Servo Engine Programming) -/

/-- Decoding an encoded servo engine instruction gives it back, with every operand at every value that its fields admit (R89).

Words written out from the tables of formats and opcodes (R89) decode to the instructions they stand for: NOP, CEND, LDI D3 with 0x1234, MPY A1, D2, D5, LD D7 by
P4 with offset −1 and update, BR with condition 1 to 0x2A; and an undefined OP decodes to none. -/
def Obligations.ServoEncodingsRoundTrip : Prop :=
  (∀ i : SeInstr, decodeSe (encodeSe i) = some i) ∧
  (decodeSe 0xF0000000#32 = some .nop ∧ decodeSe 0xE0000000#32 = some .cend ∧
    decodeSe 0x84301234#32 = some (.ldi 3#6 0x1234#16) ∧
    decodeSe 0x05540000#32 = some (.mpy 1 2 5 ⟨false, 0, 0, false, false, 0, 0, false⟩) ∧
    decodeSe 0x63C80FFF#32 = some (.ld 7 ⟨4, 0xFFF#12, true⟩) ∧
    decodeSe 0xC040002A#32 = some (.br 1 0x2A#14) ∧ decodeSe 0x00000000#32 = none ∧ decodeSe 0xFC000000#32 = none)

/-- The arithmetic of accumulators (R86, R89): on a running context without a fault, ADD, SUB, ADDD, NEG and ABS leave in the accumulator the exact result held within 56 bits, MPY the exact product,
MAC and MSU the accumulator plus and minus it, CLR zero; Z is set by each, and V and SV by those that can saturate; the PC moves on by one. No other accumulator, no data register, pointer,
register of the block, engine or memory byte changes (MPY, MAC, MSU and CLR in their forms without loads). -/
def Obligations.AccumulatorArithmeticIsExactOrSaturates : Prop :=
  ∀ (s : State) (e : Fin 8) (c : Ctx) (ad as : Fin 4) (dm dn : Fin 8) (sh : Fin 64) (x : Instr) (v : Int),
    s.seRuns e c = true → sh.val ≤ 32 →
    let r := (s.eng e).ctx c
    let none_ : MLoads := ⟨false, 0, 0, false, false, 0, 0, false⟩
    ((x = .add e c ad as ∧ v = accVal r ad + accVal r as) ∨ (x = .sub e c ad as ∧ v = accVal r ad - accVal r as) ∨
     (x = .neg e c ad ∧ v = -accVal r ad) ∨ (x = .abs e c ad ∧ v = ((accVal r ad).natAbs : Int)) ∨
     (x = .mpy e c ad dm dn none_ ∧ v = datVal r dm * datVal r dn) ∨
     (x = .mac e c ad dm dn none_ ∧ v = accVal r ad + datVal r dm * datVal r dn) ∨
     (x = .msu e c ad dm dn none_ ∧ v = accVal r ad - datVal r dm * datVal r dn) ∨
     (x = .addd e c ad dm sh ∧ v = accVal r ad + datVal r dm * 2 ^ sh.val) ∨
     (x = .clr e c ad none_ ∧ v = 0)) →
    ∃ t, exec x s = .next t ∧
      accVal ((t.eng e).ctx c) ad = satS 56 v ∧ ((t.eng e).ctx c).sr.getLsbD 0 = decide (satS 56 v = 0) ∧
      ((x = .add e c ad as ∨ x = .sub e c ad as ∨ x = .mac e c ad dm dn none_ ∨ x = .msu e c ad dm dn none_ ∨ x = .addd e c ad dm sh ∨
        x = .neg e c ad ∨ x = .abs e c ad) →
        ((t.eng e).ctx c).sr.getLsbD 2 = decide (v ≠ satS 56 v) ∧
        ((t.eng e).ctx c).sr.getLsbD 4 = (r.sr.getLsbD 4 || decide (v ≠ satS 56 v)) ∧
        ((t.eng e).ctx c).sr.getLsbD 1 = decide (satS 56 v < 0)) ∧
      (∀ k, k ≠ ad → accVal ((t.eng e).ctx c) k = accVal r k) ∧ ((t.eng e).ctx c).d = r.d ∧ ((t.eng e).ctx c).p = r.p ∧
      ((t.eng e).ctx c).pc = r.pc + 1 ∧ t.mem = s.mem ∧ t.regs = s.regs ∧ (∀ m, m ≠ e.val → t.eng m = s.eng m)

/-- Loads of format M (R86, R89): MPY, MAC, MSU, CLR and MOVL with load A alone take the word at the pointer's address of the main bank into the data register named, post-update the pointer
where asked, and compute with the data registers as they were before the load.

Loads and stores of the engines (R82, R85, R88, R89): LD, LDA, LDE and LDP take the word at Pk + 4 × OFF of the data memory, ST and STA store the word there, STA saturated to 32 bits; the pointer
post-updates where asked. A store into a fixed area that the context may not write stores nothing and faults with AREA. Every byte outside the stored word keeps. -/
def Obligations.EngineLoadsAndStoresFollowTheirOperands : Prop :=
  (∀ (s : State) (e : Fin 8) (c : Ctx) (ad : Fin 4) (dm dn la pa : Fin 8) (u : Bool) (x : Instr) (v : Int),
    s.seRuns e c = true →
    let r := (s.eng e).ctx c
    let l : MLoads := ⟨true, la, pa, u, false, 0, 0, false⟩
    inMain (r.p[pa].toNat) = true → s.eccHit (seData e r.p[pa].toNat) 4 = none →
    ((x = .mpy e c ad dm dn l ∧ v = datVal r dm * datVal r dn) ∨ (x = .mac e c ad dm dn l ∧ v = accVal r ad + datVal r dm * datVal r dn) ∨
     (x = .msu e c ad dm dn l ∧ v = accVal r ad - datVal r dm * datVal r dn) ∨ (x = .clr e c ad l ∧ v = 0) ∨
     (x = .movl e c l ∧ v = accVal r ad)) →
    ∃ t, exec x s = .next t ∧ accVal ((t.eng e).ctx c) ad = satS 56 v ∧
      ((t.eng e).ctx c).d[la] = BitVec.ofNat 24 (s.seWord e r.p[pa].toNat) ∧
      (∀ k, k ≠ la → ((t.eng e).ctx c).d[k] = r.d[k]) ∧
      ((t.eng e).ctx c).p[pa] = (if u then postPtr r pa else r.p[pa]) ∧
      (∀ k, k ≠ pa → ((t.eng e).ctx c).p[k] = r.p[k]) ∧ ((t.eng e).ctx c).pc = r.pc + 1 ∧
      t.mem = s.mem ∧ t.regs = s.regs ∧ (∀ m, m ≠ e.val → t.eng m = s.eng m)) ∧
  (∀ (s : State) (e : Fin 8) (c : Ctx) (k : Fin 8) (ak : Fin 4) (m : LAddr), s.seRuns e c = true →
    let r := (s.eng e).ctx c
    let a := (lAddr r m).toNat
    let frame := fun (t : State) => ((t.eng e).ctx c).pc = r.pc + 1 ∧ t.regs = s.regs ∧ (∀ j, j ≠ e.val → t.eng j = s.eng j)
    let ptrs := fun (t : State) => ((t.eng e).ctx c).p[m.p] = (if m.u then postPtr r m.p else r.p[m.p]) ∧
      (∀ j, j ≠ m.p → ((t.eng e).ctx c).p[j] = r.p[j])
    (inData (lAddr r m) = true → s.eccHit (seData e a) 4 = none →
      (∃ t, exec (.ld e c k m) s = .next t ∧ ((t.eng e).ctx c).d[k] = BitVec.ofNat 24 (s.seWord e a) ∧
        (∀ j, j ≠ k → ((t.eng e).ctx c).d[j] = r.d[j]) ∧ ((t.eng e).ctx c).a = r.a ∧ ptrs t ∧ t.mem = s.mem ∧ frame t) ∧
      (∃ t, exec (.lda e c ak m) s = .next t ∧ accVal ((t.eng e).ctx c) ak = toS 32 (s.seWord e a) ∧
        ((t.eng e).ctx c).d = r.d ∧ ptrs t ∧ t.mem = s.mem ∧ frame t) ∧
      (∃ t, exec (.lde e c k m) s = .next t ∧ (((t.eng e).ctx c).e[k]).toInt = clampI (-16) 15 (toS 8 (s.seWord e a)) ∧
        ((t.eng e).ctx c).d = r.d ∧ ptrs t ∧ t.mem = s.mem ∧ frame t) ∧
      (∃ t, exec (.ldp e c k m) s = .next t ∧
        ((m.u = false ∨ k ≠ m.p) → ((t.eng e).ctx c).p[k] = ptrOf (BitVec.ofNat 18 (s.seWord e a))) ∧
        ((t.eng e).ctx c).d = r.d ∧ t.mem = s.mem ∧ frame t)) ∧
    (inData (lAddr r m) = true → seMayWrite c a = true →
      (∃ t, exec (.st e c k m) s = .next t ∧ t.seWord e a = ofS 32 (datVal r k) ∧
        (∀ b, b < seData e a ∨ seData e a + 4 ≤ b → t.rdB b = s.rdB b) ∧ ((t.eng e).ctx c).d = r.d ∧ ptrs t ∧ frame t) ∧
      (∃ t, exec (.sta e c ak m) s = .next t ∧ t.seWord e a = ofS 32 (satS 32 (accVal r ak)) ∧
        ((t.eng e).ctx c).sr.getLsbD 2 = !fitsS 32 (accVal r ak) ∧
        (∀ b, b < seData e a ∨ seData e a + 4 ≤ b → t.rdB b = s.rdB b) ∧ ((t.eng e).ctx c).a = r.a ∧ ptrs t ∧ frame t)) ∧
    (inData (lAddr r m) = true → seMayWrite c a = false →
      exec (.st e c k m) s = .next (s.seFault e c .area) ∧ exec (.sta e c ak m) s = .next (s.seFault e c .area)))

/-- Shifts, clamps and moves between registers (R86 to R89): SHA shifts by its signed count and SHE by (Ek − Ej) + c, right with the floor, left saturating at 56 bits; MVA puts the data register
shifted left into the accumulator; CLMP holds the accumulator between the two shifted bounds; CLS counts redundant sign bits; MVD stores the shifted accumulator saturated to 24 bits; LDI puts
its signed immediate into a data register; MVR copies one data register to another; CLRS clears SV. Nothing else of the engines, the registers and the memory changes. -/
def Obligations.ShiftsClampsAndMovesOfTheEngines : Prop :=
  ∀ (s : State) (e : Fin 8) (c : Ctx) (ad as : Fin 4) (dx dy ej ek : Fin 8) (sh : Fin 64) (q : BitVec 6) (imm : BitVec 16),
    s.seRuns e c = true →
    let r := (s.eng e).ctx c
    let frame := fun (t : State) => ((t.eng e).ctx c).pc = r.pc + 1 ∧ t.mem = s.mem ∧ t.regs = s.regs ∧ t.hal = s.hal ∧
      (∀ m, m ≠ e.val → t.eng m = s.eng m)
    let others := fun (t : State) => (∀ k, k ≠ ad → accVal ((t.eng e).ctx c) k = accVal r k) ∧ ((t.eng e).ctx c).d = r.d
    let shifted := fun (n : Int) => satS 56 (if 0 ≤ n then accVal r ad / (2 : Int) ^ n.toNat else accVal r ad * (2 : Int) ^ (-n).toNat)
    (∃ t, exec (.sha e c ad q) s = .next t ∧ accVal ((t.eng e).ctx c) ad = shifted q.toInt ∧ others t ∧ frame t) ∧
    (∃ t, exec (.she e c ad ej ek q) s = .next t ∧
      accVal ((t.eng e).ctx c) ad = shifted (r.e[ek].toInt - r.e[ej].toInt + q.toInt) ∧ others t ∧ frame t) ∧
    (sh.val ≤ 32 → ∃ t, exec (.mva e c ad dx sh) s = .next t ∧
      accVal ((t.eng e).ctx c) ad = datVal r dx * (2 : Int) ^ sh.val ∧ others t ∧ frame t) ∧
    (sh.val ≤ 32 → datVal r dx ≤ datVal r dy → ∃ t, exec (.clmp e c ad dx dy sh) s = .next t ∧
      accVal ((t.eng e).ctx c) ad = max (datVal r dx * (2 : Int) ^ sh.val) (min (accVal r ad) (datVal r dy * (2 : Int) ^ sh.val)) ∧
      others t ∧ frame t) ∧
    (∃ t n, exec (.cls e c dx as) s = .next t ∧ datVal ((t.eng e).ctx c) dx = (n : Nat) ∧ n ≤ 55 ∧
      fitsS (56 - n) (accVal r as) = true ∧ (n < 55 → fitsS (55 - n) (accVal r as) = false) ∧
      (∀ k, k ≠ dx → ((t.eng e).ctx c).d[k] = r.d[k]) ∧ ((t.eng e).ctx c).a = r.a ∧ frame t) ∧
    (sh.val ≤ 55 → ∃ t, exec (.mvd e c dx as sh) s = .next t ∧
      datVal ((t.eng e).ctx c) dx = satS 24 (accVal r as / (2 : Int) ^ sh.val) ∧
      ((t.eng e).ctx c).sr.getLsbD 2 = !fitsS 24 (accVal r as / (2 : Int) ^ sh.val) ∧
      (∀ k, k ≠ dx → ((t.eng e).ctx c).d[k] = r.d[k]) ∧ ((t.eng e).ctx c).a = r.a ∧ frame t) ∧
    (∃ t, exec (.ldi e c (BitVec.ofNat 6 dx) imm) s = .next t ∧ datVal ((t.eng e).ctx c) dx = imm.toInt ∧
      (∀ k, k ≠ dx → ((t.eng e).ctx c).d[k] = r.d[k]) ∧ ((t.eng e).ctx c).a = r.a ∧ frame t) ∧
    (∃ t, exec (.mvr e c (BitVec.ofNat 6 dx) (BitVec.ofNat 6 dy)) s = .next t ∧ ((t.eng e).ctx c).d[dx] = r.d[dy] ∧
      (∀ k, k ≠ dx → ((t.eng e).ctx c).d[k] = r.d[k]) ∧ ((t.eng e).ctx c).a = r.a ∧ frame t) ∧
    (∃ t, exec (.clrs e c) s = .next t ∧ ((t.eng e).ctx c).sr = r.sr &&& 0x2F#6 ∧ ((t.eng e).ctx c).a = r.a ∧
      ((t.eng e).ctx c).d = r.d ∧ frame t)

/-- Control flow of the engines (R89, R90, R92, R93): BR goes to its target when its condition holds and on otherwise; CALL pushes the next address and RET takes it back; DBNZ decrements and
branches unless zero; NOP only moves on; REP with a count of 0 skips the next instruction; CEND of the foreground ends the run and BEND of the background the pass; TRAP faults with its code, setting
FAULTED, and stops the engine; a ninth CALL and a RET of an empty stack fault with STACK.

HALTREQ, DEBUG_RESUME, DEBUG_STEP, DEBUG_DATA_WRITE and MONCLR (R84, R90, R97, R99): a halt request is refused with DBGREFUSED while a joint of the arm is ENABLING, ENABLED or DISABLING and
granted otherwise; a resume of an engine that runs and is not faulted ends it; a step in it runs the instruction at the PC, or faults with ILLEGAL_OP where the word is none, and STATE stays HALTED, and out of it does
nothing; a data write in it sets the selected data register; MONCLR returns SE_MINSLACK to 0xFFFF. -/
def Obligations.ControlFlowAndDebugOfTheEngines : Prop :=
  (∀ (s : State) (e : Fin 8) (c : Ctx) (cond : Fin 16) (tgt : BitVec 14) (dd : Fin 8) (code : BitVec 16), s.seRuns e c = true →
    let r := (s.eng e).ctx c
    let frame := fun (t : State) => t.mem = s.mem ∧ t.regs = s.regs ∧ t.hal = s.hal ∧ (∀ m, m ≠ e.val → t.eng m = s.eng m)
    let kept := fun (t : State) => ((t.eng e).ctx c).d = r.d ∧ ((t.eng e).ctx c).a = r.a ∧ ((t.eng e).ctx c).sr = r.sr
    (cond.val < 12 → ∃ t, exec (.br e c cond tgt) s = .next t ∧
      ((t.eng e).ctx c).pc = (if condHolds r.sr cond.val then tgt else r.pc + 1) ∧ kept t ∧ frame t) ∧
    (r.stack.length < 8 → ∃ t, exec (.call e c tgt) s = .next t ∧ ((t.eng e).ctx c).pc = tgt ∧
      ((t.eng e).ctx c).stack = (r.pc + 1) :: r.stack ∧ kept t ∧ frame t) ∧
    (8 ≤ r.stack.length → exec (.call e c tgt) s = .next (s.seFault e c .stack)) ∧
    (∀ p ps, r.stack = p :: ps → ∃ t, exec (.ret e c) s = .next t ∧ ((t.eng e).ctx c).pc = p ∧ ((t.eng e).ctx c).stack = ps ∧
      kept t ∧ frame t) ∧
    (r.stack = [] → exec (.ret e c) s = .next (s.seFault e c .stack)) ∧
    (∃ t, exec (.dbnz e c dd tgt) s = .next t ∧ ((t.eng e).ctx c).d[dd] = r.d[dd] - 1 ∧
      ((t.eng e).ctx c).pc = (if r.d[dd] - 1 = 0#24 then r.pc + 1 else tgt) ∧ ((t.eng e).ctx c).a = r.a ∧ frame t) ∧
    (∃ t, exec (.nop e c) s = .next t ∧ ((t.eng e).ctx c).pc = r.pc + 1 ∧ kept t ∧ frame t) ∧
    (∃ t, exec (.rep e c false dd 0) s = .next t ∧ ((t.eng e).ctx c).pc = r.pc + 2 ∧ kept t ∧ frame t) ∧
    (c = .fg → ∃ t, exec (.cend e c) s = .next t ∧ (t.eng e).ended = true ∧ (t.eng e).endAt = s.nowNs ∧
      t.fld (SE_STAT_STATE e) = (if (t.eng e).bgBusy then 3 else 1) ∧ t.mem = s.mem ∧ (∀ m, m ≠ e.val → t.eng m = s.eng m)) ∧
    (c = .bg → ∃ t, exec (.bend e c) s = .next t ∧ (t.eng e).bgBusy = false ∧ (t.eng e).bgEnded = true ∧
      t.fld (SE_STAT_STATE e) = 1 ∧ t.mem = s.mem ∧ (∀ m, m ≠ e.val → t.eng m = s.eng m)) ∧
    (∃ t, exec (.trap e c code) s = .next t ∧ t = s.seFault e c (.trap code.toNat) ∧ t.fld (SE_STAT_STATE e) = 0 ∧
      t.fld (SE_STAT_FAULTED e) = 1 ∧ t.fld (SE_STAT_FCODE e) = 6 ∧ (t.reg (GLB_FAULT_STICKY 2)).getLsbD 2 = true ∧ t.engines = s.engines)) ∧
  (∀ (s : State) (i : Initiator) (e : Fin 8) (v : Word), s.underWay = true →
    (s.armLive e = true → exec (.haltreq i e) s = .next (s.setFld (SE_STAT_DBGREFUSED e) 1)) ∧
    (s.armLive e = false → ∃ t, exec (.haltreq i e) s = .next t ∧ (t.eng e).dbg = true ∧ t.fld (SE_STAT_STATE e) = 0 ∧
      t.fld (SE_DBG_HALTREQ e) = 1 ∧ t.mem = s.mem ∧ (∀ m, m ≠ e.val → t.eng m = s.eng m)) ∧
    ((s.eng e).dbg = true → s.fld (SE_STAT_FAULTED e) = 0 → s.fld (SE_CTL_RUN e) ≠ 0 →
      ∃ t, exec (.debugResume i e) s = .next t ∧ (t.eng e).dbg = false ∧ t.fld (SE_DBG_HALTREQ e) = 0 ∧
        t.fld (SE_STAT_STATE e) = (if (s.eng e).bgBusy then 3 else 1) ∧ t.mem = s.mem ∧ (∀ m, m ≠ e.val → t.eng m = s.eng m)) ∧
    ((s.eng e).dbg = true → s.fld (SE_STAT_FAULTED e) = 0 →
      s.eccHit (seProg e (((s.eng e).ctx (s.dbgCtx e)).pc).toNat) 4 = none →
      decodeSe (BitVec.ofNat 32 (s.rd32 (seProg e (((s.eng e).ctx (s.dbgCtx e)).pc).toNat))) = some .nop →
      ∃ t, exec (.debugStep i e) s = .next t ∧
        ((t.eng e).ctx (s.dbgCtx e)).pc = ((s.eng e).ctx (s.dbgCtx e)).pc + 1 ∧ t.fld (SE_STAT_STATE e) = 0 ∧ (t.eng e).dbg = true ∧
        t.mem = s.mem ∧ (∀ m, m ≠ e.val → t.eng m = s.eng m)) ∧
    ((s.eng e).dbg = true → s.fld (SE_STAT_FAULTED e) = 0 →
      s.eccHit (seProg e (((s.eng e).ctx (s.dbgCtx e)).pc).toNat) 4 = none →
      let w := decodeSe (BitVec.ofNat 32 (s.rd32 (seProg e (((s.eng e).ctx (s.dbgCtx e)).pc).toNat)))
      (∀ x, w = some x → exec (.debugStep i e) s = .next ((s.seRun e (s.dbgCtx e) x).setFld (SE_STAT_STATE e) 0)) ∧
      (w = none → exec (.debugStep i e) s = .next ((s.seFault e (s.dbgCtx e) .illegalOp).setFld (SE_STAT_STATE e) 0))) ∧
    ((s.eng e).dbg = false → exec (.debugStep i e) s = .next s ∧ exec (.debugResume i e) s = .next s ∧ exec (.debugDataWrite i e v) s = .next s) ∧
    ((s.eng e).dbg = true → s.fld (SE_DBGSEL_SEL e) < 8 →
      ∃ t, exec (.debugDataWrite i e v) s = .next t ∧
        (∀ k : Fin 8, k.val = s.fld (SE_DBGSEL_SEL e) → ((t.eng e).ctx (s.dbgCtx e)).d[k] = BitVec.ofNat 24 v.toNat) ∧
        t.regs = s.regs ∧ t.mem = s.mem ∧ (∀ m, m ≠ e.val → t.eng m = s.eng m)) ∧
    (v.getLsbD 0 = true → exec (.monclr i e v) s = .next (s.setFld (SE_MINSLACK_MINSLACK e) 0xFFFF)))

/-! ### The spar array (chapter The Spar Array) -/

/-- SUBMIT (R109, R223): the outcome is, in this order, 6 while SP_CTL.RUN is 0, 5 on a module that is STANDBY, STALE or, in a pair, HALTED, 4 for a malformed descriptor, 3 where the
instance is queued or running, 2 where the queue holds 64 submissions, 1 otherwise. An accepted submission joins the end of the queue and its instance
is QUEUED; a refused one leaves queue and instance as they are. The outcome stands in the writer's own SP_SUBMIT.

DISPATCH (R107, R113, R117): where a job's turn has come and a lane is free, the job leaves the queue and runs on that lane from the present cell time, its page-in
or intake first; its record's word 0x00 reads 0 and its instance is RUNNING. SOLVE_END (R116, R118): work that is at its end ends with status LOADED for a NOSOLVE
submission, CONVERGED or ITMAX for a QP, LINSYS otherwise; work that is not has no end there. STOP_INSTANT (R114, R116, R118): a run whose work is not at its end when the stop
instant is reached ends DEADLINE. EXPIRED (R114): a queued job whose stop instant is reached ends EXPIRED. LANE_FAULT (R120): the lane is out of service,
SP_LANE_ECC is set and the problem it ran ends LANE_FAULT. Every end of a run writes the status into the record and frees the lane. -/
def Obligations.SparSubmissionsQueueRunAndEnd : Prop :=
  (∀ (s : State) (i : Initiator) (d : Word), s.underWay = true →
    let w := (List.range 8).map (fun k => s.rd32 (d.toNat + 4 * k))
    let inst := w.getD 0 0 % 128
    (∃ t o, exec (.submit i d) s = .next t ∧ (t.inis i).spOut = o + 256 * inst ∧ t.mem = s.mem ∧
      (s.fld SP_CTL_RUN = 0 → o = 6) ∧
      (s.fld SP_CTL_RUN ≠ 0 → (s.role = 2 ∨ s.role = 3 ∨ (s.role = 4 ∧ s.fld PR_CTL_PAIREN = 1)) → o = 5) ∧
      (o ≠ 1 → t.spar = s.spar ∧ t.fld (SP_INST_STAT_STATE inst) = s.fld (SP_INST_STAT_STATE inst)) ∧
      (s.fld SP_CTL_RUN ≠ 0 → s.role ≠ 2 → s.role ≠ 3 → (s.role ≠ 4 ∨ s.fld PR_CTL_PAIREN = 0) →
        (s.spBad d.toNat w = true → o = 4) ∧
        (s.spBad d.toNat w = false → s.spBusy inst = true → o = 3) ∧
        (s.spBad d.toNat w = false → s.spBusy inst = false → 64 ≤ s.spar.queue.length →
          o = 2 ∧ t.fld SP_CNT_FULL = min 255 (s.fld SP_CNT_FULL + 1)) ∧
        (s.spBad d.toNat w = false → s.spBusy inst = false → s.spar.queue.length < 64 →
          o = 1 ∧ t.spar.queue = s.spar.queue ++ [spDesc w s.spar.acc] ∧ t.fld (SP_INST_STAT_STATE inst) = 1)))) ∧
  ((∀ (s : State) (j : SparJob) (k : Nat), s.underWay = true → s.spFirst = some j → s.spPick j.slot = some k →
    ∃ t r, exec .dispatch s = .next t ∧ (t.spLane k).run = some r ∧ r.job = j ∧ r.since = s.nowNs ∧ r.taken = false ∧ r.clocks = 0 ∧
      t.spar.queue = s.spar.queue.filter (fun x => x.acc != j.acc) ∧ t.rd32 (s.spRecAt j.inst) = 0 ∧
      t.fld (SP_INST_STAT_STATE j.inst) = 2 ∧ t.joints = s.joints) ∧
  (∀ (s : State), s.underWay = true → (s.spFirst = none ∨ ∀ k, s.spFree k = false) → exec .dispatch s = .next s) ∧
  (∀ (s : State) (k : Fin 32) (r : SparRun), s.underWay = true → (s.spLane k).run = some r →
    (r.done (s.spProb r.job.inst r.job.slot) = true →
      ∃ t, exec (.solveEnd k) s = .next t ∧ (t.spLane k).run = none ∧ t.spar.queue = s.spar.queue ∧
        (r.job.nosolve = true → t.rd32 (s.spRecAt r.job.inst) % 16 = 5) ∧
        (r.job.nosolve = false → (s.spHdrAt r.job.slot).qp = true →
          t.rd32 (s.spRecAt r.job.inst) % 16 = 1 ∨ t.rd32 (s.spRecAt r.job.inst) % 16 = 3) ∧
        (r.job.nosolve = false → (s.spHdrAt r.job.slot).qp = false → t.rd32 (s.spRecAt r.job.inst) % 16 = 4)) ∧
    (r.done (s.spProb r.job.inst r.job.slot) = false → exec (.solveEnd k) s = .next s ∧
      (reached r.job.stop s.now = true →
        ∃ t, exec (.stopInstant k) s = .next t ∧ (t.spLane k).run = none ∧ t.spar.queue = s.spar.queue ∧
          t.rd32 (s.spRecAt r.job.inst) % 16 = 2) ∧
      (reached r.job.stop s.now = false → exec (.stopInstant k) s = .next s))) ∧
  (∀ (s : State) (inst : Fin 128) (j : SparJob), s.underWay = true → s.spar.queue.find? (fun x => x.inst == inst.val) = some j →
    (reached j.stop s.now = true →
      ∃ t, exec (.expired inst) s = .next t ∧ t.spar.queue = s.spar.queue.filter (fun x => x.acc != j.acc) ∧
        t.rd32 (s.spRecAt inst) % 16 = 6 ∧ t.fld SP_CNT_EXPIRED = min 255 (s.fld SP_CNT_EXPIRED + 1) ∧
        t.fld (SP_INST_STAT_STATE inst) = 0 ∧ t.spar.lanes = s.spar.lanes) ∧
    (reached j.stop s.now = false → exec (.expired inst) s = .next s)) ∧
  (∀ (s : State) (k : Fin 32), s.spServ k = true →
    ∃ t, exec (.laneFault k) s = .next t ∧ (t.spLane k).out = true ∧ (t.spLane k).run = none ∧
      (t.reg (GLB_FAULT_STICKY 1)).getLsbD 3 = true ∧ t.spar.queue = s.spar.queue ∧
      (∀ r, (s.spLane k).run = some r → t.rd32 (s.spRecAt r.job.inst) % 16 = 8)))

/-! ### The canvas (chapter The Canvas) -/

/-- CLAIM and CLAIM_TIMEOUT (R128, R133, R134, R136, R138), on an idle engine with an empty queue and no memory word in error: an accepted claim that its intake does not fault,
of voxels that are all free, the arm's own below HOLD 7, or its own pinned ones, is granted where a ticket is free: the ticket allocated is live and the arm's, and the result's
status is GRANTED; where no ticket is free it is NO_TICKET; a voxel of another arm's unpinned hold is a conflict: status CONFLICT without WAIT, TIMEOUT with WAIT and a time-out that is
reached, and otherwise the claim waits (where no other does); another's pinned voxel stops with KEEPOUT and the arm's own voxel at HOLD 7 with HOLD_FULL. Only a grant changes
the tickets. A claim that is not accepted only reports its outcome: 6 while CV_CTL.RUN is 0, then 5 on a STANDBY or STALE module. At a tick boundary the waiting claims whose time-out is
reached end, and no other; one that waits alone ends with TIMEOUT, counted. -/
def Obligations.ClaimsAreGrantedOrReported : Prop :=
  (∀ (s : State) (i : Initiator) (d : Word), s.underWay = true → s.cvOutcome d.toNat = 1 →
    s.canvas.queue = [] → s.canvas.busy = none → s.eccBad = [] →
    let r := s.cvIntake ⟨d.toNat, s.canvas.acc, s.now⟩
    r.op = 1 → r.rsv = false → badShape s.cvPitch r.kind r.nshape r.shape = false → (∀ w ∈ s.canvas.waiting, w.addr % 64 = 0) →
    (∀ f k, visit s r.arm (s.setOf r) 0 0 = .pass 0 f → s.allocTicket = some k →
      ∃ t, exec (.claim i d) s = .next t ∧ (t.inis i).cvOut = 1 ∧ t.rd32 (d.toNat + 0x20) % 32 = 1 ∧
        t.rd32 (d.toNat + 0x20) / 256 % 4096 = k ∧ t.fld (CV_TKT_STAT_LIVE k) = 1 ∧ t.fld (CV_TKT_STAT_ARM k) = r.arm ∧
        t.canvas.last = some k ∧ (∀ m, m ≠ k → m < 1024 → t.reg (CV_TKT_STAT m) = s.reg (CV_TKT_STAT m))) ∧
    (∀ f, visit s r.arm (s.setOf r) 0 0 = .pass 0 f → s.allocTicket = none →
      ∃ t, exec (.claim i d) s = .next t ∧ t.rd32 (d.toNat + 0x20) % 32 = 10 ∧ t.canvas.shapes = s.canvas.shapes) ∧
    (∀ m f, visit s r.arm (s.setOf r) 0 0 = .pass m f → m ≠ 0 →
      (r.wait = false →
        ∃ t, exec (.claim i d) s = .next t ∧ t.rd32 (d.toNat + 0x20) % 32 = 5 ∧ t.rd32 (d.toNat + 0x28) = f % 2 ^ 32 ∧
          t.canvas.shapes = s.canvas.shapes) ∧
      (r.wait = true → reached r.tout s.now = true →
        ∃ t, exec (.claim i d) s = .next t ∧ t.rd32 (d.toNat + 0x20) % 32 = 6 ∧ t.canvas.shapes = s.canvas.shapes) ∧
      (r.wait = true → reached r.tout s.now = false → s.canvas.waiting = [] →
        ∃ t, exec (.claim i d) s = .next t ∧ t.canvas.waiting = [{ r with mask := m, first := f }] ∧ t.canvas.shapes = s.canvas.shapes)) ∧
    (∀ st off, visit s r.arm (s.setOf r) 0 0 = .stop st off →
      ∃ t, exec (.claim i d) s = .next t ∧ t.rd32 (d.toNat + 0x20) % 32 = st ∧ t.rd32 (d.toNat + 0x28) = off % 2 ^ 32 ∧
        t.canvas.shapes = s.canvas.shapes ∧
        ((st = 8 ∧ voxPinned (s.vox off) = true ∧ voxOwner (s.vox off) ≠ r.arm + 1) ∨
         (st = 9 ∧ voxHold (s.vox off) = 7 ∧ voxOwner (s.vox off) = r.arm + 1)))) ∧
  (∀ (s : State) (i : Initiator) (d : Word), s.underWay = true → s.cvOutcome d.toNat ≠ 1 →
    ∃ t, exec (.claim i d) s = .next t ∧ (t.inis i).cvOut = s.cvOutcome d.toNat ∧ t.canvas = s.canvas ∧ t.mem = s.mem ∧
      (s.fld CV_CTL_RUN = 0 → s.cvOutcome d.toNat = 6) ∧
      (s.fld CV_CTL_RUN ≠ 0 → (s.role = 2 ∨ s.role = 3) → s.cvOutcome d.toNat = 5)) ∧
  (∀ s : State, s.underWay = true → s.canvas.busy = none →
    ∃ t, exec .claimTimeout s = .next t ∧ (∀ w ∈ t.canvas.waiting, w ∈ s.canvas.waiting ∧ reached w.tout s.tickBoundary = false) ∧
      (s.canvas.waiting.Pairwise (fun x y => x.acc ≠ y.acc) →
        ∀ w ∈ s.canvas.waiting, reached w.tout s.tickBoundary = false → w ∈ t.canvas.waiting) ∧
      t.canvas.shapes = s.canvas.shapes ∧
      (∀ w, s.canvas.waiting = [w] → reached w.tout s.tickBoundary = true →
        t.canvas.waiting = [] ∧ t.rd32 (w.addr + 0x20) % 32 = 6 ∧ t.fld CV_CNT_TIMEOUTS = min 255 (s.fld CV_CNT_TIMEOUTS + 1)))

/-- RELEASE, RELALL, CANCEL, PROBE, SETSTATIC and CLRSTATIC (R139 to R143), for an accepted request that its intake does not fault, on an idle engine with an empty queue and no
memory word in error: RELEASE of a live ticket of the arm that no horizon uses reports RELEASED and, with no claim waiting, frees it; of a ticket that is not the arm's NOT_OWNER, of
one in use IN_USE, and both leave the tickets. RELALL reports IN_USE and leaves the tickets where one of the arm's is in use, else DONE, and with no claim waiting the arm has no live ticket left.
CANCEL of the arm's waiting claim reports DONE, and a claim that waits alone ends ABORTED; a CANCEL that finds none reports NO_REQUEST. PROBE reports PROBED and leaves the tickets and, with no claim waiting, every byte but its
result's. SETSTATIC is refused CONFLICT by a voxel that an arm owns and reports DONE otherwise, as CLRSTATIC does; with no claim waiting, and a descriptor outside the map, SETSTATIC makes every voxel of its set but those of a
faulted brick the owner's pinned one, and CLRSTATIC frees those that the owner has. -/
def Obligations.CanvasOperationsReportTheirResults : Prop :=
  ∀ (s : State) (i : Initiator) (d : Word), s.underWay = true → s.cvOutcome d.toNat = 1 →
    s.canvas.queue = [] → s.canvas.busy = none → s.eccBad = [] →
    let r := s.cvIntake ⟨d.toNat, s.canvas.acc, s.now⟩
    let outside := d.toNat + 0x40 ≤ 0x04000000 ∨ 0x06000000 ≤ d.toNat
    r.rsv = false → (∀ w ∈ s.canvas.waiting, w.addr % 64 = 0) →
    (r.op = 2 →
      (s.fld (CV_TKT_STAT_LIVE r.ticket) = 1 → s.fld (CV_TKT_STAT_ARM r.ticket) = r.arm → s.ticketInUse r.arm r.ticket = false →
        ∃ t, exec (.release i d) s = .next t ∧ t.rd32 (d.toNat + 0x20) % 32 = 2 ∧
          (s.canvas.waiting = [] → t.fld (CV_TKT_STAT_LIVE r.ticket) = 0)) ∧
      ((s.fld (CV_TKT_STAT_LIVE r.ticket) = 0 ∨ s.fld (CV_TKT_STAT_ARM r.ticket) ≠ r.arm) →
        ∃ t, exec (.release i d) s = .next t ∧ t.rd32 (d.toNat + 0x20) % 32 = 11 ∧ t.canvas.shapes = s.canvas.shapes) ∧
      (s.fld (CV_TKT_STAT_LIVE r.ticket) = 1 → s.fld (CV_TKT_STAT_ARM r.ticket) = r.arm → s.ticketInUse r.arm r.ticket = true →
        ∃ t, exec (.release i d) s = .next t ∧ t.rd32 (d.toNat + 0x20) % 32 = 12 ∧ t.canvas.shapes = s.canvas.shapes)) ∧
    (r.op = 3 →
      ((∀ k ∈ s.ticketsOf r.arm, s.ticketInUse r.arm k = false) →
        ∃ t, exec (.relall i d) s = .next t ∧ t.rd32 (d.toNat + 0x20) % 32 = 4 ∧ (s.canvas.waiting = [] → t.ticketsOf r.arm = [])) ∧
      ((∃ k ∈ s.ticketsOf r.arm, s.ticketInUse r.arm k = true) →
        ∃ t, exec (.relall i d) s = .next t ∧ t.rd32 (d.toNat + 0x20) % 32 = 12 ∧ t.canvas.shapes = s.canvas.shapes)) ∧
    (r.op = 4 →
      ((∃ w ∈ s.canvas.waiting, w.addr = r.target ∧ w.arm = r.arm) →
        ∃ t, exec (.cancel i d) s = .next t ∧ t.rd32 (d.toNat + 0x20) % 32 = 4 ∧ t.canvas.shapes = s.canvas.shapes ∧
          (∀ w, s.canvas.waiting = [w] → t.canvas.waiting = [] ∧ t.rd32 (w.addr + 0x20) % 32 = 14)) ∧
      ((∀ w ∈ s.canvas.waiting, w.addr ≠ r.target ∨ w.arm ≠ r.arm) →
        ∃ t, exec (.cancel i d) s = .next t ∧ t.rd32 (d.toNat + 0x20) % 32 = 17 ∧ t.canvas.shapes = s.canvas.shapes)) ∧
    (badShape s.cvPitch r.kind r.nshape r.shape = false →
      (r.op = 5 → ∃ t, exec (.probe i d) s = .next t ∧ t.rd32 (d.toNat + 0x20) % 32 = 3 ∧ t.canvas.shapes = s.canvas.shapes ∧
        t.canvas.last = s.canvas.last ∧
        (s.canvas.waiting = [] → ∀ b, (b < d.toNat + 0x20 ∨ d.toNat + 0x40 ≤ b) → t.rdB b = s.rdB b)) ∧
      (r.op = 6 →
        ((∀ off ∈ s.setOf r, ¬ (1 ≤ voxOwner (s.vox off) ∧ voxOwner (s.vox off) ≤ 8)) →
          ∃ t, exec (.setstatic i d) s = .next t ∧ t.rd32 (d.toNat + 0x20) % 32 = 4 ∧
            (s.canvas.waiting = [] → outside → ∀ off ∈ s.setOf r, s.voxKept off = false → t.vox off = r.sowner + 128)) ∧
        ((∃ off ∈ s.setOf r, 1 ≤ voxOwner (s.vox off) ∧ voxOwner (s.vox off) ≤ 8) →
          ∃ t, exec (.setstatic i d) s = .next t ∧ t.rd32 (d.toNat + 0x20) % 32 = 5 ∧ t.canvas.shapes = s.canvas.shapes)) ∧
      (r.op = 7 → ∃ t, exec (.clrstatic i d) s = .next t ∧ t.rd32 (d.toNat + 0x20) % 32 = 4 ∧
        (s.canvas.waiting = [] → outside → ∀ off ∈ s.setOf r, s.voxKept off = false → voxOwner (s.vox off) = r.sowner → t.vox off = 0)))

/-! ### The shroud monitor (chapter Speed and Separation Monitoring) -/

/-- PRESENCE_SEGMENT (R150, R151): a segment for an unused sensor has no effect; a fragmented one, one whose header fails and one whose boxes fail are
discarded and counted in BADFRAME, one whose CRC fails in CRCERR, in the order of R150. While no scan is being collected, a sound segment that alone makes up a newer scan completes it: its boxes and
FAULT are the scan's, its timestamp the scan's receive time, its SEQ the register's; a sound segment of a newer scan that leaves others missing begins to collect it and keeps the last complete scan. -/
def Obligations.PresenceSegmentsAreCheckedAndCollected : Prop :=
  ∀ (s : State) (k : Fin 8) (fr : Bool) (p : List Byte) (ts : Stamp), s.underWay = true →
    (s.fld (SH_SENS_CFG_USED k) = 0 → exec (.presenceSegment k fr ⟨p, ts⟩) s = .next s) ∧
    (s.fld (SH_SENS_CFG_USED k) = 1 →
      ((fr = true ∨ segHeaderOk k p = false) → exec (.presenceSegment k fr ⟨p, ts⟩) s = .next (s.incFld (SH_SENS_CNT_BADFRAME k))) ∧
      (fr = false → segHeaderOk k p = true → s.segCrcOk k p = false →
        exec (.presenceSegment k fr ⟨p, ts⟩) s = .next (s.incFld (SH_SENS_CNT_CRCERR k))) ∧
      (fr = false → segHeaderOk k p = true → s.segCrcOk k p = true →
        (segBoxesOk p = false → exec (.presenceSegment k fr ⟨p, ts⟩) s = .next (s.incFld (SH_SENS_CNT_BADFRAME k))) ∧
        (segBoxesOk p = true → (∀ l, (s.sensor k).last = some l → 0 < diff32 (leAt p 4 4) l) → (s.sensor k).inc = none →
          (leAt p 9 1 = 1 →
            ∃ t c, exec (.presenceSegment k fr ⟨p, ts⟩) s = .next t ∧ (t.sensor k).scan = some c ∧ (t.sensor k).inc = none ∧
              (t.sensor k).last = some (leAt p 4 4) ∧ c.seq = leAt p 4 4 ∧ c.used = false ∧ c.at_ = s.stampAt (s.stampOn (88 + s.fld (SH_SENS_CFG_PORT k)) ts) ∧
              c.fault = (leAt p 3 1).testBit 0 ∧ c.boxes = (List.range (leAt p 10 2)).map (segBox p) ∧
              t.fld (SH_SENS_SEQ_V k) = leAt p 4 4 ∧ (∀ j, j ≠ k.val → t.sensor j = s.sensor j) ∧ t.mem = s.mem) ∧
          (1 < leAt p 9 1 →
            ∃ t i, exec (.presenceSegment k fr ⟨p, ts⟩) s = .next t ∧ (t.sensor k).inc = some i ∧ i.seq = leAt p 4 4 ∧ i.got = [leAt p 8 1] ∧
              (t.sensor k).scan = (s.sensor k).scan ∧ t.regs = s.regs ∧ t.mem = s.mem))))

/-- CHANNEL1_RESULT and CHANNEL2_RESULT (R155, R165, R267): a channel's first result for the running snapshot, within a shroud period of it, is computed from the snapshot, held for the comparator and
its duration recorded in units of 10 ns; a later or second one leaves the snapshot. Channel 2 first takes the joints' homing offsets that are offered, and does nothing while a safety core is halted. Without a
snapshot channel 1 does nothing.

SH_APPLY, FORCED_RELEASE and the comparator's counts (R153, R163, R164): an apply time not yet reached is pending, one already reached sets APPLY_LATE; a release of a FORCED arm with
enough agreements clears FORCED, with too few sets RELREF, and of another arm does nothing; the second disagreement in a row makes the arm FORCED and sets SH_DISAGREE, the first only counts, an agreement ends
the count; of two agreeing results the outputs are a stop if either stops, else the smaller scale. -/
def Obligations.ChannelResultsAndDisagreementsForceTheArm : Prop :=
  ((∀ (s : State) (sn : Snap), s.underWay = true → s.shroud.snap = some sn →
    (sn.r1 = none → s.nowNs ≤ sn.b + s.shPeriod →
      ∃ t, exec .channel1Result s = .next t ∧
        t.shroud.snap = some { sn with r1 := some (s.results sn (fun n a => s.ends1 n a) s.shroud.prev1) } ∧
        t.fld SH_C1TIME_LAST = min 65535 ((s.nowNs - sn.b) / 10) ∧ (∀ a, a ≠ SH_C1TIME → t.reg a = s.reg a) ∧ t.mem = s.mem) ∧
    ((sn.r1.isSome = true ∨ sn.b + s.shPeriod < s.nowNs) → exec .channel1Result s = .next s) ∧
    (s.scHalted 0 = false → s.scHalted 1 = false →
      let u := (List.range 64).foldl (fun (x : State) k => x.takeOffer k) s
      (sn.r2 = none → s.nowNs ≤ sn.b + s.shPeriod →
        ∃ t, exec .channel2Result s = .next t ∧
          t.shroud.snap = some { sn with r2 := some (u.results sn (fun _ a => u.ends2 a) s.shroud.prev2) } ∧
          t.fld SH_C2TIME_LAST = min 65535 ((s.nowNs - sn.b) / 10) ∧ (∀ k, k < 64 → (t.joint k).offer = none) ∧ t.mem = s.mem) ∧
      ((sn.r2.isSome = true ∨ sn.b + s.shPeriod < s.nowNs) →
        ∃ t, exec .channel2Result s = .next t ∧ t.shroud.snap = some sn ∧ (∀ k, k < 64 → (t.joint k).offer = none) ∧ t.mem = s.mem))) ∧
  (∀ s : State, s.underWay = true → s.shroud.snap = none → exec .channel1Result s = .next s) ∧
  (∀ s : State, (s.scHalted 0 = true ∨ s.scHalted 1 = true) → exec .channel2Result s = .next s)) ∧
  ((∀ (s : State) (i : Initiator) (v : Word), s.underWay = true →
    (reached v.toNat s.now = true → exec (.shApply i v) s = .next (s.setFld SH_STAT_APPLY_LATE 1)) ∧
    (reached v.toNat s.now = false →
      exec (.shApply i v) s = .next { s with shroud := { s.shroud with applyAt := some v.toNat, sentApply := some v } })) ∧
  (∀ (s : State) (i : Initiator) (n : Fin 8), s.underWay = true →
    (s.fld (SH_ARM_STAT_FORCED n) = 0 → exec (.forcedRelease i n) s = .next s) ∧
    (s.fld (SH_ARM_STAT_FORCED n) = 1 → max 1 (s.fld SH_MISC_RECOV) ≤ s.fld (SH_ARM_STAT_AGREECNT n) →
      ∃ t, exec (.forcedRelease i n) s = .next t ∧ t.fld (SH_ARM_STAT_FORCED n) = 0 ∧ (t.fld SH_STAT_FORCED).testBit n = false ∧
        t.fld (SH_ARM_STAT_AGREECNT n) = s.fld (SH_ARM_STAT_AGREECNT n) ∧
        (∀ a, a ≠ SH_ARM_STAT n → a ≠ SH_STAT → t.reg a = s.reg a) ∧ t.mem = s.mem ∧ t.shroud = s.shroud) ∧
    (s.fld (SH_ARM_STAT_FORCED n) = 1 → s.fld (SH_ARM_STAT_AGREECNT n) < max 1 (s.fld SH_MISC_RECOV) →
      exec (.forcedRelease i n) s = .next (s.setFld (SH_ARM_STAT_RELREF n) 1))) ∧
  (∀ (s : State) (n : Nat), n < 8 →
    (s.fld (SH_ARM_STAT_DCOUNT n) = 1 → s.fld (SH_ARM_STAT_FORCED n) = 0 →
      (s.countDis n true).fld (SH_ARM_STAT_FORCED n) = 1 ∧ ((s.countDis n true).reg (GLB_FAULT_STICKY 3)).getLsbD 1 = true) ∧
    (s.fld (SH_ARM_STAT_DCOUNT n) = 0 →
      (s.countDis n true).fld (SH_ARM_STAT_FORCED n) = s.fld (SH_ARM_STAT_FORCED n) ∧ (s.countDis n true).fld (SH_ARM_STAT_DCOUNT n) = 1) ∧
    (s.countDis n false).fld (SH_ARM_STAT_DCOUNT n) = 0) ∧
  (∀ (old : ShOut) (a b : ChRes),
    let o := chosenOut old false (some a) (some b)
    (o.pstop = (a.pstop || b.pstop)) ∧ (a.pstop = false → b.pstop = false → o.scale = min a.scale b.scale)))

/-- SAFE_OUTPUT_READBACK, TEST_PULSE and SO_CLEAR (R166, R167): a readback that agrees with ON is only recorded; one that differs latches FBFAULT, switches the pair off and sets SO_FB; during a
test pulse of a pair that is on, a wire that reads on does the same, and one that reads off is only recorded; a clear ends FBFAULT only while both wires read off. The switch at a cycle start turns a pair
off whose arms include a stopped one, and every pair of a module that is neither ALONE nor ACTIVE. -/
def Obligations.SafeOutputFaultsSwitchThePairOff : Prop :=
  (∀ (s : State) (m : Fin 2) (a b : Bool), s.underWay = true →
    (a = s.flag (SH_SO_STAT_ON m) → b = s.flag (SH_SO_STAT_ON m) →
      exec (.safeOutputReadback m a b) s = .next ((s.setFlag (SH_SO_STAT_RBA m) a).setFlag (SH_SO_STAT_RBB m) b)) ∧
    ((a ≠ s.flag (SH_SO_STAT_ON m) ∨ b ≠ s.flag (SH_SO_STAT_ON m)) →
      ∃ t, exec (.safeOutputReadback m a b) s = .next t ∧ t.fld (SH_SO_STAT_FBFAULT m) = 1 ∧ t.fld (SH_SO_STAT_ON m) = 0 ∧
        t.fld (SH_SO_STAT_RBA m) = b2n a ∧ t.fld (SH_SO_STAT_RBB m) = b2n b ∧
        (s.fld (SH_SO_STAT_FBFAULT m) = 0 → (t.reg (GLB_FAULT_STICKY 3)).getLsbD 3 = true))) ∧
  (∀ (s : State) (m : Fin 2) (w rb : Bool), s.underWay = true → s.fld (SH_SO_STAT_ON m) = 1 → s.fld (SH_SO_TEST_TPW m) ≠ 0 →
    (rb = true → ∃ t, exec (.testPulse m w rb) s = .next t ∧ t.fld (SH_SO_STAT_FBFAULT m) = 1 ∧ t.fld (SH_SO_STAT_ON m) = 0 ∧
      (s.fld (SH_SO_STAT_FBFAULT m) = 0 → (t.reg (GLB_FAULT_STICKY 3)).getLsbD 3 = true)) ∧
    (rb = false → exec (.testPulse m w rb) s = .next (s.setFld (if w then SH_SO_STAT_RBB m else SH_SO_STAT_RBA m) 0))) ∧
  (∀ (s : State) (i : Initiator) (m : Fin 2) (a b : Bool), s.underWay = true →
    ∃ t, exec (.soClear i m a b) s = .next t ∧ t.fld (SH_SO_STAT_FBFAULT m) = (if a || b then s.fld (SH_SO_STAT_FBFAULT m) else 0) ∧
      t.fld (SH_SO_STAT_ON m) = s.fld (SH_SO_STAT_ON m) ∧ (∀ r, r ≠ SH_SO_STAT m → t.reg r = s.reg r) ∧ t.mem = s.mem) ∧
  (∀ (s : State) (m n : Nat), m < 2 → n < 8 → (s.fld (SH_SO_CFG_ARMS m)).testBit n = true → s.fld (SH_ARM_OUT_PSTOP n) = 1 →
    (s.safeSwitch m).fld (SH_SO_STAT_ON m) = 0) ∧
  (∀ (s : State) (m : Nat), m < 2 → 2 ≤ s.role → (s.safeSwitch m).fld (SH_SO_STAT_ON m) = 0)

/-! ### Tuitra lines: replies and mailbox (chapter Tuitra Lines) -/

/-- REPLY (R176, R186 to R188): a frame with a bad FCS counts in FCSERR, another invalid one in OTHER, and neither does more. A valid REPLY on a line whose nodes reply is
judged by its source and its window: one whose source has no window open then at that end counts in WRONGSRC and is discarded, one of a node with a window there
that comes before it also in EARLY, one after it also in LATE, and it sets the node's LATE and zeroes INCNT; one within the window is accepted as that end's record of the node, unless that end has one already. Elsewhere a valid REPLY
is only counted. -/
def Obligations.RepliesAreJudgedByTheirWindows : Prop :=
  ∀ (s : State) (n : Fin 8) (f : LineFrame), s.underWay = true →
    let q := portOf n f.endB
    let a := frameSrc f
    let e := ((s.slot n a + s.offEnd n a f.endB : Nat) : Int) * 65536
    let g := ((s.fld (TL_HOP_G n) : Nat) : Int) * 65536
    let at_ := sinceStart (s.stamped n f).sfd (s.line n).cycAt
    (f.fcsOk = false → exec (.reply n f) s = .next (s.incFld (TL_PCNT_FCSERR q))) ∧
    (f.fcsOk = true → s.frameValid n f = false → exec (.reply n f) s = .next (s.incFld (TL_PCNT_OTHER q))) ∧
    (s.frameValid n f = true → (frameType f ≠ 2 ∨ s.replying n = false) →
      exec (.reply n f) s = .next (s.incFld (TL_PRXOK_N q))) ∧
    (s.frameValid n f = true → frameType f = 2 → s.replying n = true → s.nodes n ≤ 10 →
      ((a = 0 ∨ s.nodes n < a ∨ s.hasWin n a f.endB = false) →
        ∃ t, exec (.reply n f) s = .next t ∧ t.fld (TL_LCNT_WRONGSRC n) = min 255 (s.fld (TL_LCNT_WRONGSRC n) + 1) ∧
          (t.line n).accA = (s.line n).accA ∧ (t.line n).accB = (s.line n).accB) ∧
      (0 < a → a ≤ s.nodes n → s.hasWin n a f.endB = true →
        (at_ < e - g →
          ∃ t, exec (.reply n f) s = .next t ∧ t.fld (TL_PCNT_EARLY q) = min 255 (s.fld (TL_PCNT_EARLY q) + 1) ∧
            t.fld (TL_LCNT_WRONGSRC n) = min 255 (s.fld (TL_LCNT_WRONGSRC n) + 1) ∧
            t.fld (TL_NODE_STAT_LATE n (a - 1)) = 1 ∧ t.fld (TL_NODE_TIME_INCNT n (a - 1)) = 0 ∧
            (t.line n).accA = (s.line n).accA ∧ (t.line n).accB = (s.line n).accB) ∧
        (e + g ≤ at_ → ¬ at_ < e - g →
          ∃ t, exec (.reply n f) s = .next t ∧ t.fld (TL_PCNT_LATE q) = min 255 (s.fld (TL_PCNT_LATE q) + 1) ∧
            t.fld (TL_LCNT_WRONGSRC n) = min 255 (s.fld (TL_LCNT_WRONGSRC n) + 1) ∧
            t.fld (TL_NODE_STAT_LATE n (a - 1)) = 1 ∧ t.fld (TL_NODE_TIME_INCNT n (a - 1)) = 0 ∧
            (t.line n).accA = (s.line n).accA ∧ (t.line n).accB = (s.line n).accB) ∧
        (e - g ≤ at_ → at_ < e + g →
          ∃ t, exec (.reply n f) s = .next t ∧
            (tabGet (fun _ => []) ((s.line n).acc f.endB) a = [] →
              tabGet (fun _ => []) ((t.line n).acc f.endB) a = sliceB f.payload 8 40) ∧
            (tabGet (fun _ => []) ((s.line n).acc f.endB) a ≠ [] → (t.line n).acc f.endB = (s.line n).acc f.endB) ∧
            (t.line n).acc (!f.endB) = (s.line n).acc (!f.endB) ∧
            (tabGet (fun _ => []) ((s.line n).acc f.endB) a = [] → tabGet (fun _ => []) ((s.line n).acc (!f.endB)) a = [] →
              t.fld (TL_NODE_STAT_ST0 n (a - 1)) = leAt (sliceB f.payload 8 40) 1 1))))

/-- MB_READ, MB_WRITE, MB_IDENT, MBREQ and MBRSP (R181): a GO starts an exchange of its operation with the next TAG while none is in progress, the module
is ACTIVE or ALONE and DLEN does not exceed 8 × MBMAX, else STATUS reads REFUSED and no line's exchange changes. At the MBREQ instant of a RUNNING
line of a module that commands and is not silent, its MBEN set, the request of an exchange is sent and counted; after 256 requests an exchange of firmware ends with TIMEOUT. A
response in its window from the node addressed and with its TAG that says PENDING leaves the exchange to be repeated; any other ends an exchange of firmware with its status. -/
def Obligations.MailboxExchangesRunToTheirEnd : Prop :=
  (∀ (s : State) (i : Initiator) (n : Fin 8) (v : Word), s.underWay = true →
    ((s.line n).mb = none → (s.role = 0 ∨ s.role = 1) → bits v.toNat 8 8 ≤ 8 * s.fld (TL_MBRSP_MBMAX n) →
      (∃ t x, exec (.mbRead i n v) s = .next t ∧ (t.line n).mb = some x ∧ x.op = 1 ∧ x.addr = bits v.toNat 4 4 ∧ x.dlen = bits v.toNat 8 8 ∧
        x.index = bits v.toNat 16 16 ∧ x.tag = ((s.line n).tag + 1) % 256 ∧ x.count = 0 ∧ x.auto = false ∧ t.fld (TL_MBCMD_GO n) = 1) ∧
      (∃ t x, exec (.mbWrite i n v) s = .next t ∧ (t.line n).mb = some x ∧ x.op = 2 ∧ x.addr = bits v.toNat 4 4 ∧ x.dlen = bits v.toNat 8 8 ∧
        x.index = bits v.toNat 16 16 ∧ x.tag = ((s.line n).tag + 1) % 256 ∧ x.count = 0 ∧ x.auto = false ∧ t.fld (TL_MBCMD_GO n) = 1 ∧
        x.data = ((List.range 32).flatMap (fun w => leBytes 4 (s.reg (TL_MBDATA n w)).toNat)).take (bits v.toNat 8 8)) ∧
      (∃ t x, exec (.mbIdent i n v) s = .next t ∧ (t.line n).mb = some x ∧ x.op = 3 ∧ x.addr = bits v.toNat 4 4 ∧ x.dlen = bits v.toNat 8 8 ∧
        x.index = 0 ∧ x.tag = ((s.line n).tag + 1) % 256 ∧ x.count = 0 ∧ x.auto = false ∧ t.fld (TL_MBCMD_GO n) = 1)) ∧
    (((s.line n).mb.isSome = true ∨ 2 ≤ s.role ∨ 8 * s.fld (TL_MBRSP_MBMAX n) < bits v.toNat 8 8) →
      (∃ t, exec (.mbRead i n v) s = .next t ∧ t.fld (TL_MBSTAT_STATUS n) = 7 ∧ t.lines = s.lines) ∧
      (∃ t, exec (.mbWrite i n v) s = .next t ∧ t.fld (TL_MBSTAT_STATUS n) = 7 ∧ t.lines = s.lines) ∧
      (∃ t, exec (.mbIdent i n v) s = .next t ∧ t.fld (TL_MBSTAT_STATUS n) = 7 ∧ t.lines = s.lines))) ∧
  (∀ (s : State) (n : Fin 8) (x : MbEx), s.underWay = true → s.fld (TL_LSTAT_STATE n) = 4 → s.fld (TL_MBREQ_MBEN n) = 1 → s.commands = true →
    s.pair.muted = false → (s.line n).mb = some x →
    (x.count < 256 →
      ∃ t, exec (.mbreq n) s = .next t ∧ (t.line n).mb = some { x with count := x.count + 1, sentNow := true } ∧ t.regs = s.regs ∧
        (t.line n).mbFrame = s.mbFrameOf n (!s.drives n false) x) ∧
    (256 ≤ x.count → x.auto = false →
      ∃ t, exec (.mbreq n) s = .next t ∧ (t.line n).mb = none ∧ t.fld (TL_MBSTAT_STATUS n) = 6 ∧ t.fld (TL_MBSTAT_DONE n) = 1 ∧
        t.fld (TL_MBCMD_GO n) = 0)) ∧
  (∀ (s : State) (n : Fin 8) (f : LineFrame) (x : MbEx), s.underWay = true → s.frameValid n f = true → frameType f = 5 →
    s.fld (TL_LSTAT_STATE n) = 4 → (s.line n).mb = some x → x.sentNow = true → frameSrc f = x.addr → leAt f.payload 9 1 = x.tag →
    s.mbWindow n x.addr (s.stamped n f) = true →
    (leAt f.payload 14 1 = 1 →
      ∃ t, exec (.mbrsp n f) s = .next t ∧ (t.line n).mb = some { x with sentNow := false } ∧
        (∀ a, a ≠ TL_PRXOK (portOf n f.endB) → t.reg a = s.reg a)) ∧
    (leAt f.payload 14 1 ≠ 1 → x.auto = false →
      ∃ t, exec (.mbrsp n f) s = .next t ∧ (t.line n).mb = none ∧ t.fld (TL_MBSTAT_STATUS n) = leAt f.payload 14 1 % 8 ∧
        t.fld (TL_MBSTAT_DONE n) = 1 ∧ t.fld (TL_MBCMD_GO n) = 0 ∧
        ((leAt f.payload 14 1 ≠ 0 ∨ x.op = 2) → ∀ w, w < 32 → t.reg (TL_MBDATA n w) = s.reg (TL_MBDATA n w))))

/-! ### Start-up and time keeping of the lines (chapter Tuitra Time and Start-up) -/

/-- LINE_RUN, LINE_STOP and LISTEN_END (R211, R212): RUN written as 1 in IDLE starts LISTEN, or is refused with NOSTEP where CFGSRC is PTP and time was never stepped; in another
state the line goes on. RUN written as 0 asks for IDLE at the next cycle start. LISTEN ends in COLDSTART, phase ANNOUNCE, once the time to listen has passed with a
driven end A and no partner frame heard, and begins anew where one was heard; with DEFER set the line listens anew when the other module's frames stayed away. -/
def Obligations.LinesStartAndStopByRun : Prop :=
  (∀ (s : State) (i : Initiator) (n : Fin 8) (v : Word), s.underWay = true →
    (s.fld (TL_LSTAT_STATE n) = 0 → ¬ (s.fld CT_CTL_CFGSRC = 2 ∧ s.fld CT_STAT_STEPPED = 0) →
      ∃ t, exec (.lineRun i n v) s = .next t ∧ t.fld (TL_LSTAT_STATE n) = 1 ∧ t.fld (TL_TSTAT_FAIL n) = 0 ∧ (t.line n).listened = 0 ∧
        (t.line n).shortL = false ∧ (∀ m, m ≠ n.val → t.line m = s.line m)) ∧
    (s.fld (TL_LSTAT_STATE n) = 0 → s.fld CT_CTL_CFGSRC = 2 → s.fld CT_STAT_STEPPED = 0 →
      ∃ t, exec (.lineRun i n v) s = .next t ∧ t.fld (TL_LSTAT_STATE n) = 0 ∧ t.fld (TL_TSTAT_NOSTEP n) = 1 ∧ t.fld (TL_LCTL_RUN n) = 0 ∧
        t.lines = s.lines) ∧
    (s.fld (TL_LSTAT_STATE n) ≠ 0 →
      (∃ t, exec (.lineRun i n v) s = .next t ∧ t.fld (TL_LSTAT_STATE n) = s.fld (TL_LSTAT_STATE n) ∧ t.lines = s.lines) ∧
      (∃ t, exec (.lineStop i n v) s = .next t ∧ t.fld (TL_LSTAT_STATE n) = s.fld (TL_LSTAT_STATE n) ∧
        t.line n = { s.line n with stopReq := true })) ∧
    (s.fld (TL_LSTAT_STATE n) = 0 → ∃ t, exec (.lineStop i n v) s = .next t ∧ t.fld (TL_LSTAT_STATE n) = 0 ∧ t.lines = s.lines)) ∧
  (∀ (s : State) (n : Fin 8), s.underWay = true →
    (s.fld (TL_LSTAT_STATE n) ≠ 1 → exec (.listenEnd n) s = .next s) ∧
    (s.fld (TL_LSTAT_STATE n) = 1 → s.fld (TL_TSTAT_DEFER n) = 0 → s.drives n false = true →
      (s.listenTime n ≤ s.listenedNs n → (s.line n).heard = true →
        ∃ t, exec (.listenEnd n) s = .next t ∧ t.fld (TL_LSTAT_STATE n) = 1 ∧ (t.line n).listened = 0 ∧ (t.line n).heard = false ∧
          (t.line n).shortL = (s.line n).shortL) ∧
      (s.listenTime n ≤ s.listenedNs n → (s.line n).heard = false →
        ∃ t, exec (.listenEnd n) s = .next t ∧ t.fld (TL_LSTAT_STATE n) = 2 ∧ t.fld (TL_TSTAT_PHASE n) = 1 ∧ (t.line n).coldN = 0 ∧
          (t.line n).cold = true ∧ (∀ a, a ≠ TL_LSTAT n → a ≠ TL_TSTAT n → t.reg a = s.reg a)) ∧
      (s.listenedNs n < s.listenTime n → exec (.listenEnd n) s = .next s)) ∧
    (s.fld (TL_LSTAT_STATE n) = 1 → s.fld (TL_TSTAT_DEFER n) = 1 → s.tListen ≤ s.nowNs - (s.line n).heardAt →
      ∃ t, exec (.listenEnd n) s = .next t ∧ t.fld (TL_LSTAT_STATE n) = 1 ∧ t.fld (TL_TSTAT_DEFER n) = 0 ∧ (t.line n).listened = 0))

/-- COLD_CYCLE_START, COLD_MBRSP, COLLISION_WAIT_END, VERIFY_TIMEOUT and INTEG_TIMEOUT (R213 to R215, R217): while the lines are not being returned from REEFED, in ANNOUNCE a COLD frame of state
ANNOUNCE is sent at each driven end in each of 8 cold cycles, and the next one begins CONFIG with the IDENT of node 1; an exchange without an answer fails the start with FAIL NODE, the
last one answered ends CONFIG; after a collision the line waits by its rank and then listens anew for 250 µs. A cold response OK or PENDING is noted for its exchange, any other fails the
start. A time-out of VERIFY or INTEGRATING fails it with FAIL 2 or 3. A failed
start leaves the line IDLE with RUN 0, the cause in FAIL and TL_START_FAIL set. -/
def Obligations.ColdStartAnnouncesConfiguresOrFails : Prop :=
  (∀ (s : State) (n : Fin 8), s.underWay = true → s.pair.muted = false → s.power.reefLines = false →
    (s.fld (TL_LSTAT_STATE n) ≠ 2 → exec (.coldCycleStart n) s = .next s) ∧
    (s.fld (TL_LSTAT_STATE n) = 2 → (s.line n).waitEnd = none →
      ((s.line n).coll = true →
        ∃ t, exec (.coldCycleStart n) s = .next t ∧ t.fld (TL_TSTAT_PHASE n) = 0 ∧ t.fld (TL_LSTAT_STATE n) = 2 ∧ (t.line n).coll = false ∧
          (t.line n).waitEnd = some (s.nowNs + (2 * s.fld TL_FTA_CTL_RANK + s.fld PR_CTL_PAIRID + 1) * 250000) ∧
          t.fld (TL_TSTAT_COLLCNT n) = min 255 (s.fld (TL_TSTAT_COLLCNT n) + 1)) ∧
      ((s.line n).coll = false → s.fld (TL_TSTAT_PHASE n) = 1 → (s.line n).coldN < 8 →
        ∃ t, exec (.coldCycleStart n) s = .next t ∧ (t.line n).coldN = (s.line n).coldN + 1 ∧ t.regs = s.regs ∧
          (t.line n).frameA = (if s.drives n false then s.etherFrame n false (s.coldFrame n (s.cycleStart 125000) 1 false) else []) ∧
          (t.line n).frameB = (if s.drives n true then s.etherFrame n true (s.coldFrame n (s.cycleStart 125000) 1 true) else [])) ∧
      ((s.line n).coll = false → s.fld (TL_TSTAT_PHASE n) = 1 → 8 ≤ (s.line n).coldN → (s.line n).cmb = none → s.nodes n ≠ 0 →
        ∃ t x, exec (.coldCycleStart n) s = .next t ∧ t.fld (TL_TSTAT_PHASE n) = 2 ∧ t.fld (TL_TSTAT_CFGNODE n) = 1 ∧
          (t.line n).cmb = some x ∧ x.op = 3 ∧ x.addr = 1 ∧ (t.line n).cfgAns = 0 ∧ (t.line n).mb = (s.line n).mb) ∧
      ((s.line n).coll = false → s.fld (TL_TSTAT_PHASE n) = 2 → (s.line n).cmb.isSome = true → (s.line n).cfgAns = 0 →
        ∃ t, exec (.coldCycleStart n) s = .next t ∧ t.fld (TL_LSTAT_STATE n) = 0 ∧ t.fld (TL_TSTAT_FAIL n) = 1) ∧
      ((s.line n).coll = false → s.fld (TL_TSTAT_PHASE n) = 2 → (s.line n).cmb.isSome = true → (s.line n).cfgAns = 1 →
        (s.line n).cfgEx + 1 = 8 * s.nodes n →
        ∃ t, exec (.coldCycleStart n) s = .next t ∧ t.fld (TL_TSTAT_PHASE n) = 3 ∧ (t.line n).cmb = none))) ∧
  (∀ (s : State) (n : Fin 8) (f : LineFrame) (x : MbEx), s.underWay = true → s.frameValid n f = true → frameType f = 5 →
    s.fld (TL_LSTAT_STATE n) = 2 → s.fld (TL_TSTAT_PHASE n) = 2 → (s.line n).cmb = some x → frameSrc f = x.addr → leAt f.payload 9 1 = x.tag →
    s.coldWindow n x.addr (s.stamped n f) = true →
    (leAt f.payload 14 1 = 0 → ∃ t, exec (.coldMbrsp n f) s = .next t ∧ (t.line n).cfgAns = 1 ∧ (t.line n).cmb = some x) ∧
    (leAt f.payload 14 1 = 1 → (s.line n).cfgAns = 0 →
      ∃ t, exec (.coldMbrsp n f) s = .next t ∧ (t.line n).cfgAns = 2 ∧ (t.line n).cmb = some x) ∧
    (1 < leAt f.payload 14 1 →
      ∃ t, exec (.coldMbrsp n f) s = .next t ∧ t.fld (TL_LSTAT_STATE n) = 0 ∧ t.fld (TL_TSTAT_FAIL n) = 1)) ∧
  (∀ (s : State) (n : Fin 8) (w : Nat), s.underWay = true → s.fld (TL_LSTAT_STATE n) = 2 → (s.line n).waitEnd = some w → w ≤ s.nowNs →
    ∃ t, exec (.collisionWaitEnd n) s = .next t ∧ t.fld (TL_LSTAT_STATE n) = 1 ∧ t.listenTime n = 250000 ∧ (t.line n).waitEnd = none) ∧
  (∀ (s : State) (n : Fin 8), s.underWay = true → (s.line n).runNext = false →
    (s.fld (TL_LSTAT_STATE n) = 2 → s.fld (TL_TSTAT_PHASE n) = 3 →
      (64 ≤ (s.line n).verN → exec (.verifyTimeout n) s = .next (s.startFail n 2)) ∧
      ((s.line n).verN < 64 → exec (.verifyTimeout n) s = .next s)) ∧
    (s.fld (TL_LSTAT_STATE n) = 3 →
      ((s.line n).integAt + 20000000 + (s.line n).integSlew ≤ s.nowNs → exec (.integTimeout n) s = .next (s.startFail n 3)) ∧
      (s.nowNs < (s.line n).integAt + 20000000 + (s.line n).integSlew → exec (.integTimeout n) s = .next s))) ∧
  (∀ (s : State) (n code : Nat), n < 8 → code < 16 →
    (s.startFail n code).fld (TL_LSTAT_STATE n) = 0 ∧ (s.startFail n code).fld (TL_LCTL_RUN n) = 0 ∧
      (s.startFail n code).fld (TL_TSTAT_FAIL n) = code ∧ ((s.startFail n code).reg (GLB_FAULT_STICKY 4)).getLsbD 4 = true)

/-- PARTNER_CYCLE_FRAME, COLD_FRAME, OWN_FRAME_AT_FAR_END, LINK_UP and LINK_DOWN (R172, R209, R212, R214 to R216, R240): a foreign CYCLE or COLD frame in LISTEN at a module that drives both ends
fails the start with FAIL 4. A partner's CYCLE frame with a higher epoch makes a commanding module HALTED, cause 2, with PR_HALTED set; on an integrating line a
module that follows measures the pair time from it and takes its epoch where it is higher. A partner's COLD frame makes a listening line defer, and one on any line a collision of each
line in ADDR or CONFIG.
An own frame at the far end is noted, and one whose HOPS differ from NNODE sets TOPO. Links show in the port's status and a driven end's; the
loss of a RUNNING line's driven end sets TL_LINK_DOWN. -/
def Obligations.FramesOfThePartnerAndTheFarEnd : Prop :=
  (∀ (s : State) (n : Fin 8) (f : LineFrame), s.underWay = true → s.frameValid n f = true →
    let u := s.incFld (TL_PRXOK_N (portOf n f.endB))
    (s.foreign n f = true →
      (frameType f = 1 → exec (.partnerCycleFrame n f) s = .next (u.startFail n 4)) ∧
      (frameType f = 3 → exec (.coldFrame n f) s = .next (u.startFail n 4))) ∧
    (s.foreign n f = false → s.fld PR_CTL_PAIREN = 1 → (framePair f == s.flag PR_CTL_PAIRID) = false →
      (frameType f = 1 → s.commands = true → s.fld PR_EPOCH_EPOCH < leAt f.payload 12 4 → s.fld (TL_LSTAT_STATE n) = 4 →
        ∃ t, exec (.partnerCycleFrame n f) s = .next t ∧ t.role = 4 ∧
          ((s.reg (GLB_FAULT_HALT 4)).getLsbD 1 = false → t.fld PR_STAT_HALTCAUSE = 2) ∧
          (t.reg (GLB_FAULT_STICKY 4)).getLsbD 1 = true) ∧
      (frameType f = 1 → (s.role = 2 ∨ s.role = 3) → s.fld (TL_LSTAT_STATE n) = 3 →
        ∃ t, exec (.partnerCycleFrame n f) s = .next t ∧ t.fld PR_EPOCH_EPOCH = max (s.fld PR_EPOCH_EPOCH) (leAt f.payload 12 4) ∧
          t.role = s.role ∧ (t.line n).heardAt = s.nowNs ∧
          (t.line n).mOwn.head? = some (s.cycleStart (s.linePer n) / s.linePer n, sinceStart (s.stamped n f).sfd (s.cycleStart (s.linePer n)))) ∧
      (frameType f = 3 → leAt f.payload 21 1 ≠ 4 → s.fld (TL_LSTAT_STATE n) = 1 →
        ∃ t, exec (.coldFrame n f) s = .next t ∧ t.fld (TL_TSTAT_DEFER n) = 1 ∧ (t.line n).heardAt = s.nowNs) ∧
      (frameType f = 3 → leAt f.payload 21 1 ≠ 4 →
        ∃ t, exec (.coldFrame n f) s = .next t ∧ ∀ m : Fin 8, s.fld (TL_LSTAT_STATE m) = 2 →
          (s.fld (TL_TSTAT_PHASE m) = 1 ∨ s.fld (TL_TSTAT_PHASE m) = 2) → (s.line m).runNext = false → (s.line m).waitEnd = none →
          (t.line m).coll = true)) ∧
    (s.drives n f.endB = true → s.ownFrame f = true →
      ∃ t, exec (.ownFrameAtFarEnd n f) s = .next t ∧
        (f.endB = true → (t.line n).farB = true) ∧ (f.endB = false → (t.line n).farA = true) ∧
        (frameType f = 1 → s.fld (TL_LSTAT_STATE n) = 4 → frameHops f ≠ s.nodes n → t.fld (TL_LSTAT_TOPO n) = 1) ∧
        (frameHops f = s.nodes n → t.reg (TL_LSTAT n) = s.reg (TL_LSTAT n)))) ∧
  (∀ (s : State) (q : Fin 16) (m : Bool), s.underWay = true →
    (∃ t, exec (.linkUp q m) s = .next t ∧ t.fld (TL_PSTAT_LINK q) = 1 ∧ t.fld (TL_PSTAT_MASTER q) = b2n m ∧
      (s.drives (q.val % 8) (decide (8 ≤ q.val)) = true →
        t.fld (if q.val < 8 then TL_LSTAT_LINKA (q.val % 8) else TL_LSTAT_LINKB (q.val % 8)) = 1)) ∧
    (∃ t, exec (.linkDown q) s = .next t ∧ t.fld (TL_PSTAT_LINK q) = 0 ∧ t.fld (TL_PSTAT_MASTER q) = 0 ∧
      (s.drives (q.val % 8) (decide (8 ≤ q.val)) = true →
        t.fld (if q.val < 8 then TL_LSTAT_LINKA (q.val % 8) else TL_LSTAT_LINKB (q.val % 8)) = 0 ∧
        (s.fld (TL_LSTAT_STATE (q.val % 8)) = 4 → (t.reg (GLB_FAULT_STICKY 4)).getLsbD 5 = true))))

/-- FTA_ROUND, STAY_PAIR_MEASUREMENT and STAY_NODE_DELAY_MEANS (R205, R206, R208 to R210): a round that ends counts the values it had and begins the next one empty; with fewer than
2·K + 1 values SHORT is set and no average is made, else USED is the number left after K were dropped at either end and the average is their floor mean. A following module
turns its own and its partner's measurement of one cycle of the reference line into δ and D; a commanding one, another line or a cycle of which it has none does not. A commanding
module keeps a mean of the partner's for its end of the node and queues the DELAY write where it is one of a joiner's, or AUTODLY is set and it has drifted by more than 16 ns, and else
nothing changes. -/
def Obligations.RoundsAverageAndPairTimeIsMeasured : Prop :=
  (∀ s : State, s.underWay = true →
    (s.fta.roundAt = s.cycleStart s.roundLen → exec .ftaRound s = .next s) ∧
    (s.fta.roundAt ≠ s.cycleStart s.roundLen →
      ∃ t, exec .ftaRound s = .next t ∧ t.fta.roundAt = s.cycleStart s.roundLen ∧ t.fld TL_FTA_STAT_COUNT = s.roundValues.length % 32 ∧
        (∀ n, n < 8 → (t.line n).theta = []) ∧
        (s.roundValues.length < 2 * s.fld TL_FTA_CTL_K + 1 →
          t.fld TL_FTA_STAT_SHORT = 1 ∧ t.fld TL_FTA_STAT_USED = 0 ∧ t.reg TL_FTA_DELTA = s.reg TL_FTA_DELTA) ∧
        (2 * s.fld TL_FTA_CTL_K + 1 ≤ s.roundValues.length →
          t.fld TL_FTA_STAT_USED = (s.roundValues.length - 2 * s.fld TL_FTA_CTL_K) % 32 ∧
          t.reg TL_FTA_DELTA = BitVec.ofInt 32
            ((((sortI s.roundValues).drop (s.fld TL_FTA_CTL_K)).take (s.roundValues.length - 2 * s.fld TL_FTA_CTL_K)).sum /
              ((s.roundValues.length - 2 * s.fld TL_FTA_CTL_K : Nat) : Int))))) ∧
  (∀ (s : State) (n : Fin 8) (c m : Word), s.underWay = true → s.fld PR_CTL_PAIREN = 1 →
    ((s.commands = true ∨ s.refLine ≠ some n.val ∨ (s.line n).mOwn.find? (fun x => BitVec.ofNat 32 x.1 == c) = none) →
      exec (.stayPairMeasurement n ⟨c, m⟩) s = .next s) ∧
    (∀ x, s.commands = false → s.refLine = some n.val → (s.line n).mOwn.find? (fun x => BitVec.ofNat 32 x.1 == c) = some x →
      ∃ t, exec (.stayPairMeasurement n ⟨c, m⟩) s = .next t ∧ t.reg (TL_PAIR_DELTA n) = BitVec.ofInt 32 ((x.2 - m.toInt) / 131072) ∧
        t.fld (TL_PAIR_D_D n) = ((x.2 + m.toInt) / 131072).toNat % 2 ^ 17 ∧
        (∀ y ∈ (t.line n).mOwn, y.1 ≠ x.1) ∧ t.fta.dCnt = s.fta.dCnt + 1 ∧
        t.fld (TL_TSTAT_PSYNC n) = (if ((x.2 - m.toInt) / 131072).natAbs ≤ 24 ∧ 15 ≤ (s.line n).psyncRun then 1 else 0))) ∧
  (∀ (s : State) (n : Fin 8) (join : Bool) (l : List (Nat × BitVec 16)) (a : Nat) (v : BitVec 16), s.underWay = true → s.fld PR_CTL_PAIREN = 1 →
    (s.commands = false → exec (.stayNodeDelayMeans n ⟨join, l⟩) s = .next s) ∧
    (s.commands = true →
      ((join = true ∨ (s.fld (TL_SYNC_AUTODLY n) = 1 ∧ 128 < ((v.toNat : Int) - s.farDelay n a).natAbs)) →
        ∃ t, exec (.stayNodeDelayMeans n ⟨join, [(a, v)]⟩) s = .next t ∧ t.farDelay n a = v.toNat ∧
          (s.drives n false = true → (t.line n).dA = (s.line n).dA) ∧ (s.drives n false = false → (t.line n).dB = (s.line n).dB) ∧
          (t.line n).autoQ.any (fun x => x.1 == a) = true ∧ t.regs = s.regs) ∧
      (join = false → (s.fld (TL_SYNC_AUTODLY n) = 0 ∨ ((v.toNat : Int) - s.farDelay n a).natAbs ≤ 128) →
        exec (.stayNodeDelayMeans n ⟨join, [(a, v)]⟩) s = .next s) ∧
      (∃ t, exec (.stayNodeDelayMeans n ⟨true, (l ++ [(a, v)])⟩) s = .next t ∧ t.farDelay n a = v.toNat ∧
        (t.line n).autoQ.any (fun x => x.1 == a) = true)))

/-! ### The redundant pair (chapter The Redundant Pair) -/

/-- HEARTBEAT_SEND, HEARTBEAT, HEARTBEAT_LOSS, STAY_LINK_UP, STAY_LINK_DOWN, HANDOVER, HANDOVER_INSTANT, PAIR_HALT, UNHALT and JOIN of a pair (R220, R222 to R224, R234, R240 to R242, R373, R379). A heartbeat
sent, also by a HALTED module unless it is halted by command, is the module's present one and changes no register but the counters, none before the partner is known. A heartbeat received with the own PAIR_ID halts
the module and sets PR_HALTED; one of another rig is not taken, sets RIGDIFF and makes a STANDBY STALE, cause 6; an accepted one is held, its role shows in PROLE, an ALONE module
becomes ACTIVE where it comes from a STANDBY or STALE one, and a HALTED one that is not silent STALE, cause 7, where it comes from an ACTIVE or ALONE one, with the highest epoch
received; no other role changes. An ACTIVE module without four heartbeats and without a frame since the first of them is ALONE. A lane of the stay link up shows, and down sets
PR_SL_DOWN where a partner is known. A handover asked of an ACTIVE module with a STANDBY partner in PSYNC is set for the first plan cycle start 1 ms later, any other sets HOREF; at
that instant ACTIVE and STANDBY change their roles and count the epoch. PAIR_HALT makes the module HALTED, cause 1, and silent; UNHALT ends the silence of a HALTED one and does
nothing else to another's; JOIN notes the request. -/
def Obligations.PairRolesFollowTheirEvents : Prop :=
  (∀ s : State, s.underWay = true → s.fld PR_CTL_PAIREN = 1 →
    ∃ t, exec .heartbeatSend s = .next t ∧ t.pair.hbSent = (if s.hbSilent = true then s.pair.hbSent else some s.myHeartbeat) ∧ (∀ a, a ≠ PR_CNT → t.reg a = s.reg a) ∧
      (s.fld PR_STAT_PROLE = 7 → t.regs = s.regs)) ∧
  (∀ (s : State) (m : HeartbeatMsg), s.underWay = true → s.fld PR_CTL_PAIREN = 1 →
    (m.pairId = s.flag PR_CTL_PAIRID →
      ∃ t, exec (.heartbeat m) s = .next t ∧ t.role = 4 ∧ (t.reg (GLB_FAULT_STICKY 4)).getLsbD 1 = true) ∧
    (m.pairId ≠ s.flag PR_CTL_PAIRID → m.digest = s.digest8 →
      ∃ t, exec (.heartbeat m) s = .next t ∧ t.pair.hb = some m ∧ t.fld PR_STAT_PROLE = m.role.val ∧ t.fld PR_STAT_RIGDIFF = 0 ∧
        (s.role = 0 → (m.role.val = 2 ∨ m.role.val = 3) → t.role = 1) ∧
        (s.role = 0 → ¬ (m.role.val = 2 ∨ m.role.val = 3) → t.role = 0) ∧
        (s.role = 4 → s.pair.muted = false → m.role.val ≤ 1 → s.pair.maxEpoch < 2 ^ 32 →
          t.role = 3 ∧ t.fld PR_EPOCH_EPOCH = max s.pair.maxEpoch m.epoch.toNat ∧ t.fld PR_STAT_STALECAUSE = 7) ∧
        (s.role = 4 → (s.pair.muted = true ∨ 2 ≤ m.role.val) → t.role = 4) ∧
        ((s.role = 1 ∨ s.role = 2 ∨ s.role = 3) → t.role = s.role)) ∧
    (m.pairId ≠ s.flag PR_CTL_PAIRID → m.digest ≠ s.digest8 →
      ∃ t, exec (.heartbeat m) s = .next t ∧ t.pair.hb = s.pair.hb ∧ t.fld PR_STAT_RIGDIFF = 1 ∧ t.role ≠ 2 ∧
        (s.role = 2 → t.fld PR_STAT_STALECAUSE = 6))) ∧
  (∀ s : State, s.underWay = true → s.role = 1 →
    let p := (s.nowNs - 2000) / 31250 * 31250 - 3 * 31250
    (s.hbNone p 4 = true → seenSince s.pair.frameAt p = false → ∃ t, exec .heartbeatLoss s = .next t ∧ t.role = 0) ∧
    ((s.hbNone p 4 = false ∨ seenSince s.pair.frameAt p = true) → exec .heartbeatLoss s = .next s)) ∧
  (∀ (s : State) (l : Fin 2), s.underWay = true → s.fld PR_CTL_PAIREN = 1 →
    (∃ t, exec (.stayLinkUp l s.digest8) s = .next t ∧ t.fld (if l.val = 0 then PR_STAT_SL0UP else PR_STAT_SL1UP) = 1 ∧
      t.fld PR_STAT_RIGDIFF = 0 ∧ t.role = s.role) ∧
    (∃ t, exec (.stayLinkDown l) s = .next t ∧ t.fld (if l.val = 0 then PR_STAT_SL0UP else PR_STAT_SL1UP) = 0 ∧
      (s.fld PR_STAT_PROLE ≠ 7 → (t.reg (GLB_FAULT_STICKY 4)).getLsbD 3 = true))) ∧
  (∀ (s : State) (i : Initiator), s.underWay = true →
    (∀ m, s.role = 1 → s.pair.hb = some m → m.role.val = 2 → m.psync = true →
      ∃ t h, exec (.handover i) s = .next t ∧ t.pair.hoAt = some h ∧ h % s.planPer = 0 ∧ s.nowNs + 1000000 ≤ h ∧ h < s.nowNs + 1000000 + s.planPer ∧
        t.fld PR_HOTIME_V = h % 2 ^ 32 ∧ t.role = 1) ∧
    (s.role ≠ 1 → exec (.handover i) s = .next (s.setFld PR_STAT_HOREF 1)) ∧
    (∃ t, exec (.pairHalt i) s = .next t ∧ t.role = 4 ∧ t.fld PR_STAT_HALTCAUSE = 1 ∧ t.pair.muted = true) ∧
    (s.role = 4 → ∃ t, exec (.unhalt i) s = .next t ∧ t.role = 4 ∧ t.pair.muted = false) ∧
    (s.role ≠ 4 → exec (.unhalt i) s = .next s) ∧
    exec (.join i) s = .next { s with pair := { s.pair with joinReq := true } }) ∧
  (∀ s : State, s.underWay = true →
    (∀ h, s.role = 1 → s.pair.hoAt = some h → h ≤ s.nowNs → s.fld PR_STAT_PROLE = 2 →
      ∃ t, exec .handoverInstant s = .next t ∧ t.role = 2 ∧ t.fld PR_EPOCH_EPOCH = (s.fld PR_EPOCH_EPOCH + 1) % 2 ^ 32 ∧ t.pair.hoAt = none) ∧
    (∀ h, s.role = 1 → s.pair.hoAt = some h → s.nowNs < h → exec .handoverInstant s = .next s) ∧
    (s.role = 2 → s.fld PR_STAT_PROLE = 1 →
      ∃ t, exec .handoverInstant s = .next t ∧ t.role = 1 ∧ t.fld PR_EPOCH_EPOCH = (s.fld PR_EPOCH_EPOCH + 1) % 2 ^ 32))

/-- PARTNER_MASK, CYCLE_MESSAGE, FORWARDED_WRITE, FORWARD_QUEUE_ROOM, CHECKPOINT_PAGE, CHECKPOINT_PAGE_SENT, BACKLOG_TIMEOUT, RESYNC_START, RESYNC_PASS_END and RESYNC_GRANULES (R226, R227, R229, R231 to R233, R242).
A partner's mask is kept. A cycle message is kept on a module that follows; where it judges a cycle in which the module followed, one whose output CRC differs makes a STANDBY STALE,
cause 2, and no other one changes a register. A forwarded word reaches the engine memory that it addresses, and one of a joint's shadow registers makes the joint's PEND 1. Room in the
queue takes its head away, and the first waiting write enters it. A checkpoint page is kept on a module that follows; one that has left the ACTIVE module lets the one write stalled on it
proceed. A backlog makes a STANDBY STALE, cause 4, with PR_MIRROR set. A resynchronisation begins in COPY where JOIN asked for it, the partner is STALE in PSYNC and every line with nodes
is RUNNING at both modules; COPY goes over to DIRTY, a DIRTY pass of at most 64 KiB to ADOPT, and a larger one to a further pass over what was written since. Bytes received by a STALE
module of the same rig reach memory; an adoption begins there with the engines' pairing state anew.

STAY_SPAR_RECORD, STAY_CANVAS_RECORD, STAY_SHROUD_OUTPUTS, AXIS_STATE_SEND and STAY_AXIS_STATE (R138, R147, R170, R230, R303): on a STANDBY or STALE module a submission whose entries
are valid binds its instance and starts no solve, a result is stored at its place and, where it has a solution, kept, a canvas outcome changes the voxels, grants and frees that
it names, the comparator's outputs are kept and a parallel-wired axis takes the state received; the ACTIVE module keeps the state of each parallel-wired axis that it sends. -/
def Obligations.ReplicationAndStayReachThePartner : Prop :=
  ((∀ (s : State) (n : Fin 8) (k : BitVec 10) (c : List (Nat × Word)), s.underWay = true → s.fld PR_CTL_PAIREN = 1 →
    exec (.partnerMask n k c) s = .next (s.setPline n { s.pline n with mask := some (k, c) })) ∧
  (∀ (s : State) (n : Fin 8) (m : CycleMsg), s.underWay = true → s.fld PR_CTL_PAIREN = 1 → (s.role = 2 ∨ s.role = 3) →
    ∃ t, exec (.cycleMessage n m) s = .next t ∧ (t.pline n).msg = some m ∧
      ((m.outCrc.toNat = (s.eng n).crc ∨ s.crcCounts n = false) → t.regs = s.regs ∧ (t.pline n).crcOk = (s.pline n).crcOk) ∧
      (m.outCrc.toNat ≠ (s.eng n).crc → s.crcCounts n = true → (t.pline n).crcOk = false ∧ t.role ≠ 2 ∧ (s.role = 2 → t.fld PR_STAT_STALECAUSE = 2))) ∧
  (∀ (s : State) (a v : Word), s.underWay = true → (s.role = 2 ∨ s.role = 3) →
    (∀ x, seOf a.toNat = some x → ∃ t, exec (.forwardedWrite a v) s = .next t ∧ t.rd32 a.toNat = v.toNat ∧ t.regs = s.regs ∧
      (∀ b, (b < a.toNat ∨ a.toNat + 4 ≤ b) → t.rdB b = s.rdB b)) ∧
    (∀ k, seOf a.toNat = none → shadowJoint a.toNat = some k →
      ∃ t, exec (.forwardedWrite a v) s = .next t ∧ t.fld (JC_STAT_PEND k) = 1)) ∧
  (∀ s : State, (s.pair.fwdWait = [] → ∃ t, exec .forwardQueueRoom s = .next t ∧ t.pair.fwd = s.pair.fwd.drop 1) ∧
    (∀ w ws, s.pair.fwdWait = w :: ws → ∃ t, exec .forwardQueueRoom s = .next t ∧
      t.pair.fwd = s.pair.fwd.drop 1 ++ [(w.addr, w.data)] ∧ t.pair.fwdWait = ws)) ∧
  (∀ (s : State) (p : Nat) (d : List Byte) (last : Bool), s.underWay = true → s.follows = true → p < 16 * min 128 (s.fld PR_MIRLEN_LEN) →
    ∃ t, exec (.checkpointPage p d last) s = .next t ∧ tabGet (fun _ => []) t.pair.ckIn p = sliceB d 0 4096 ∧
      t.pair.ckLast = (s.pair.ckLast || last) ∧ t.mem = s.mem ∧ t.regs = s.regs) ∧
  (∀ (s : State) (p : Nat) (ps : List Nat), s.pair.unsent = p :: ps →
    ∃ t, exec .checkpointPageSent s = .next t ∧ t.pair.unsent = ps ∧ (s.pair.stalled = [] → t.mem = s.mem) ∧
      (∀ w, s.pair.stalled = [w] → s.mirPage w.addr = some p → s.role = 1 → ps.contains p = false →
        t.rdBytes w.addr w.data.length = w.data ∧ t.pair.stalled = [])) ∧
  (∀ s : State, s.underWay = true →
    (s.role = 2 → ∃ t, exec .backlogTimeout s = .next t ∧ t.role ≠ 2 ∧ t.fld PR_STAT_STALECAUSE = 4 ∧
      (t.reg (GLB_FAULT_STICKY 4)).getLsbD 2 = true) ∧
    (s.role ≠ 2 → exec .backlogTimeout s = .next s) ∧
    (∀ m, s.role = 1 → s.fld PR_STAT_RESYNC = 0 → s.pair.hb = some m → m.role.val = 3 → m.psync = true →
      (∀ n, n < 8 → s.nodes n = 0 ∨ (s.fld (TL_LSTAT_STATE n) = 4 ∧ s.partnerRuns n = true)) → s.pair.joinReq = true →
      ∃ t, exec .resyncStart s = .next t ∧ t.fld PR_STAT_RESYNC = 1 ∧ t.pair.joinReq = false) ∧
    (∀ same, s.role = 1 →
      (s.fld PR_STAT_RESYNC = 1 → ∃ t, exec (.resyncPassEnd same) s = .next t ∧ t.fld PR_STAT_RESYNC = 2 ∧
        t.pair.passBytes = 64 * (s.written same).length ∧ t.pair.copyMem = s.mem ∧ t.mem = s.mem) ∧
      (s.fld PR_STAT_RESYNC = 2 → s.pair.passBytes ≤ 65536 → exec (.resyncPassEnd same) s = .next (s.setFld PR_STAT_RESYNC 3)) ∧
      (s.fld PR_STAT_RESYNC = 2 → 65536 < s.pair.passBytes → ∃ t, exec (.resyncPassEnd same) s = .next t ∧ t.regs = s.regs ∧
        t.pair.passBytes = 64 * (s.written same).length ∧ t.pair.copyMem = s.mem ∧ t.mem = s.mem)) ∧
    (∀ d e, s.role = 3 → s.fld PR_STAT_RIGDIFF = 0 →
      (∃ t, exec (.resyncGranules false d e) s = .next t ∧ t.fld PR_STAT_RESYNC = 1 ∧
        (∀ l a b, d = l ++ [(a, b)] → 0x100000 ≤ a → t.rdB a = b)) ∧
      (∃ t, exec (.resyncGranules true d e) s = .next t ∧ t.fld PR_STAT_RESYNC = 3 ∧ t.pair.adoptAt.isSome = true ∧
        (∀ n, n < 8 → (t.pline n).crcOk = true ∧ (t.pline n).gaps = 0))))) ∧
  ((∀ s : State, s.underWay = true → (s.role = 2 ∨ s.role = 3) →
    (∀ (desc es : List Word),
      let j := spDesc (desc.map (fun x => x.toNat)) 0
      entriesOk (s.spHdrAt j.slot) ((List.range (es.length / 2)).map (fun k =>
        let x := (es.getD (2 * k + 1) 0).toNat
        ((es.getD (2 * k) 0).toNat, x % 16384, bits x 16 3))) = true →
      ∃ t, exec (.staySparRecord (.submission desc es)) s = .next t ∧ (t.spInst j.inst).bound = some j.slot ∧
        t.spar.queue = s.spar.queue ∧ t.spar.lanes = s.spar.lanes ∧ t.mem = s.mem) ∧
    (∀ (inst : Fin 128) (w : Word) (ws : List Word),
      ∃ t, exec (.staySparRecord (.result inst (w :: ws))) s = .next t ∧ t.rd32 (s.spRecAt inst) = w.toNat ∧
        (spStores (w.toNat % 16) = true → (t.spInst inst).sol.isSome = true ∧
          t.fld (SP_INST_STAT_HASSOLVE inst) = b2n (w.toNat.testBit 4))) ∧
    (∀ (vs : List (Nat × Byte)) (off : Nat) (b : Byte),
      ∃ t, exec (.stayCanvasRecord ⟨vs ++ [(off, b)], [], []⟩) s = .next t ∧ t.vox off = b.toNat) ∧
    (∀ (vs : List (Nat × Byte)) (gs : List TicketRec) (g : TicketRec) (fs : List Nat), g.ticket < 1024 →
      ∃ t, exec (.stayCanvasRecord ⟨vs, gs ++ [g], fs⟩) s = .next t ∧ t.fld (CV_TKT_STAT_LIVE g.ticket) = 1 ∧
        t.fld (CV_TKT_STAT_ARM g.ticket) = g.arm.val ∧ t.canvas.last = some g.ticket) ∧
    (∀ (vs : List (Nat × Byte)) (k : Nat) (fs : List Nat), k < 1024 → k ∈ fs →
      ∃ t, exec (.stayCanvasRecord ⟨vs, [], fs⟩) s = .next t ∧ t.fld (CV_TKT_STAT_LIVE k) = 0) ∧
    (∀ (outs : List (Fin 8 × BitVec 16 × Bool)) (ap : Option Word),
      ∃ t, exec (.stayShroudOutputs outs ap) s = .next t ∧ t.pair.shGot = some outs ∧
        (∀ v, ap = some v → t.shroud.applyAt = some v.toNat) ∧ (ap = none → t.shroud = s.shroud) ∧ t.regs = s.regs) ∧
    (∀ (k : Fin 8) (m : AxisMsg), (s.fld PR_OUTMASK_STEP).testBit k.val = true →
      ∃ t, exec (.stayAxisState k m) s = .next t ∧ tabGet (fun _ => none) t.pair.axisGot k.val = some m ∧
        t.fld (ST_S_STAT_STATE k.val) = m.state.val ∧ t.fld (ST_S_POS_V k.val) = m.pos.toNat ∧ t.reg (ST_S_VEL k.val) = m.vel ∧
        t.reg (ST_S_TGT k.val) = m.tgt ∧
        t.fld (ST_S_STAT_HOMED k.val) = b2n m.homed ∧ (t.axis k.val).pend = m.axis.pend)) ∧
  (∀ s : State, s.underWay = true → s.role = 1 →
    ∃ t, exec .axisStateSend s = .next t ∧ t.regs = s.regs ∧ t.axes = s.axes ∧
      (∀ k, k < 8 → (s.fld PR_OUTMASK_STEP).testBit k = true →
        tabGet (fun _ => none) t.pair.axisSent k = some (s.axisMsg k))))

/-! ### The halyard and the cores (chapter The Halyard and the Cores) -/

/-- POST_NOW, POST_DELAY, POST_WAIT, SIGNAL, DELAY_EXPIRY and WAIT_TIMEOUT (R247, R253 to R258): a post is answered NOT_RUNNING, BAD, FULL, DLYFULL or ACCEPTED in that order; an accepted one enters
the ready lists, the delay list between the earlier and the later targets, or its wait object's queue, and one whose time is reached already is ready at once with the answer EXPIRED. An item that becomes ready
goes behind all but those of the same clock that R247 places after it. A signal raises the count by its number, 0 acting as 1, up to 65 535, or releases the head of the queue. At a tick boundary
the due delays become ready with EXPIRED and the due waits with TIMEOUT. -/
def Obligations.PostsAreQueuedDelayedOrWait : Prop :=
  (∀ (x : Item) (l : List Item), (∀ y ∈ l, y.tick = x.tick ∧ x.rank < y.rank) → insertReady x l = x :: l) ∧
  (∀ (x y : Item) (l m : List Item), ¬ (y.tick = x.tick ∧ x.rank < y.rank) → (∀ z ∈ m, z.tick = x.tick ∧ x.rank < z.rank) →
    insertReady x (l ++ y :: m) = l ++ y :: x :: m) ∧
  (∀ (s : State) (i : Initiator) (v : Word), s.underWay = true →
    (s.fld HAL_CTL_RUN = 0 → exec (.postNow i v) s = .next (s.halOutcome i 5) ∧ exec (.postDelay i v) s = .next (s.halOutcome i 5) ∧
      exec (.postWait i v) s = .next (s.halOutcome i 5)) ∧
    (s.fld HAL_CTL_RUN = 1 → (v.toNat % 256 = 0 ∨ bits v.toNat 12 2 = 3 ∨ s.fld (HAL_FLOW_CFG_USED (v.toNat % 256)) = 0) →
      exec (.postNow i v) s = .next (s.halOutcome i 4) ∧ exec (.postDelay i v) s = .next (s.halOutcome i 4) ∧
      exec (.postWait i v) s = .next (s.halOutcome i 4)) ∧
    (s.fld HAL_CTL_RUN = 1 → v.toNat % 256 ≠ 0 → bits v.toNat 12 2 ≠ 3 → s.fld (HAL_FLOW_CFG_USED (v.toNat % 256)) = 1 →
      (s.freeSlots ≤ s.fld HAL_CTL_HWRES →
        ∃ t, exec (.postNow i v) s = .next t ∧ (t.inis i).halOut = 2 ∧ t.hal = s.hal ∧ t.fld HAL_CNT_FULL = min 255 (s.fld HAL_CNT_FULL + 1)) ∧
      (s.fld HAL_CTL_HWRES < s.freeSlots → s.atQuota (v.toNat % 256) = false →
        (∃ t, exec (.postNow i v) s = .next t ∧ (t.inis i).halOut = 1 ∧ t.regs = s.regs ∧
          t.hal = { s.hal with ready := insertReady { s.postItem i v.toNat 0 with time := s.now, tick := s.time.ct } s.hal.ready }) ∧
        (reached (s.inis i).ptime.toNat s.now = true →
          (∃ t, exec (.postDelay i v) s = .next t ∧ (t.inis i).halOut = 9 ∧ t.regs = s.regs ∧
            t.hal = { s.hal with ready := insertReady { s.postItem i v.toNat 1 with time := s.now, tick := s.time.ct } s.hal.ready }) ∧
          ((s.wobj (bits v.toNat 16 8)).count = 0 →
            ∃ t, exec (.postWait i v) s = .next t ∧ (t.inis i).halOut = 9 ∧ t.fld HAL_CNT_TIMEOUTS = min 255 (s.fld HAL_CNT_TIMEOUTS + 1) ∧
              t.hal = { s.hal with ready := insertReady { s.postItem i v.toNat 3 with time := s.now, tick := s.time.ct } s.hal.ready })) ∧
        (0 < (s.wobj (bits v.toNat 16 8)).count →
          ∃ t, exec (.postWait i v) s = .next t ∧ (t.inis i).halOut = 1 ∧ t.regs = s.regs ∧
            (t.wobj (bits v.toNat 16 8)).count = (s.wobj (bits v.toNat 16 8)).count - 1 ∧
            t.hal.ready = insertReady { s.postItem i v.toNat 2 with time := s.now, tick := s.time.ct } s.hal.ready) ∧
        (reached (s.inis i).ptime.toNat s.now = false →
          (1024 ≤ s.delaysUsed →
            ∃ t, exec (.postDelay i v) s = .next t ∧ (t.inis i).halOut = 3 ∧ t.hal = s.hal ∧
              t.fld HAL_CNT_DLYFULL = min 255 (s.fld HAL_CNT_DLYFULL + 1)) ∧
          (s.delaysUsed < 1024 →
            (∃ t, exec (.postDelay i v) s = .next t ∧ (t.inis i).halOut = 1 ∧ t.regs = s.regs ∧ t.hal.ready = s.hal.ready ∧
              ∃ l m, s.hal.delays = l ++ m ∧
                t.hal.delays = l ++ ⟨(s.inis i).ptime.toNat, s.fullTime (s.inis i).ptime.toNat, s.hal.seq, s.postItem i v.toNat 1⟩ :: m ∧
                (∀ x ∈ l, x.abs < s.fullTime (s.inis i).ptime.toNat ∨ (x.abs = s.fullTime (s.inis i).ptime.toNat ∧ x.seq ≤ s.hal.seq)) ∧
                (∀ x ∈ m.head?, s.fullTime (s.inis i).ptime.toNat ≤ x.abs)) ∧
            ((s.wobj (bits v.toNat 16 8)).count = 0 →
              ∃ t, exec (.postWait i v) s = .next t ∧ (t.inis i).halOut = 1 ∧ t.regs = s.regs ∧ t.hal.ready = s.hal.ready ∧
                (t.wobj (bits v.toNat 16 8)).queue =
                  insertWaiter ⟨(s.inis i).ptime.toNat, s.fullTime (s.inis i).ptime.toNat, s.hal.seq, s.postItem i v.toNat 3⟩ (s.wobj (bits v.toNat 16 8)).queue)))))) ∧
  (∀ (s : State) (i : Initiator) (v : Word), s.underWay = true →
    let w := v.toNat % 256
    let n := if bits v.toNat 8 16 = 0 then 1 else bits v.toNat 8 16
    ((s.wobj w).queue = [] →
      ∃ t, exec (.signal i v) s = .next t ∧ (t.wobj w).count = min ((s.wobj w).count + n) 65535 ∧ t.hal.ready = s.hal.ready ∧
        (65535 < (s.wobj w).count + n → t.fld HAL_STAT_WSAT = 1)) ∧
    (∀ e es, (s.wobj w).queue = e :: es → (s.wobj w).count = 0 → n = 1 →
      ∃ t, exec (.signal i v) s = .next t ∧ t.wobj w = ⟨0, es⟩ ∧
        t.hal.ready = insertReady { e.item with result := 2, time := s.now, rank := rowRank 1 0, tick := s.time.ct } s.hal.ready)) ∧
  (∀ s : State, s.underWay = true →
    (∃ t, exec .delayExpiry s = .next t ∧ t.hal.delays = s.hal.delays.filter (fun e => !reached e.target s.tickBoundary) ∧
      (∀ e ∈ s.hal.delays, reached e.target s.tickBoundary = true →
        ∃ x ∈ t.hal.ready, x = { e.item with result := 1, time := s.tickBoundary, rank := x.rank, tick := s.time.ct }) ∧
      (∀ x ∈ s.hal.ready, x ∈ t.hal.ready) ∧ t.regs = s.regs ∧ t.hal.waits = s.hal.waits) ∧
    (∃ t, exec .waitTimeout s = .next t ∧ t.hal.delays = s.hal.delays ∧
      (∀ e ∈ s.waiters, reached e.target s.tickBoundary = true →
        ∃ x ∈ t.hal.ready, x = { e.item with result := 3, time := s.tickBoundary, rank := x.rank, tick := s.time.ct }) ∧
      (∀ x ∈ s.hal.ready, x ∈ t.hal.ready)))

/-- DELIVERY, DONE, ITEM_ACKNOWLEDGE, SERVICE_OVERRUN, EVENT_POST, EVENT_SIGNAL and HELD_ITEM_SLOT (R248, R249, R252, R257, R259, R262): an enabled core that alone is idle takes the item that the
selection names and its registers show it; DONE, where no REEF waits for it, frees the core and records its service time, or sets BADDONE; a read of ITEM0 acknowledges the item; an item
served for the limit sets OVERRUN and HAL_OVERRUN once. A hardware event of a channel that posts becomes ready where a slot is free, is held otherwise and is merged into its held item; one of a channel
that signals adds 1 to its wait object. One held item becomes ready when its slot is free.

CACHE_LINE_WRITEBACK, CACHE_LINE_DISCARD, CACHE_FLUSH and LOCKSTEP_ERROR (R264, R267): a dirty line is stored at its place and stays clean; one in the structure or instance area is not stored and sets SP_AREA_WRITE; a discarded
line is gone and memory keeps; a flush empties the cache, storing what is dirty; a lockstep error halts its safety core alone, voids channel 2's result and sets SC_LOCKSTEP. -/
def Obligations.CoresTakeServeWriteBackAndHalt : Prop :=
  ((∀ (s : State) (c : Fin 4) (x : Item) (rest : List Item), s.underWay = true → s.fld HAL_CTL_RUN = 1 → s.hal.stopped = false →
    s.serv c = none → s.fld (HAL_C_CTL_EN c) = 1 → (∀ d : Fin 4, d ≠ c → (s.serv d).isSome = true) → s.selectItem c 8 0 = some (x, rest) →
    ∃ t, exec .delivery s = .next t ∧ t.serv c = some ⟨x, false, false, s.nowNs⟩ ∧ t.hal.ready = rest ∧
      t.reg (HAL_C_ITEM0 c) = BitVec.ofNat 32 x.word0 ∧ t.reg (HAL_C_ARG0 c) = BitVec.ofNat 32 x.arg0 ∧
      t.reg (HAL_C_ARG1 c) = BitVec.ofNat 32 x.arg1 ∧ t.reg (HAL_C_TIME c) = BitVec.ofNat 32 x.time ∧
      (x.flow < 256 → t.reg (HAL_C_ENTRY c) = s.reg (HAL_FLOW_ENTRY x.flow)) ∧ (∀ d : Fin 4, d ≠ c → t.serv d = s.serv d)) ∧
  (∀ s : State, (∀ d : Fin 4, (s.serv d).isSome = true) → exec .delivery s = .next s) ∧
  (∀ (s : State) (i : Initiator) (c : Fin 4), s.underWay = true → s.power.reefWait = false →
    (s.serv c = none → exec (.done i c) s = .next (s.setFld (HAL_C_STAT_BADDONE c) 1)) ∧
    (∀ x, s.serv c = some x →
      ∃ t, exec (.done i c) s = .next t ∧ t.serv c = none ∧ t.fld (HAL_C_STAT_SVC c) = min 65535 ((s.nowNs - x.since) / 1000) ∧
        (s.hal.held = [] → t.hal.ready = s.hal.ready))) ∧
  (∀ (s : State) (i : Initiator) (c : Fin 4), s.underWay = true →
    (s.serv c = none → exec (.itemAcknowledge i c) s = .next (s.answer 0)) ∧
    (∀ x, s.serv c = some x →
      ∃ t, exec (.itemAcknowledge i c) s = .next t ∧ t.data = s.reg (HAL_C_ITEM0 c) ∧ t.serv c = some { x with acked := true } ∧
        t.meip c = false ∧ t.regs = s.regs)) ∧
  (∀ (s : State) (c : Fin 4),
    (s.serv c = none → exec (.serviceOverrun c) s = .next s) ∧
    (∀ x, s.serv c = some x → s.fld (HAL_C_CTL_SVCLIM c) ≠ 0 → x.overrun = false →
      (s.fld (HAL_C_CTL_SVCLIM c) * 1000 ≤ s.nowNs - x.since →
        ∃ t, exec (.serviceOverrun c) s = .next t ∧ t.serv c = some { x with overrun := true } ∧ t.fld (HAL_C_STAT_OVERRUN c) = 1 ∧
          (t.reg (GLB_FAULT_STICKY 2)).getLsbD 3 = true) ∧
      (s.nowNs - x.since < s.fld (HAL_C_CTL_SVCLIM c) * 1000 → exec (.serviceOverrun c) s = .next s))) ∧
  (∀ (s : State) (c : Fin 64) (ts : Word), s.underWay = true → s.fld (HAL_EV_CFG_EN c) = 1 →
    (s.fld (HAL_EV_CFG_MODE c) = 0 → s.fld (HAL_EV_CFG_FLOW c) ≠ 0 →
      let x : Item := ⟨s.fld (HAL_EV_CFG_FLOW c), s.fld (HAL_EV_CFG_PRIO c), 1, 0, 1, false, c.val, ts.toNat, 0, s.srcRank (.ev c), 0⟩
      ((∀ h ∈ s.hal.held, h.src ≠ .ev c) → s.hwSlot (s.fld (HAL_EV_CFG_FLOW c)) = true →
        exec (.eventPost c ts) s = .next { s with hal := { s.hal with ready := insertReady { x with time := s.now, tick := s.time.ct } s.hal.ready } }) ∧
      ((∀ h ∈ s.hal.held, h.src ≠ .ev c) → s.hwSlot (s.fld (HAL_EV_CFG_FLOW c)) = false →
        ∃ t, exec (.eventPost c ts) s = .next t ∧ ⟨.ev c, x⟩ ∈ t.hal.held ∧ t.hal.ready = s.hal.ready ∧ t.regs = s.regs) ∧
      (∀ h, s.hal.held = [h] → h.src = .ev c →
        ∃ t, exec (.eventPost c ts) s = .next t ∧ t.hal.held = [⟨.ev c, { h.item with count := min 255 (h.item.count + 1) }⟩] ∧
          t.fld HAL_CNT_MERGES = min 255 (s.fld HAL_CNT_MERGES + 1))) ∧
    (s.fld (HAL_EV_CFG_MODE c) = 1 → exec (.eventSignal c) s = .next (s.signal (s.fld (HAL_EV_CFG_FLOW c)) 1))) ∧
  (∀ s : State, s.underWay = true →
    ((∀ h ∈ s.hal.held, s.hwSlot h.item.flow = false) → exec .heldItemSlot s = .next s) ∧
    (∀ h, s.hal.held = [h] → s.hwSlot h.item.flow = true →
      ∃ t, exec .heldItemSlot s = .next t ∧ t.hal.held = [] ∧ t.hal.ready = insertReady { h.item with time := s.now, tick := s.time.ct } s.hal.ready))) ∧
  ((∀ (s : State) (c : Fin 4) (a : Word),
    (s.findLine c a.toNat = none → exec (.cacheLineWriteback c a) s = .next s) ∧
    (∀ l, s.findLine c a.toNat = some l → s.sparArea l.addr = false →
      ∃ t, exec (.cacheLineWriteback c a) s = .next t ∧ t.findLine c a.toNat = some { l with dirty := false } ∧ t.regs = s.regs ∧
        (l.dirty = true → t.rdBytes l.addr l.data.length = l.data) ∧ (l.dirty = false → t.mem = s.mem) ∧
        (∀ b, (b < l.addr ∨ l.addr + l.data.length ≤ b) → t.rdB b = s.rdB b)) ∧
    (∀ l, s.findLine c a.toNat = some l → s.sparArea l.addr = true → l.dirty = true →
      ∃ t, exec (.cacheLineWriteback c a) s = .next t ∧ t.findLine c a.toNat = some { l with dirty := false } ∧
        { t with cores := s.cores } = s.sticky 37 c l.addr) ∧
    (∃ t, exec (.cacheLineDiscard c a) s = .next t ∧ t.findLine c a.toNat = none ∧ t.mem = s.mem ∧ t.regs = s.regs ∧
      (∀ b, lineOf b ≠ lineOf a.toNat → t.findLine c b = s.findLine c b)) ∧
    (∃ t, exec (.cacheFlush c) s = .next t ∧ t.cache c = [] ∧
      ((∀ l ∈ s.cache c, l.dirty = false) → t.mem = s.mem ∧ t.regs = s.regs) ∧
      (∀ l, s.cache c = [l] → l.dirty = true → s.sparArea l.addr = false → t.rdBytes l.addr l.data.length = l.data))) ∧
  (∀ (s : State) (c : Fin 2) (pc : Word),
    ∃ t, exec (.lockstepError c pc) s = .next t ∧ t.scHalted c = true ∧ (∀ d : Fin 2, d ≠ c → t.scHalted d = s.scHalted d) ∧
      (∀ x ∈ t.shroud.snap, x.r2 = none) ∧ (t.reg (GLB_FAULT_STICKY 2)).getLsbD 4 = true))

/-! ### Local PWM and sampling (chapter Local PWM and Current Sampling) -/

/-- GROUP_ENABLE, PERIOD_BOUNDARY, CARRIER_PEAK, COMMIT, DLL_LOCK and DLL_LOST (R269, R273, R274, R282, R296): EN written as 1 while the delay lines are not locked sets NOLOCK and leaves EN; else it
enables a group, whose first boundary is at once with LATESTART where START has passed; EN written as 0 stops it. At a boundary that is due the staged set takes effect, COMMITPEND clears and LAST names it; at a
peak that is due of a group that no axis drives a committed set is staged. A COMMIT of a group that an engine or an axis owns is refused with OWNED. DLL_LOCK puts every line in lock; a line out of lock
clears DLLOCK and sets PW_DLL_LOST.

TRIP, STRIP, PW_CLEAR and TRIP_RELEASE (R275 to R277): an asserted trip input shows in TRIPIN and latches TRIPPED of every group that it reaches and of no other, one too short perhaps of none; a
software trip latches CAUSE bit 3 with PW_TRIP; a group is cleared only while no trip input that reaches it is asserted, else TRIP_STILL is set, and its pairs stay in their trip state; a released
input no longer shows. -/
def Obligations.GroupsRunAndTripsLatch : Prop :=
  ((∀ (s : State) (i : Initiator) (g : Fin 8) (v : Word), s.underWay = true →
    (v.getLsbD 0 = true → s.fld PW_STAT_DLLOCK = 0 →
      ∃ t, exec (.groupEnable i g v) s = .next t ∧ t.fld (PW_G_STAT_NOLOCK g) = 1 ∧ t.fld (PW_G_CTL_EN g) = s.fld (PW_G_CTL_EN g)) ∧
    (v.getLsbD 0 = true → s.fld (PW_G_CTL_EN g) = 0 →
      (s.fld PW_STAT_DLLOCK = 1 → reached (s.fld (PW_G_START_V g)) s.now = false →
        ∃ t, exec (.groupEnable i g v) s = .next t ∧ t.fld (PW_G_CTL_EN g) = 1 ∧ t.fld (PW_G_STAT_RUN g) = s.fld (PW_G_STAT_RUN g)) ∧
      (s.fld PW_STAT_DLLOCK = 1 → reached (s.fld (PW_G_START_V g)) s.now = true →
        ∃ t, exec (.groupEnable i g v) s = .next t ∧ t.fld (PW_G_CTL_EN g) = 1 ∧ t.fld (PW_G_STAT_RUN g) = 1 ∧
          t.fld (PW_G_STAT_LATESTART g) = 1 ∧ (t.pwg g).bnd = s.time.ct)) ∧
    (v.getLsbD 0 = false →
      ∃ t, exec (.groupEnable i g v) s = .next t ∧ t.fld (PW_G_CTL_EN g) = 0 ∧ t.fld (PW_G_STAT_RUN g) = 0 ∧ (t.pwg g).pairEn = 0)) ∧
  (∀ (s : State) (g : Fin 8), s.underWay = true →
    (s.pwDue g = none → exec (.periodBoundary g) s = .next s) ∧
    (∀ b, s.pwDue g = some b →
      ∃ t, exec (.periodBoundary g) s = .next t ∧ t.fld (PW_G_STAT_RUN g) = 1 ∧ t.fld (PW_G_STAT_COMMITPEND g) = 0 ∧ (t.pwg g).stage = none ∧
        (t.pwg g).bnd = b ∧ (t.pwg g).pairEn = s.fld (PW_G_CTL_PAIREN g) ∧ t.fld (PW_G_LAST_V g) = b / 2 ^ 32 % 2 ^ 32 ∧ (t.pwg g).peaked = false ∧
        ((s.pwg g).stage = none → t.eff = s.eff) ∧
        (∀ per dt c0 c1 c2 c3, (s.pwg g).stage = some [per, dt, c0, c1, c2, c3] →
          t.effReg (PW_G_PER g) = BitVec.ofNat 32 per ∧ t.effReg (PW_G_DT g) = BitVec.ofNat 32 dt ∧ t.effReg (PW_G_CMP g 0) = BitVec.ofNat 32 c0 ∧
          t.effReg (PW_G_CMP g 1) = BitVec.ofNat 32 c1 ∧ t.effReg (PW_G_CMP g 2) = BitVec.ofNat 32 c2 ∧ t.effReg (PW_G_CMP g 3) = BitVec.ofNat 32 c3)) ∧
    (s.pwPeakDue g = false → exec (.carrierPeak g) s = .next s) ∧
    (s.pwPeakDue g = true → s.pwMicro g = false →
      ∃ t, exec (.carrierPeak g) s = .next t ∧ (t.pwg g).peaked = true ∧ t.fld (PW_G_CMD_COMMIT g) = 0 ∧ t.eff = s.eff ∧
        (s.fld (PW_G_CMD_COMMIT g) = 1 → (t.pwg g).stage = some (s.pwShadows g) ∧ t.fld (PW_G_STAT_COMMITPEND g) = 1) ∧
        (s.fld (PW_G_CMD_COMMIT g) = 0 → (t.pwg g).stage = (s.pwg g).stage))) ∧
  (∀ (s : State) (i : Initiator) (g : Fin 8), s.underWay = true →
    ((s.pwOwned g = true ∨ s.pwMicro g = true) → exec (.commit i g) s = .next (s.setFld PW_STAT_OWNED 1)) ∧
    (s.pwOwned g = false → s.pwMicro g = false → exec (.commit i g) s = .next (s.setFld (PW_G_CMD_COMMIT g) 1))) ∧
  (∀ (s : State) (d : Fin 128), s.underWay = true →
    (∃ t, exec .dllLock s = .next t ∧ t.fld PW_STAT_DLLOCK = 1 ∧ t.pwm.lost = [] ∧ (∀ a, a ≠ PW_STAT → t.reg a = s.reg a)) ∧
    (∃ t, exec (.dllLost d) s = .next t ∧ t.fld PW_STAT_DLLOCK = 0 ∧ tabGet (fun _ => false) t.pwm.lost d = true ∧
      (t.reg (GLB_FAULT_STICKY 5)).getLsbD 1 = true))) ∧
  ((∀ (s : State) (x : Fin 10), s.underWay = true →
    (∃ t, exec (.trip x false) s = .next t ∧ (t.fld PW_STAT_TRIPIN).testBit x.val = true ∧
      (∀ g : Fin 8, s.tripReaches x g = true → t.fld (PW_G_STAT_TRIPPED g) = 1) ∧
      (∀ g : Fin 8, s.tripReaches x g = false → t.fld (PW_G_STAT_TRIPPED g) = s.fld (PW_G_STAT_TRIPPED g))) ∧
    (∃ t, exec (.trip x true) s = .next t ∧ t.fld PW_STAT_TRIPIN = s.fld PW_STAT_TRIPIN ∧
      ((∀ g : Fin 8, t.fld (PW_G_STAT_TRIPPED g) = s.fld (PW_G_STAT_TRIPPED g)) ∨
       ((∀ g : Fin 8, s.tripReaches x g = true → t.fld (PW_G_STAT_TRIPPED g) = 1) ∧
         (∀ g : Fin 8, s.tripReaches x g = false → t.fld (PW_G_STAT_TRIPPED g) = s.fld (PW_G_STAT_TRIPPED g))))) ∧
    (∃ t, exec (.tripRelease x) s = .next t ∧ (t.fld PW_STAT_TRIPIN).testBit x.val = false ∧ (∀ a, a ≠ PW_STAT → t.reg a = s.reg a) ∧
      (∀ y : Fin 10, y ≠ x → (t.fld PW_STAT_TRIPIN).testBit y.val = (s.fld PW_STAT_TRIPIN).testBit y.val))) ∧
  (∀ (s : State) (i : Initiator) (g : Fin 8), s.underWay = true →
    (s.fld (PW_G_STAT_TRIPPED g) = 0 →
      ∃ t, exec (.strip i g) s = .next t ∧ t.fld (PW_G_STAT_TRIPPED g) = 1 ∧ t.fld (PW_G_STAT_CAUSE g) = 8 ∧
        t.fld (PW_G_CNT_TRIPS g) = min 255 (s.fld (PW_G_CNT_TRIPS g) + 1) ∧ (t.reg (GLB_FAULT_STICKY 5)).getLsbD 0 = true) ∧
    (s.fld (PW_G_STAT_TRIPPED g) = 1 →
      exec (.strip i g) s = .next (s.setFld (PW_G_STAT_CAUSE g) (s.fld (PW_G_STAT_CAUSE g) ||| 8))) ∧
    ((∃ x : Fin 10, (s.fld PW_STAT_TRIPIN).testBit x.val = true ∧ s.tripReaches x g = true) →
      exec (.pwClear i g) s = .next (s.setFld (PW_G_STAT_TRIP_STILL g) 1)) ∧
    ((∀ x : Fin 10, (s.fld PW_STAT_TRIPIN).testBit x.val = false ∨ s.tripReaches x g = false) →
      ∃ t, exec (.pwClear i g) s = .next t ∧ t.fld (PW_G_STAT_TRIPPED g) = 0 ∧ t.fld (PW_G_STAT_TRIP_STILL g) = 0 ∧
        (s.fld (PW_G_STAT_TRIPPED g) = 1 → t.pwInTrip g = true))))

/-- ADC_HOLD, CONVERSION_END and RES_READ (R278 to R280): the net's edge holds every channel that it triggers and whose count has come to DIV; a trigger while a hold waits for its conversion counts in OVR; no
other channel changes. The end of the conversion that a channel's converter has run for 200 ns writes the raw and the calibrated result and sets FRESH, which a read of the result clears. -/
def Obligations.ChannelsHoldAndConvert : Prop :=
  (∀ (s : State) (net : Fin 512), s.underWay = true →
    ∃ t, exec (.adcHold net) s = .next t ∧
      (∀ c : Fin 24, s.fld (AD_CH_CFG_SRC c) = 3 → s.fld (AD_CH_CFG_NET c) = net.val → max 1 (s.fld (AD_CH_CFG_DIV c)) ≤ (s.adc c).cnt + 1 →
        ((s.adc c).held = none → (t.adc c).held = some s.nowNs ∧ t.fld (AD_CH_TS_V c) = s.now ∧ (t.adc c).cnt = 0) ∧
        (∀ h, (s.adc c).held = some h → (t.adc c).held = some h ∧ t.fld (AD_CH_STAT_OVR c) = min 255 (s.fld (AD_CH_STAT_OVR c) + 1))) ∧
      (∀ c : Fin 24, (s.fld (AD_CH_CFG_SRC c) ≠ 3 ∨ s.fld (AD_CH_CFG_NET c) ≠ net.val) → t.adc c = s.adc c)) ∧
  (∀ (s : State) (c : Fin 24) (raw : BitVec 16), s.underWay = true →
    (((s.adc c).held = none ∨ s.convDone c = false) → exec (.conversionEnd c raw) s = .next s) ∧
    (∀ h, (s.adc c).held = some h → s.convDone c = true →
      ∃ t, exec (.conversionEnd c raw) s = .next t ∧ t.fld (AD_CH_RES_RAW c) = raw.toNat ∧ t.fld (AD_CH_STAT_FRESH c) = 1 ∧
        t.fld (AD_CH_RES_RES c) = ofS 16 (clampI (-32768) 32767
          (asr ((raw.toInt - toS 16 (s.cal (0x1202 + 4 * c.val) 2)) * (s.cal (0x1200 + 4 * c.val) 2 : Nat)) 14)) ∧
        (t.adc c).held = none ∧ (t.adc c).tsConv = h)) ∧
  (∀ (s : State) (i : Initiator) (c : Fin 24), s.underWay = true →
    ∃ t, exec (.resRead i c) s = .next t ∧ t.data = s.reg (AD_CH_RES c) ∧ t.fld (AD_CH_STAT_FRESH c) = 0 ∧
      (∀ a, a ≠ AD_CH_STAT c → t.reg a = s.reg a) ∧ t.mem = s.mem)

/-! ### Feedback and step axes (chapter Feedback and Step Axes) -/

/-- FEEDBACK_EDGE, INDEX_EDGE, FB_POS_WRITE, LINEFLT, LINEFLT_END and EIS_TZERO (R284 to R287, R291): on a quadrature port whose lines have settled with no acceptance before, one step forward or back in the sequence counts by 1, with INV by −1, and two steps are illegal: ILL, ILLCNT and
FB_ILLEGAL, the count keeps. A qualified index edge captures the count, after the acceptances of the lines' filters due by then, and its time. A written position is the count. A faulty pair in use sets LINEFLT, the first one FB_LINE, and the last one's end clears it. EIS is 0 after TZERO
without a change. Not under way the lines' levels are received and nothing is decoded.

SSI_TRIGGER, SSI_FRAME_END and COMPARE_WRITE (R289, R290, R293, R294): a trigger starts a frame, unless one runs, its last ended within 25 µs or the data line is low, when SSIERR and SSICNT report it. A frame ends once its clock has given all its periods: one whose error bit is set is not taken, the value of the first other one, plain or Gray, is the count,
and a later one moves the count by the signed difference. A compare position equal to the present position fires an enabled unit at once: CMPFIRED, on a port a pulse of 4 ticks on its net, and a
port's unit without a period is disarmed. Another position only stands in CMP. -/
def Obligations.FeedbackPortsCountFrameAndCompare : Prop :=
  ((∀ (s : State) (p : Fin 8) (a b : Bool) (ts : Stamp), s.underWay = true → s.fld (FB_P_CFG_MODE p) = 1 →
    (s.port p).a.raw = (s.port p).a.flt → (s.port p).b.raw = (s.port p).b.flt → (s.port p).z.raw = (s.port p).z.flt →
    (s.port p).a.last = none → (s.port p).b.last = none →
    let step := (quadIdx a b + 4 - quadIdx (s.port p).a.flt (s.port p).b.flt) % 4
    ∃ t, exec (.feedbackEdge p a b (s.port p).z.flt ts) s = .next t ∧
      (t.port p).a.flt = a ∧ (t.port p).b.flt = b ∧
      (step = 0 → t.fld (FB_P_POS_V p) = s.fld (FB_P_POS_V p)) ∧
      (step = 1 → t.fld (FB_P_POS_V p) = ofS 32 (toS 32 (s.fld (FB_P_POS_V p)) + s.fbDir p 1)) ∧
      (step = 3 → t.fld (FB_P_POS_V p) = ofS 32 (toS 32 (s.fld (FB_P_POS_V p)) + s.fbDir p (-1))) ∧
      (step = 2 → t.fld (FB_P_POS_V p) = s.fld (FB_P_POS_V p) ∧ t.fld (FB_P_STAT_ILL p) = 1 ∧
        t.fld (FB_P_ERRCNT_ILLCNT p) = min 255 (s.fld (FB_P_ERRCNT_ILLCNT p) + 1) ∧ (t.reg (GLB_FAULT_STICKY 5)).getLsbD 2 = true)) ∧
  (∀ (s : State) (p : Fin 8) (a b z : Bool) (ts : Stamp), s.underWay = false → s.power.furled = false →
    ∃ t, exec (.feedbackEdge p a b z ts) s = .next t ∧ (t.port p).a.flt = a ∧ (t.port p).b.flt = b ∧ (t.port p).z.flt = z ∧ t.regs = s.regs) ∧
  (∀ (s : State) (p : Fin 8) (a b : Bool) (ts : Stamp), s.underWay = true → s.fld (FB_P_CFG_MODE p) = 1 →
    let u := (s.fbSettle p (s.full16 (s.stampOn noLine ts) + 1) 3).1
    ((s.fld (FB_P_CFG_ZQUAL p) = 0 ∨ (a = true ∧ b = true)) →
      ∃ t, exec (.indexEdge p a b ts) s = .next t ∧ t.fld (FB_P_IDX_V p) = u.fld (FB_P_POS_V p) ∧
        t.fld (FB_P_IDXTS_V p) = (s.stampOn noLine ts).ns.toNat ∧ t.fld (FB_P_STAT_IDXVALID p) = 1 ∧ t.fld (FB_P_POS_V p) = u.fld (FB_P_POS_V p)) ∧
    (s.fld (FB_P_CFG_ZQUAL p) = 1 → (a = false ∨ b = false) → exec (.indexEdge p a b ts) s = .next s)) ∧
  (∀ (s : State) (i : Initiator) (p : Fin 8) (v : Word), s.underWay = true →
    ∃ t, exec (.fbPosWrite i p v) s = .next t ∧ t.fld (FB_P_POS_V p) = v.toNat) ∧
  (∀ (s : State) (p : Fin 8) (q : Fin 3), s.underWay = true → s.fbUses p q = true →
    (∃ t, exec (.lineflt p q) s = .next t ∧ t.fld (FB_P_STAT_LINEFLT p) = 1 ∧
      (s.fld (FB_P_STAT_LINEFLT p) = 0 → (t.reg (GLB_FAULT_STICKY 5)).getLsbD 3 = true)) ∧
    ((s.port p).faults = 2 ^ q.val → ∃ t, exec (.linefltEnd p q) s = .next t ∧ t.fld (FB_P_STAT_LINEFLT p) = 0 ∧ (t.port p).faults = 0)) ∧
  (∀ (s : State) (p : Fin 8), s.underWay = true →
    (∀ c, (s.port p).chg = some c → ((s.fld (FB_P_SPD_TZERO p) * 65536000 : Nat) : Int) ≤ ((s.time.ct / 2 ^ 16 : Nat) : Int) - c →
      exec (.eisTzero p) s = .next (s.setFld (FB_P_EIS_V p) 0)) ∧
    ((s.port p).chg = none → exec (.eisTzero p) s = .next s))) ∧
  ((∀ (s : State) (p : Fin 8) (ts : Stamp), s.underWay = true → s.fld (FB_P_CFG_MODE p) = 3 →
    ((s.port p).ssiRun = false → (∀ e, (s.port p).ssiEnd = some e → e + 25000 ≤ s.nowNs) →
      ∃ t, exec (.ssiTrigger p true ts) s = .next t ∧ (t.port p).ssiRun = true ∧
        t.fld (FB_P_IDXTS_V p) = (s.stampOn (s.netLine (s.fld (FB_P_SSI_NET p))) ts).ns.toNat ∧
        (∀ a, a ≠ FB_P_IDXTS p → t.reg a = s.reg a)) ∧
    (∀ high, ((s.port p).ssiRun = true ∨ high = false ∨ (∃ e, (s.port p).ssiEnd = some e ∧ s.nowNs < e + 25000)) →
      ∃ t, exec (.ssiTrigger p high ts) s = .next t ∧ (t.port p).ssiRun = (s.port p).ssiRun ∧ t.fld (FB_P_STAT_SSIERR p) = 1 ∧
        t.fld (FB_P_ERRCNT_SSICNT p) = min 255 (s.fld (FB_P_ERRCNT_SSICNT p) + 1))) ∧
  (∀ (s : State) (p : Fin 8) (v : Word) (err : Bool), s.underWay = true → s.fld (FB_P_CFG_MODE p) = 3 →
    (((s.port p).ssiRun = false ∨ s.ssiOver p = false) → exec (.ssiFrameEnd p v err) s = .next s) ∧
    ((s.port p).ssiRun = true → s.ssiOver p = true → s.fld (FB_P_SSI_ERRBIT p) = 1 → err = true →
      ∃ t, exec (.ssiFrameEnd p v err) s = .next t ∧ (t.port p).ssiRun = false ∧ t.fld (FB_P_STAT_SSIERR p) = 1 ∧
        t.fld (FB_P_POS_V p) = s.fld (FB_P_POS_V p)) ∧
    ((s.port p).ssiRun = true → s.ssiOver p = true → (err = false ∨ s.fld (FB_P_SSI_ERRBIT p) = 0) →
      let n := s.fld (FB_P_SSI_BITS p)
      let x := if s.fld (FB_P_SSI_GRAY p) = 1 then grayBin n (v.toNat % 2 ^ n) else v.toNat % 2 ^ n
      ∃ t, exec (.ssiFrameEnd p v err) s = .next t ∧ (t.port p).ssiRun = false ∧ (t.port p).ssiPrev = some x ∧
        ((s.port p).ssiPrev = none → t.fld (FB_P_POS_V p) = x % 2 ^ 32) ∧
        (∀ q, (s.port p).ssiPrev = some q →
          t.fld (FB_P_POS_V p) = ofS 32 (toS 32 (s.fld (FB_P_POS_V p)) + toS n (ofS n ((x : Int) - q)))))) ∧
  (∀ (s : State) (i : Initiator) (p : Fin 8) (v : Word), s.underWay = true →
    let u := s.fbUpTo p
    (v.toNat = u.fld (FB_P_POS_V p) → u.fld (FB_P_CMPCTL_EN p) = 1 →
      ∃ t, exec (.compareWrite i (.fb p) v) s = .next t ∧ t.fld (FB_P_STAT_CMPFIRED p) = 1 ∧ t.fld (FB_P_CMPTS_V p) = s.now ∧
        t.net (u.fld (FB_P_CMPCTL_NET p)) = { u.net (u.fld (FB_P_CMPCTL_NET p)) with left := max (u.net (u.fld (FB_P_CMPCTL_NET p))).left 4 } ∧
        (u.fld (FB_P_CMPPER_V p) = 0 → t.fld (FB_P_CMPCTL_EN p) = 0 ∧ t.fld (FB_P_CMP_V p) = v.toNat)) ∧
    (v.toNat ≠ u.fld (FB_P_POS_V p) →
      ∃ t, exec (.compareWrite i (.fb p) v) s = .next t ∧ t.fld (FB_P_CMP_V p) = v.toNat ∧ t.fld (FB_P_STAT_CMPFIRED p) = u.fld (FB_P_STAT_CMPFIRED p))) ∧
  (∀ (s : State) (i : Initiator) (k : Fin 8) (v : Word), s.underWay = true →
    let u := s.stCross k
    (v.toNat = ofS 32 (s.stPosNow k) → u.fld (ST_S_CMPCTL_EN k) = 1 →
      ∃ t, exec (.compareWrite i (.st k) v) s = .next t ∧ t.fld (ST_S_STAT_CMPFIRED k) = 1 ∧ t.fld (ST_S_CMPTS_V k) = s.now) ∧
    (v.toNat ≠ ofS 32 (s.stPosNow k) →
      ∃ t, exec (.compareWrite i (.st k) v) s = .next t ∧ t.fld (ST_S_CMP_V k) = v.toNat ∧ t.fld (ST_S_STAT_CMPFIRED k) = u.fld (ST_S_STAT_CMPFIRED k))))

/-- AXIS_MOVE, VEL, AXIS_STOP, AXIS_HOME, HARDSTOP, STOPNET_EDGE and DLIM_WRITE (R296 to R301, R304): an axis that an engine owns refuses the first four with OWNED; of another axis an accepted command
waits for the next tick boundary, a stop always, and a refused one sets REFUSED and its REASON and changes nothing else: BUSY while homing, BAD_TARGET for a target of a homed axis outside
its limits. A hard stop of an axis that this module moves leaves it at the position reached, IDLE with the velocity 0 and no command waiting; from above VSS it also clears HOMED and sets
POSLOST and ST_POSLOST, and where it cuts a step pulse it clears HOMED; an enabled stop net does the same, one not enabled nothing. Of a smaller DLIM written while the axis slows down DEFERRED
shows that it waits, a greater one takes effect at once, and one written otherwise waits for the next update. -/
def Obligations.AxisCommandsWaitOrStopAtOnce : Prop :=
  (∀ (s : State) (i : Initiator) (k : Fin 8), s.underWay = true →
    (s.fld (ST_S_CTL_OWNED k) = 1 →
      exec (.axisMove i k) s = .next (s.stRefuse k 4) ∧ exec (.vel i k) s = .next (s.stRefuse k 4) ∧
      exec (.axisStop i k) s = .next (s.stRefuse k 4) ∧ exec (.axisHome i k) s = .next (s.stRefuse k 4)) ∧
    (s.fld (ST_S_CTL_OWNED k) = 0 →
      (s.stJudge k 1 = 0 → exec (.axisMove i k) s = .next (s.setAxis k { s.axis k with pend := some 1 })) ∧
      (s.stJudge k 2 = 0 → exec (.vel i k) s = .next (s.setAxis k { s.axis k with pend := some 2 })) ∧
      exec (.axisStop i k) s = .next (s.setAxis k { s.axis k with pend := some 3 }) ∧
      (s.stJudge k 4 = 0 → exec (.axisHome i k) s = .next (s.setAxis k { s.axis k with pend := some 4 })) ∧
      (s.fld (ST_S_STAT_STATE k) = 4 → exec (.axisMove i k) s = .next (s.stRefuse k 1) ∧ exec (.vel i k) s = .next (s.stRefuse k 1) ∧
        exec (.axisHome i k) s = .next (s.stRefuse k 1)) ∧
      (s.fld (ST_S_STAT_STATE k) ≠ 4 → s.fld (ST_S_STAT_HOMED k) = 1 → s.inLimits k (toS 32 (s.fld (ST_S_TGT_V k))) = false →
        exec (.axisMove i k) s = .next (s.stRefuse k 2)))) ∧
  (∀ (s : State) (i : Initiator) (k : Fin 8), s.underWay = true → s.stRuns k = true →
    ∃ t, exec (.hardstop i k) s = .next t ∧ (t.axis k).v = 0 ∧ (t.axis k).pend = none ∧ t.fld (ST_S_STAT_STATE k) = 0 ∧ t.fld (ST_S_VEL_V k) = 0 ∧
      t.fld (ST_S_POS_V k) = ofS 32 (s.stPosNow k) ∧
      ((s.stCross k).pulseAt k ((s.stCross k).stNow k) = true → t.fld (ST_S_STAT_HOMED k) = 0) ∧
      (s.stVss k < ((s.axis k).v.natAbs : Int) →
        t.fld (ST_S_STAT_HOMED k) = 0 ∧ t.fld (ST_S_STAT_POSLOST k) = 1 ∧ (t.reg (GLB_FAULT_STICKY 5)).getLsbD 4 = true) ∧
      (s.fld (ST_S_CTL_STOPNETEN k) = 1 → exec (.stopnetEdge k) s = .next t)) ∧
  (∀ (s : State) (k : Fin 8), s.fld (ST_S_CTL_STOPNETEN k) = 0 → exec (.stopnetEdge k) s = .next s) ∧
  (∀ (s : State) (i : Initiator) (k : Fin 8) (v : Word), s.underWay = true → s.fld (ST_S_CTL_OWNED k) = 0 →
    ∃ t, exec (.dlimWrite i k v) s = .next t ∧ t.fld (ST_S_DLIM_V k) = v.toNat ∧
      ((s.axis k).falling = false → t.eff = s.eff ∧ t.fld (ST_S_STAT_DEFERRED k) = 0) ∧
      ((s.axis k).falling = true → (s.axis k).v ≠ 0 → v.toNat < s.effFld (ST_S_DLIM_V k) → t.eff = s.eff ∧ t.fld (ST_S_STAT_DEFERRED k) = 1) ∧
      ((s.axis k).falling = true → (s.axis k).v ≠ 0 → s.effFld (ST_S_DLIM_V k) < v.toNat →
        t.effReg (ST_S_DLIM k) = v ∧ t.fld (ST_S_STAT_DEFERRED k) = 0))

/-! ### Field inputs, outputs and supply (chapter Plant IO) -/

/-- RAW_EDGE, INPUT_CHANGE, COS0_READ and COS1_READ (R306 to R310): an edge of a terminal is timestamped by its direction after INV. A change that is due takes the raw level, its edge's timestamp and
a count of 0, and enters the event FIFO where the input has COSEN; with the FIFO full it stays pending. COS0 shows the head entry, COS1 then gives its timestamp and frees it, and the lowest
pending input enters. A declared change of a wake input is, not under way and with wakes by inputs enabled, a wake event. A change that is not due does nothing. -/
def Obligations.InputChangesAreStampedAndQueued : Prop :=
  (∀ (s : State) (k : Fin 32) (level : Bool) (ts : Stamp),
    ∃ t, exec (.rawEdge k level ts) s = .next t ∧ t.field.pins.testBit k = level ∧ (∀ j, j ≠ k.val → t.field.pins.testBit j = s.field.pins.testBit j) ∧
      t.regs = s.regs ∧ t.mem = s.mem ∧
      (s.fieldOn = true → (level != s.flag (FI_DI_CFG_INV k)) = true → (t.fin k).rise = (s.stampOn (90 + k.val) ts).ns ∧ (t.fin k).fall = (s.fin k).fall) ∧
      (s.fieldOn = true → (level != s.flag (FI_DI_CFG_INV k)) = false → (t.fin k).fall = (s.stampOn (90 + k.val) ts).ns ∧ (t.fin k).rise = (s.fin k).rise) ∧
      (s.fieldOn = false → t.fin k = s.fin k)) ∧
  (∀ (s : State) (k : Fin 32), s.fieldOn = true → s.fiDue k = true →
    let ts := if s.rawLevel k then (s.fin k).rise else (s.fin k).fall
    ((s.flag (FI_DI_CFG_WAKE k) = false ∨ s.flag GLB_WAKE_CFG_DI = false ∨ s.underWay = true) →
      ∃ t, exec (.inputChange k) s = .next t ∧ (t.fld FI_DIN_V).testBit k = s.rawLevel k ∧
        (∀ j, j ≠ k.val → (t.fld FI_DIN_V).testBit j = (s.fld FI_DIN_V).testBit j) ∧ t.reg (FI_DI_TS k) = ts ∧ (t.fin k).cnt = 0 ∧ t.mem = s.mem ∧
        ((s.fld FI_COSEN_V).testBit k = false → t.field.cos = s.field.cos) ∧
        ((s.fld FI_COSEN_V).testBit k = true → s.field.cos.length < 128 →
          t.field.cos = s.field.cos ++ [⟨k, s.rawLevel k, 0, ts⟩] ∧ t.fld FI_STAT_COSCNT = s.field.cos.length + 1) ∧
        ((s.fld FI_COSEN_V).testBit k = true → 128 ≤ s.field.cos.length → (s.fin k).pend = none →
          t.field.cos = s.field.cos ∧ (t.fin k).pend = some (s.rawLevel k, ts))) ∧
    (s.flag (FI_DI_CFG_WAKE k) = true → s.flag GLB_WAKE_CFG_DI = true → s.underWay = false →
      exec (.inputChange k) s = .next ((s.declareChange k).wakeEvent 4))) ∧
  (∀ (s : State) (k : Fin 32), (s.fieldOn = false ∨ s.fiDue k = false) → exec (.inputChange k) s = .next s) ∧
  (∀ (s : State) (i : Initiator), s.fieldOn = true →
    (s.field.cos = [] → exec (.cos0Read i) s = .next (s.answer 0) ∧ exec (.cos1Read i) s = .next (s.answer 0)) ∧
    (s.field.cosRead = false → exec (.cos1Read i) s = .next (s.answer 0)) ∧
    (∀ e es, s.field.cos = e :: es →
      (∃ t, exec (.cos0Read i) s = .next t ∧ t.data = e.word ∧ t.field.cosRead = true ∧ t.field.cos = s.field.cos ∧ t.regs = s.regs) ∧
      (s.field.cosRead = true → es.length < 128 →
        ((∀ j, j < 32 → (s.fin j).pend = none) →
          ∃ t, exec (.cos1Read i) s = .next t ∧ t.data = e.ts ∧ t.field.cos = es ∧ t.field.cosRead = false ∧ t.fld FI_STAT_COSCNT = es.length) ∧
        (∀ (k : Fin 32) (p : Bool × Word), (s.fin k).pend = some p → (∀ j, j < k.val → (s.fin j).pend = none) →
          ∃ t, exec (.cos1Read i) s = .next t ∧ t.data = e.ts ∧ (t.fin k).pend = none ∧ t.fld FI_STAT_COSOVF = 1 ∧
            t.field.cos = es ++ [⟨k, (s.fld FI_DIN_V).testBit k, (s.fin k).merged, p.2⟩]))))

/-- DO_SET, DO_RES, OUTPUT_OVERLOAD, OPEN_LOAD, VFIELD_LOW, VFIELD_CUT, VFOK, VFREARM, VFLOW_END and VFOK_LOSS (R311 to R319): set and reset change the bits of OUT that the word names. An overload of a switch that is on sets its SHORT bit and FI_SHORT
and turns it off; an open load is watched where OLEN is set. Below 18.0 V VFLOW and its sticky bit are set, below 15.0 V VFCUT turns every switch off until a re-arm, which VFOK allows and REARMREF otherwise refuses; above
19.0 V VFOK is set. -/
def Obligations.OutputsSwitchAndTheSupplyCutsThem : Prop :=
  (∀ (s : State) (i : Initiator) (v : Word), s.fieldOn = true →
    (∃ t, exec (.doSet i v) s = .next t ∧ (∀ j, j < 16 → (t.fld FI_DO_OUT_V).testBit j = ((s.fld FI_DO_OUT_V).testBit j || v.getLsbD j)) ∧
      (∀ a, a ≠ FI_DO_OUT → t.reg a = s.reg a) ∧ t.mem = s.mem) ∧
    (∃ t, exec (.doRes i v) s = .next t ∧ (∀ j, j < 16 → (t.fld FI_DO_OUT_V).testBit j = ((s.fld FI_DO_OUT_V).testBit j && !v.getLsbD j)) ∧
      (∀ a, a ≠ FI_DO_OUT → t.reg a = s.reg a) ∧ t.mem = s.mem)) ∧
  (∀ (s : State) (j : Fin 16) (th : Bool),
    (s.doOn j = true → ∃ t, exec (.outputOverload j th) s = .next t ∧ (t.fld FI_DO_FLT_SHORT).testBit j = true ∧
      (t.reg (GLB_FAULT_STICKY 6)).getLsbD 2 = true ∧ t.doOn j = false) ∧
    (s.doOn j = false → exec (.outputOverload j th) s = .next s ∧ exec (.openLoad j) s = .next s) ∧
    (s.doOn j = true → s.flag (FI_DO_CFG_OLEN j) = false → exec (.openLoad j) s = .next s) ∧
    (s.doOn j = true → s.flag (FI_DO_CFG_OLEN j) = true → ∃ t, exec (.openLoad j) s = .next t ∧ (t.fld FI_DO_FLT_OPENLD).testBit j = true ∧
      t.doOn j = true ∧ ∀ a, a ≠ FI_DO_FLT → t.reg a = s.reg a)) ∧
  (∀ (s : State) (mv : BitVec 16), s.fieldOn = true →
    (mv.toNat < 18000 → s.fld FI_STAT_VFLOW = 0 →
      ∃ t, exec (.vfieldLow mv) s = .next t ∧ t.fld FI_VFIELD_MV = mv.toNat ∧ t.fld FI_VFIELD_MIN = min (s.fld FI_VFIELD_MIN) mv.toNat ∧
        t.fld FI_STAT_VFLOW = 1 ∧ t.fld FI_STAT_VFOK = 0 ∧ (t.reg (GLB_FAULT_STICKY 6)).getLsbD 0 = true) ∧
    (mv.toNat < 15000 →
      ∃ t, exec (.vfieldCut mv) s = .next t ∧ t.fld FI_VFIELD_MV = mv.toNat ∧ t.fld FI_STAT_VFCUT = 1 ∧
        (t.reg (GLB_FAULT_STICKY 6)).getLsbD 1 = true ∧ ∀ j, t.doOn j = false) ∧
    (19000 < mv.toNat → ∃ t, exec (.vfok mv) s = .next t ∧ t.fld FI_VFIELD_MV = mv.toNat ∧ t.fld FI_STAT_VFOK = 1 ∧ t.fld FI_STAT_VFLOW = 0) ∧
    (18000 < mv.toNat → ∃ t, exec (.vflowEnd mv) s = .next t ∧ t.fld FI_VFIELD_MV = mv.toNat ∧ t.fld FI_STAT_VFLOW = 0 ∧
      t.fld FI_STAT_VFCUT = s.fld FI_STAT_VFCUT) ∧
    (mv.toNat ≤ 19000 → ∃ t, exec (.vfokLoss mv) s = .next t ∧ t.fld FI_VFIELD_MV = mv.toNat ∧ t.fld FI_STAT_VFOK = 0 ∧
      t.fld FI_STAT_VFCUT = s.fld FI_STAT_VFCUT)) ∧
  (∀ (s : State) (i : Initiator), s.fieldOn = true →
    (s.fld FI_STAT_VFOK = 1 → ∃ t, exec (.vfrearm i) s = .next t ∧ t.fld FI_STAT_VFCUT = 0 ∧ t.fld FI_STAT_VFOK = 1 ∧ ∀ a, a ≠ FI_STAT → t.reg a = s.reg a) ∧
    (s.fld FI_STAT_VFOK = 0 → ∃ t, exec (.vfrearm i) s = .next t ∧ t.fld FI_STAT_VFCUT = s.fld FI_STAT_VFCUT ∧ t.fld FI_STAT_REARMREF = 1))

/-! ### CAN (chapter CAN Controllers) -/

/-- REQ, ABORT, CAN_LAUNCH, CAN_TX_END, ARBITRATION_LOST, RECOVER, RECOVERY_END and CAN_BUS_INTEGRATION (R323 to R328, R333, R334): a requested buffer waits or starts, and is refused on a listening controller; an ABORT ends one that waits and marks one that
is sent. A launch time reached on a busy bus counts LATE. The frame's success records the timestamp and lowers TEC by 1; an error counts, raises TEC by 8 and as often again by 8 as the bus makes it (a
free number), and the buffer repeats, fails at its retry limit or is aborted; TEC above 255 is bus-off with CAN_BUSOFF, from which a requested recovery leads back to error active with both counters 0.
Lost arbitration is no attempt. -/
def Obligations.CanBuffersSendAndCountErrors : Prop :=
  (∀ (s : State) (i : Initiator) (k : Fin 4) (b : Fin 3), s.power.furled = false →
    (s.txState k b = 1 ∨ s.txState k b = 2 → exec (.req i k b) s = .next s) ∧
    (s.txState k b ≠ 1 → s.txState k b ≠ 2 → s.canListen k = true → exec (.req i k b) s = .next (s.setFld (CN_TX_STAT_STATE k b) 6)) ∧
    (s.txState k b ≠ 1 → s.txState k b ≠ 2 → s.canListen k = false →
      ∃ t, exec (.req i k b) s = .next t ∧ (t.txState k b = 1 ∨ (t.txState k b = 2 ∧ (t.cn k).active = some b.val)) ∧ t.fld (CN_TX_STAT_ERRS k b) = 0) ∧
    (s.txState k b = 1 → ∃ t, exec (.abort i k b) s = .next t ∧ t.txState k b = 4 ∧ (∀ a, a ≠ CN_TX_STAT k b → t.reg a = s.reg a)) ∧
    (s.txState k b = 2 → ∃ t, exec (.abort i k b) s = .next t ∧ (t.cn k).abortAct = true ∧ t.regs = s.regs) ∧
    (s.txState k b ≠ 1 → s.txState k b ≠ 2 → exec (.abort i k b) s = .next s)) ∧
  (∀ (s : State) (k : Fin 4) (b : Fin 3) (busIdle : Bool), s.underWay = true → s.txState k b = 1 → s.fld (CN_TX_CTRL_LAUNCHEN k b) = 1 →
    reached (s.fld (CN_TX_LAUNCH_T k b)) s.now = true → tabGet (fun _ => false) (s.cn k).early b = false →
    ∃ t, exec (.canLaunch k b busIdle) s = .next t ∧ tabGet (fun _ => false) (t.cn k).early b = true ∧
      ((busIdle = false ∨ (s.cn k).active.isSome = true) → t.txState k b = 1 ∧ t.fld (CN_CNT_LATE k) = min 255 (s.fld (CN_CNT_LATE k) + 1))) ∧
  (∀ (s : State) (k : Fin 4) (b : Fin 3) (ok : Bool) (err : Fin 8) (sof : Word),
    (s.txRan k b = false → exec (.canTxEnd k b ok err sof) s = .next s ∧ exec (.arbitrationLost k b) s = .next s) ∧
    (s.txRan k b = true →
      (∃ t, exec (.canTxEnd k b true err sof) s = .next t ∧ t.txState k b = 3 ∧ t.fld (CN_TX_TS_T k b) = sof.toNat ∧ (t.cn k).tec = (s.cn k).tec - 1) ∧
      (∃ t, exec (.canTxEnd k b false err sof) s = .next t ∧ t.fld (CN_TX_STAT_ERRS k b) = min 15 (s.fld (CN_TX_STAT_ERRS k b) + 1) ∧
        t.fld (CN_CNT_TXERR k) = min 255 (s.fld (CN_CNT_TXERR k) + 1) ∧ t.fld (CN_STAT_LASTERR k) = err.val ∧
        ((s.cn k).abortAct = false → s.fld (CN_TX_CTRL_RLIM k b) = 0 → t.txState k b = 1 ∨ t.txState k b = 2) ∧
        ((s.cn k).abortAct = false → s.fld (CN_TX_CTRL_RLIM k b) ≠ 0 → s.fld (CN_TX_CTRL_RLIM k b) ≤ s.fld (CN_TX_STAT_ERRS k b) + 1 → t.txState k b = 5) ∧
        ((s.cn k).active = some b.val → (s.cn k).abortAct = true → t.txState k b = 4) ∧
        (err.val ≠ 1 → (err.val ≠ 3 ∨ s.fld (CN_STAT_STATE k) ≠ 1) → (∃ n, n < 32 ∧ (t.cn k).tec = (s.cn k).tec + 8 + 8 * n) ∧
          (247 < (s.cn k).tec → s.fld (CN_STAT_STATE k) < 2 → t.fld (CN_STAT_STATE k) = 2 ∧ (t.reg (GLB_FAULT_STICKY 6)).getLsbD 3 = true))) ∧
      (∃ t, exec (.arbitrationLost k b) s = .next t ∧ (t.cn k).active = none ∧ (t.cn k).tec = (s.cn k).tec ∧
        t.fld (CN_TX_STAT_ERRS k b) = s.fld (CN_TX_STAT_ERRS k b) ∧
        ((s.cn k).abortAct = false → t.txState k b = 1) ∧ ((s.cn k).active = some b.val → (s.cn k).abortAct = true → t.txState k b = 4)))) ∧
  (∀ (s : State) (i : Initiator) (k : Fin 4), s.power.furled = false →
    (s.fld (CN_STAT_STATE k) = 2 → exec (.recover i k) s = .next (s.setFld (CN_STAT_STATE k) 3)) ∧
    (s.fld (CN_STAT_STATE k) ≠ 2 → exec (.recover i k) s = .next s)) ∧
  (∀ (s : State) (k : Fin 4), s.underWay = true → s.fld (CN_CTL_EN k) = 1 →
    (s.fld (CN_STAT_STATE k) = 3 → ∃ t, exec (.recoveryEnd k) s = .next t ∧ t.fld (CN_STAT_STATE k) = 0 ∧ t.fld (CN_STAT_TEC k) = 0 ∧
      t.fld (CN_STAT_REC k) = 0 ∧ (t.cn k).integ = true) ∧
    (∃ t, exec (.canBusIntegration k) s = .next t ∧ (t.cn k).integ = true ∧ (t.cn k).wait = false ∧ (t.cn k).busy = false)) ∧
  (∀ (s : State) (k : Fin 4), s.fld (CN_CTL_EN k) = 0 → exec (.recoveryEnd k) s = .next s ∧ exec (.canBusIntegration k) s = .next s)

/-- CAN_FRAME_RX, CAN_RECEIVE_ERROR, RXW_READ, RX_LOCK_TIMEOUT and RXUNLOCK (R327, R329 to R331): a frame that the lowest matching filter accepts enters the FIFO with that filter's number; with no filter enabled every frame enters. A frame that finds 64 entries
is lost: RXOVF and CAN_RXOVF. A receive error raises REC by 1 and by a free multiple of 8. The first word read locks the head entry for its reader, the last word frees it, another's read sets RXCONFL and reads 0; the lock ends after 20 µs or at
RXUNLOCK, and the entry stays. -/
def Obligations.CanFramesAreFilteredQueuedAndRead : Prop :=
  (∀ (s : State) (k : Fin 4) (f : CanFrame) (sof : Word), s.canHear k = true → (s.cn k).active = none → (f.fdf = false ∨ s.fld (CN_CTL_FDEN k) = 1) →
    (∀ x : Fin 16, s.fltMatch k f x = true → (∀ y, y < x.val → s.fltMatch k f y = false) →
      ((s.cn k).fifo.length < 64 → ∃ t, exec (.canFrameRx k f sof) s = .next t ∧ (t.cn k).fifo = (s.cn k).fifo ++ [canEntry f x sof.toNat] ∧
        t.fld (CN_RXSTAT_COUNT k) = (s.cn k).fifo.length + 1) ∧
      (64 ≤ (s.cn k).fifo.length → ∃ t, exec (.canFrameRx k f sof) s = .next t ∧ (t.cn k).fifo = (s.cn k).fifo ∧
        t.fld (CN_CNT_RXOVF k) = min 255 (s.fld (CN_CNT_RXOVF k) + 1) ∧ (t.reg (GLB_FAULT_STICKY 6)).getLsbD 4 = true)) ∧
    ((∀ y, y < 16 → s.fld (CN_FLT_ID_EN k y) = 0) → (s.cn k).fifo.length < 64 →
      ∃ t n, exec (.canFrameRx k f sof) s = .next t ∧ n < 16 ∧ (t.cn k).fifo = (s.cn k).fifo ++ [canEntry f n sof.toNat]) ∧
    (∀ y : Fin 16, s.fld (CN_FLT_ID_EN k y) = 1 → (∀ x, x < 16 → s.fltMatch k f x = false) →
      ∃ t, exec (.canFrameRx k f sof) s = .next t ∧ (t.cn k).fifo = (s.cn k).fifo)) ∧
  (∀ (s : State) (k : Fin 4) (err : Fin 8), s.canHear k = true → (s.cn k).active = none →
    ∃ t, exec (.canReceiveError k err) s = .next t ∧ t.fld (CN_CNT_RXERR k) = min 255 (s.fld (CN_CNT_RXERR k) + 1) ∧ t.fld (CN_STAT_LASTERR k) = err.val ∧
      ∃ n, n < 32 ∧ (t.cn k).rec_ = (s.cn k).rec_ + 1 + 8 * n) ∧
  (∀ (s : State) (i : Initiator) (k : Fin 4) (w : Fin 19), s.power.furled = false →
    ((s.cn k).fifo = [] → exec (.rxwRead i k w) s = .next (s.answer 0)) ∧
    (∀ e es, (s.cn k).fifo = e :: es →
      ((s.cn k).lock = none → w.val = 0 → ∃ t, exec (.rxwRead i k w) s = .next t ∧ t.data = BitVec.ofNat 32 (e.getD 0 0) ∧
        (t.cn k).lock = some (i, s.nowNs) ∧ (t.cn k).fifo = e :: es ∧ t.fld (CN_STAT_RXLOCK k) = 1) ∧
      ((s.cn k).lock = none → w.val ≠ 0 → exec (.rxwRead i k w) s = .next (s.answer 0)) ∧
      (∀ l, (s.cn k).lock = some l → l.1 = i → ∃ t, exec (.rxwRead i k w) s = .next t ∧ t.data = BitVec.ofNat 32 (e.getD w.val 0) ∧
        (w.val + 1 = e.length → (t.cn k).fifo = es ∧ (t.cn k).lock = none) ∧ (w.val + 1 ≠ e.length → t.can = s.can ∧ t.regs = s.regs)) ∧
      (∀ l, (s.cn k).lock = some l → l.1 ≠ i → ∃ t, exec (.rxwRead i k w) s = .next t ∧ t.data = 0 ∧ t.can = s.can ∧ t.fld (CN_STAT_RXCONFL k) = 1)) ∧
    (∃ t, exec (.rxunlock i k) s = .next t ∧ (t.cn k).lock = none ∧ (t.cn k).fifo = (s.cn k).fifo)) ∧
  (∀ (s : State) (k : Fin 4),
    ((s.cn k).lock = none → exec (.rxLockTimeout k) s = .next s) ∧
    (∀ l, (s.cn k).lock = some l →
      (l.2 + 20000 ≤ s.nowNs → ∃ t, exec (.rxLockTimeout k) s = .next t ∧ (t.cn k).lock = none ∧ t.fld (CN_STAT_RXLTO k) = 1 ∧ (t.cn k).fifo = (s.cn k).fifo) ∧
      (s.nowNs < l.2 + 20000 → exec (.rxLockTimeout k) s = .next s)))

/-! ### Rig, flash and fuses (chapter Rig) -/

/-- FLASH_READ, FLASH_PROGRAM, FLASH_ERASE and FLASH_OP_END (R336, R337): with no operation under way a read starts unless an apply runs, and a program or an erase of a page inside an image area
starts unless the applied rig's slot holds it; anything else is refused. A read ends with 4,096 flash bytes in the destination, an erase with every byte of the
sector at 0xFF; the flash outside the area keeps, and an operation that fails sets ERROR. -/
def Obligations.FlashOperationsRunOneAtATime : Prop :=
  (∀ (s : State) (i : Initiator), s.power.furled = false →
    let a := s.fld RG_FL_ADDR_V
    (s.rig.flash.isSome = true → ∃ t, t = s.setFld RG_FL_STAT_REFUSED 1 ∧
      exec (.flashRead i) s = .next t ∧ exec (.flashProgram i) s = .next t ∧ exec (.flashErase i) s = .next t) ∧
    (s.rig.job.isSome = true → ∃ t, t = s.setFld RG_FL_STAT_REFUSED 1 ∧
      exec (.flashRead i) s = .next t ∧ exec (.flashProgram i) s = .next t ∧ exec (.flashErase i) s = .next t) ∧
    ((a < 0x200000 ∨ a % 4096 ≠ 0 ∨ (0x2000000 ≤ a ∧ a < 0x2200000)) → ∃ t, t = s.setFld RG_FL_STAT_REFUSED 1 ∧
      exec (.flashProgram i) s = .next t ∧ exec (.flashErase i) s = .next t) ∧
    (s.rig.flash = none → s.rig.job = none →
      (∃ t, exec (.flashRead i) s = .next t ∧ t.rig.flash = some ⟨1, a, (s.reg RG_FL_SRC).toNat⟩ ∧ t.fld RG_FL_STAT_BUSY = 1 ∧ t.flash = s.flash) ∧
      (∀ slot, slot < 2 → a % 4096 = 0 → 0x200000 + 0x2000000 * slot ≤ a → a < 0x2000000 + 0x2000000 * slot →
        (s.hasRig = false ∨ s.fld RG_STAT_SLOT ≠ slot →
          (∃ t, exec (.flashProgram i) s = .next t ∧ t.rig.flash = some ⟨2, a, (s.reg RG_FL_SRC).toNat⟩ ∧ t.fld RG_FL_STAT_BUSY = 1 ∧ t.flash = s.flash) ∧
          (∃ t, exec (.flashErase i) s = .next t ∧ t.rig.flash = some ⟨3, a, (s.reg RG_FL_SRC).toNat⟩ ∧ t.fld RG_FL_STAT_BUSY = 1 ∧ t.flash = s.flash)) ∧
        (s.hasRig = true → s.fld RG_STAT_SLOT = slot → exec (.flashErase i) s = .next (s.setFld RG_FL_STAT_REFUSED 1))))) ∧
  (∀ (s : State) (fail : Bool),
    (s.rig.flash = none → exec (.flashOpEnd fail) s = .next s) ∧
    (∀ j, s.rig.flash = some j →
      ∃ t, exec (.flashOpEnd fail) s = .next t ∧ t.rig.flash = none ∧ t.fld RG_FL_STAT_BUSY = 0 ∧ t.fld RG_FL_STAT_DONE = 1 ∧
        (t.reg GLB_HIRQ_STAT).getLsbD 5 = true ∧ (fail = true → t.fld RG_FL_STAT_ERROR = 1) ∧
        (j.op = 1 → t.flash = s.flash ∧ (fail = false → 0x08000000 ≤ j.src → j.src + 4096 ≤ 0x09000000 →
          ∀ n, n < 4096 → t.rdB (j.src + n) = s.flB ((j.addr + n) % 2 ^ 26))) ∧
        (j.op = 2 → t.mem = s.mem ∧ (∀ x, (x < j.addr ∨ j.addr + 4096 ≤ x) → t.flB x = s.flB x) ∧
          (fail = false → (∀ n, n < 4096 → s.flB (j.addr + n) = 0xFF#8) → 0x08000000 ≤ j.src → j.src + 4096 ≤ 0x09000000 →
            (∀ n, n < 4096 → t.flB (j.addr + n) = s.rdB (j.src + n)) ∧ t.fld RG_FL_STAT_ERROR = s.fld RG_FL_STAT_ERROR)) ∧
        (j.op = 3 → t.mem = s.mem ∧ (∀ x, x / 65536 ≠ j.addr / 65536 → t.flB x = s.flB x) ∧
          (fail = false → ∀ x, x / 65536 = j.addr / 65536 → t.flB x = 0xFF#8))))

/-- RIG_APPLY, RIG_APPLY_END, ROLLUP, CALWRITE, CALWRITE_END, KEYPROG, KEYREV and KEYLOCK (R341, R342, R346, R348, R353, R354): a command without its magic number ends with outcome 4, RIG_APPLY or CALWRITE under way with 3, any other while one runs with 2. The fuses only
ever rise: ROLLUP takes SECVER, a key slot is programmed once and never after KEYLOCK. A successful apply ends APPLIED and REEFED with the rig sealed, one without a good slot without a
rig, with RIG_FAIL. A calibration write raises the set's sequence number by 1. -/
def Obligations.RigCommandsReportTheirOutcomes : Prop :=
  (∀ (s : State) (i : Initiator) (v : Word), s.power.furled = false →
    (bits v.toNat 16 16 ≠ 0xC0DE → ∀ c op, (c, op) ∈ [(Instr.rollup i v, 2), (Instr.calwrite i v, 3), (Instr.keyprog i v, 4), (Instr.keyrev i v, 5), (Instr.keylock i v, 6)] →
      ∃ t, exec c s = .next t ∧ t.fld RG_CMDSTAT_OUTCOME = 4 ∧ t.fld RG_CMDSTAT_LASTOP = op ∧ t.rig = s.rig) ∧
    (bits v.toNat 16 16 = 0xC0DE → s.rgBusy = true →
      ∀ c op, (c, op) ∈ [(Instr.rollup i v, 2), (Instr.keyprog i v, 4), (Instr.keyrev i v, 5), (Instr.keylock i v, 6)] →
      ∃ t, exec c s = .next t ∧ t.fld RG_CMDSTAT_OUTCOME = 2 ∧ t.fld RG_CMDSTAT_LASTOP = op ∧ t.rig = s.rig) ∧
    (s.underWay = false → s.rgBusy = true →
      (∃ t, exec (.rigApply i v) s = .next t ∧ t.fld RG_CMDSTAT_OUTCOME = 2 ∧ t.rig = s.rig) ∧
      (bits v.toNat 16 16 = 0xC0DE → ∃ t, exec (.calwrite i v) s = .next t ∧ t.fld RG_CMDSTAT_OUTCOME = 2 ∧ t.rig = s.rig)) ∧
    (s.underWay = true → ∃ t, exec (.rigApply i v) s = .next t ∧ t.fld RG_CMDSTAT_OUTCOME = 3 ∧ t.rig = s.rig) ∧
    (s.underWay = true → bits v.toNat 16 16 = 0xC0DE → ∃ t, exec (.calwrite i v) s = .next t ∧ t.fld RG_CMDSTAT_OUTCOME = 3 ∧ t.rig = s.rig) ∧
    (s.underWay = false → s.rgBusy = false →
      (∃ t, exec (.rigApply i v) s = .next t ∧ t.rig.job.isSome = true) ∧
      ((∀ x, x < 2 → s.slotMagic x = false) →
        ∃ t, exec (.rigApply i v) s = .next t ∧ t.rig.job = some ⟨bits v.toNat 4 1, [], true, bits v.toNat 4 1, 2, false⟩ ∧
          t.fld RG_STAT_STATE = 1 ∧ t.fld GLB_PWR_STAT_STATE = 2 ∧ t.fld RG_CMDSTAT_OUTCOME = 7) ∧
      (bits v.toNat 16 16 = 0xC0DE → ∃ t, exec (.calwrite i v) s = .next t ∧ t.rig.calJob = true ∧ t.fld RG_CMDSTAT_OUTCOME = 7 ∧ t.flash = s.flash)) ∧
    (bits v.toNat 16 16 = 0xC0DE → s.rgBusy = false →
      (s.hasRig = true → s.rig.roll < s.fld RG_SECVER_V → ∃ t, exec (.rollup i v) s = .next t ∧ t.rig.roll = min 64 (s.fld RG_SECVER_V) ∧ t.fld RG_CMDSTAT_OUTCOME = 1) ∧
      ((s.hasRig = false ∨ s.fld RG_SECVER_V ≤ s.rig.roll) → ∃ t, exec (.rollup i v) s = .next t ∧ t.rig = s.rig ∧ t.fld RG_CMDSTAT_OUTCOME = 5) ∧
      ((s.rig.keylock = true ∨ s.rig.keyset.getLsbD (bits v.toNat 5 2) = true) →
        ∃ t, exec (.keyprog i v) s = .next t ∧ t.rig = s.rig ∧ t.fld RG_CMDSTAT_OUTCOME = 5) ∧
      (s.rig.keylock = false → s.rig.keyset.getLsbD (bits v.toNat 5 2) = false →
        ∃ t, exec (.keyprog i v) s = .next t ∧ t.fld RG_CMDSTAT_OUTCOME = 1 ∧ t.rig.keyset.getLsbD (bits v.toNat 5 2) = true ∧
          tabGet (fun _ => 0) t.rig.keys (bits v.toNat 5 2) = beNat (s.sramBytes (s.reg RG_KEYADDR).toNat 32) ∧
          ∀ j, j ≠ bits v.toNat 5 2 → tabGet (fun _ => 0) t.rig.keys j = tabGet (fun _ => 0) s.rig.keys j) ∧
      (∃ t, exec (.keyrev i v) s = .next t ∧ t.rig.keyrev.getLsbD (bits v.toNat 5 2) = true ∧ t.fld RG_CMDSTAT_OUTCOME = 1 ∧
        ∀ j, j ≠ bits v.toNat 5 2 → t.rig.keyrev.getLsbD j = s.rig.keyrev.getLsbD j) ∧
      (∃ t, exec (.keylock i v) s = .next t ∧ t.rig.keylock = true ∧ t.rig.keys = s.rig.keys ∧ t.fld RG_CMDSTAT_OUTCOME = 1))) ∧
  (∀ (s : State) (fail : Bool),
    (s.rig.calJob = false → exec (.calwriteEnd fail) s = .next s) ∧
    (s.rig.calJob = true → ∃ t, exec (.calwriteEnd fail) s = .next t ∧ t.rig.calJob = false ∧ (∀ x, 65536 ≤ x → t.flB x = s.flB x) ∧
      (fail = true → t.fld RG_CMDSTAT_OUTCOME = 6) ∧
      (fail = false → t.fld RG_CMDSTAT_OUTCOME = 1 ∧ (t.reg (GLB_FAULT_STICKY 0)).getLsbD 6 = true ∧
        leNat (t.flBytes 0x18 4) = (leNat (s.flBytes 0x18 4) + 1) % 2 ^ 32))) ∧
  (∀ (s : State) (fe : Bool), s.power.uwAfterApply = false →
    (s.rig.job = none → exec (.rigApplyEnd fe) s = .next s) ∧
    (∀ j, s.rig.job = some j →
      (j.ok = true → j.slot < 2 → ∃ t, exec (.rigApplyEnd false) s = .next t ∧ t.rig.job = none ∧ t.rig.sealed = true ∧ t.fld RG_STAT_STATE = 2 ∧ t.fld RG_STAT_SLOT = j.slot ∧
        t.fld GLB_PWR_STAT_STATE = 1 ∧ (j.failed = 0 → t.fld RG_STAT_FALLBACK = 0) ∧ (j.failed ≠ 0 → t.fld RG_STAT_FALLBACK = 1) ∧
        (j.cmd = true → t.fld RG_CMDSTAT_OUTCOME = if j.failed = 0 then 1 else 6)) ∧
      (j.ok = false → ∃ t, exec (.rigApplyEnd fe) s = .next t ∧ t.rig.job = none ∧ t.rig.sealed = false ∧ t.fld RG_STAT_STATE = 0 ∧
        t.fld GLB_PWR_STAT_STATE = 1 ∧ (t.reg (GLB_FAULT_STICKY 0)).getLsbD 3 = true ∧ (j.cmd = true → t.fld RG_CMDSTAT_OUTCOME = 6))))

/-! ### Host access (chapter Host Access and Register Map) -/

/-- PCIE_REQUEST, MSIX_UNMASK, DOORBELL, PERST and PERST_RELEASE (R356 to R362, R396, R397): a request of one DW with all byte enables is the register access, another size sets BUS_SIZE and has no other effect on a register; a longer request to
memory runs as aligned accesses in address order; an address outside the BARs, or an endpoint in reset, gives nothing. Unmasking a vector sends its message if its cause still stands. A doorbell sets
its eight causes. PERST_N masks every vector and leaves the registers; at its release the link is trained. -/
def Obligations.HostRequestsAccessRegistersAndMemory : Prop :=
  (∀ (s : State) (w be : Bool) (addr : Word) (len : Nat) (bs : List Byte), (s.host.inReset = true ∨ inBar addr.toNat = false) →
    exec (.pcieRequest w addr be len bs) s = .next s) ∧
  (∀ (s : State) (be : Bool) (addr : Word) (len : Nat) (bs : List Byte), s.host.inReset = false → s.power.furled = false → s.stuck .host = false →
    let a := addr.toNat
    (a < 0x100000 → a % 4 = 0 → bs.length = 4 → exec (.pcieRequest true addr true len bs) s = .next (s.regWrite .host a (BitVec.ofNat 32 (leNat bs)))) ∧
    (a < 0x100000 → a % 4 = 0 → ∃ t, exec (.pcieRequest false addr true 4 bs) s = .next t ∧ t.data = (s.regRead .host a).data ∧
      t.burst = leBytes 4 t.data.toNat ∧ t.regs = (s.regRead .host a).regs) ∧
    (a < 0x100000 → (a % 4 ≠ 0 ∨ be = false ∨ bs.length ≠ 4) → bs ≠ [] →
      ∃ t, exec (.pcieRequest true addr be len bs) s = .next t ∧ (t.reg (GLB_FAULT_STICKY 0)).getLsbD 0 = true) ∧
    (a < 0x100000 → (a % 4 ≠ 0 ∨ be = false ∨ len ≠ 4) → len ≠ 0 →
      ∃ t, exec (.pcieRequest false addr be len bs) s = .next t ∧ t.data = 0 ∧ (t.reg (GLB_FAULT_STICKY 0)).getLsbD 0 = true) ∧
    (∀ v : Fin 32, a = 0x10000C + 16 * v.val → ∀ b, exec (.pcieRequest true addr be len [b]) s = .next (if b.getLsbD 0 then s.maskVec v else s.unmask v)) ∧
    (a = 0x101000 → ∃ t, exec (.pcieRequest false addr be 4 bs) s = .next t ∧ t.data = s.host.pba ∧ t.host = s.host ∧ t.regs = s.regs) ∧
    (0x102000 ≤ a → inBar a = true → a % 8 = 0 → bs.length = 8 → exec (.pcieRequest true addr be len bs) s = .next (s.memWrite .host a bs)) ∧
    (0x102000 ≤ a → inBar a = true → a % 8 = 4 → bs.length = 8 →
      exec (.pcieRequest true addr be len bs) s = .next ((s.memWrite .host a (bs.take 4)).memWrite .host (a + 4) (bs.drop 4)))) ∧
  (∀ (s : State) (v : Fin 32), s.host.inReset = false → s.power.furled = false →
    (s.host.mask.getLsbD v = false → exec (.msixUnmask v) s = .next s) ∧
    (s.host.mask.getLsbD v = true → ∃ t, exec (.msixUnmask v) s = .next t ∧ t.host.mask.getLsbD v = false ∧ t.host.pba.getLsbD v = false ∧ t.regs = s.regs ∧
      (s.host.pba.getLsbD v = true → (s.reg GLB_HIRQ_STAT).getLsbD v = true → s.host.msixEn = true →
        tabGet (fun _ => 0) t.host.sent v = tabGet (fun _ => 0) s.host.sent v + 1) ∧
      ((s.host.pba.getLsbD v = false ∨ (s.reg GLB_HIRQ_STAT).getLsbD v = false) → t.host.sent = s.host.sent))) ∧
  (∀ (s : State) (i : Initiator) (v : Word), s.power.furled = false →
    ∃ t, exec (.doorbell i v) s = .next t ∧ (∀ a, a ≠ GLB_HIRQ_STAT → t.reg a = s.reg a) ∧ t.mem = s.mem ∧
      ∀ j, j < 32 → (t.reg GLB_HIRQ_STAT).getLsbD j = ((s.reg GLB_HIRQ_STAT).getLsbD j || (decide (8 ≤ j ∧ j < 16) && v.getLsbD (j - 8)))) ∧
  (∀ s : State,
    (∃ t, exec .perst s = .next t ∧ t.host.inReset = true ∧ t.host.mask = BitVec.allOnes 32 ∧ t.host.pba = s.reg GLB_HIRQ_STAT ∧ t.regs = s.regs ∧ t.mem = s.mem ∧
      t.time = s.time) ∧
    (s.host.inReset = true → ∃ t, exec .perstRelease s = .next t ∧ t.host.inReset = false ∧ t.host.training = true ∧
      1 ≤ t.host.speed ∧ t.host.speed ≤ 3 ∧ (t.host.width = 1 ∨ t.host.width = 2) ∧ t.regs = s.regs) ∧
    (s.host.inReset = false → exec .perstRelease s = .next s))

/-- PE_FRAME_RX, RX_BUFFER_PUSH, RX_BUFFER_POP, TX_DESCRIPTOR_PUSH, TX_DESCRIPTOR_POP, LAUNCH_TIME, FRAME_TRANSMITTED, PE_LINK_UP and PE_LINK_DOWN (R51, R52, R363 to R366): a frame with a bad FCS or too long is counted and dropped, an accepted one that
carries no UDP datagram fills the oldest free buffer or counts RXNOBUF. Pushes answer ACCEPTED, FULL, BAD or DISABLED. The due head of the
highest queue starts at its launch time; its end writes the time and then the status into the descriptor, which POP returns. -/
def Obligations.PlantPortsReceiveAndSend : Prop :=
  (∀ (s : State) (p : Fin 2) (ok : Bool) (f : List Byte) (ts : Stamp),
    (s.power.furled = true ∨ s.fld (PE_P_CTL_EN p) = 0 → exec (.peFrameRx p ok f ts) s = .next s) ∧
    (s.power.furled = false → s.fld (PE_P_CTL_EN p) = 1 →
      (∃ t, exec (.peFrameRx p false f ts) s = .next t ∧ t.fld (PE_P_CNT_FCSERR p) = min 255 (s.fld (PE_P_CNT_FCSERR p) + 1) ∧ t.host = s.host) ∧
      (1518 < f.length → ∃ t, exec (.peFrameRx p true f ts) s = .next t ∧ t.fld (PE_P_CNT_TOOLONG p) = min 255 (s.fld (PE_P_CNT_TOOLONG p) + 1) ∧ t.host = s.host) ∧
      (f.length ≤ 1518 → s.macOk p (f.take 6) = false → exec (.peFrameRx p true f ts) s = .next s) ∧
      (f.length ≤ 1518 → s.macOk p (f.take 6) = true → (tagged f = false ∨ beAt f 16 2 ≠ 0x8100) → ipAt f = none →
        ((s.pe p).free = [] → ∃ t, exec (.peFrameRx p true f ts) s = .next t ∧ t.fld (PE_P_CNT_RXNOBUF p) = min 255 (s.fld (PE_P_CNT_RXNOBUF p) + 1) ∧ t.mem = s.mem) ∧
        (∀ b bs, (s.pe p).free = b :: bs → s.domainOn b = true →
          ∃ t, exec (.peFrameRx p true f ts) s = .next t ∧ (t.pe p).free = bs ∧ (t.pe p).filled = (s.pe p).filled ++ [b] ∧
            t.rdBytes (b + 0x20) f.length = f ∧ t.rd32 b = f.length + 2048 * b2n (tagged f) + 2 ^ 31 ∧ t.rd32 (b + 4) = (s.stampOn (88 + p.val) ts).ns.toNat)))) ∧
  (∀ (s : State) (i : Initiator) (p : Fin 2) (v : Word), s.power.furled = false →
    let out := fun (t : State) => tabGet (fun _ => 0) (t.inis i).peOut (PE_P_RXPUSH p)
    (v.toNat % 64 ≠ 0 ∨ inRam v.toNat 2048 = false → ∃ t, exec (.rxBufferPush i p v) s = .next t ∧ out t = 3 ∧ t.host = s.host) ∧
    (v.toNat % 64 = 0 → inRam v.toNat 2048 = true → 256 ≤ (s.pe p).free.length → ∃ t, exec (.rxBufferPush i p v) s = .next t ∧ out t = 2 ∧ t.host = s.host) ∧
    (v.toNat % 64 = 0 → inRam v.toNat 2048 = true → (s.pe p).free.length < 256 →
      ∃ t, exec (.rxBufferPush i p v) s = .next t ∧ out t = 1 ∧ (t.pe p).free = (s.pe p).free ++ [v.toNat]) ∧
    ((s.pe p).filled = [] → exec (.rxBufferPop i p) s = .next (s.answer 0)) ∧
    (∀ a as, (s.pe p).filled = a :: as → ∃ t, exec (.rxBufferPop i p) s = .next t ∧ t.data = BitVec.ofNat 32 a ∧ (t.pe p).filled = as)) ∧
  (∀ (s : State) (i : Initiator) (p : Fin 2) (q : Fin 8) (v : Word), s.power.furled = false →
    let out := fun (t : State) => tabGet (fun _ => 0) (t.inis i).peOut (PE_Q_PUSH p q)
    let a := v.toNat
    let w := s.rd32 (a + 4)
    (s.fld (PE_P_CTL_EN p) = 0 → ∃ t, exec (.txDescriptorPush i p q v) s = .next t ∧ out t = 4 ∧ t.host = s.host) ∧
    (s.fld (PE_P_CTL_EN p) = 1 → (a % 32 ≠ 0 ∨ w % 2048 < 14 ∨ 1518 < w % 2048) → ∃ t, exec (.txDescriptorPush i p q v) s = .next t ∧ out t = 3 ∧ t.host = s.host) ∧
    (s.fld (PE_P_CTL_EN p) = 1 → a % 32 = 0 → 14 ≤ w % 2048 → w % 2048 ≤ 1518 → w = w % 2048 + 65536 * (w / 65536 % 2) → s.rd32 (a + 0xC) = 0 →
      (64 ≤ (s.txq p q).length → ∃ t, exec (.txDescriptorPush i p q v) s = .next t ∧ out t = 2 ∧ t.host = s.host) ∧
      ((s.txq p q).length < 64 → ∃ t, exec (.txDescriptorPush i p q v) s = .next t ∧ out t = 1 ∧ t.txq p q = s.txq p q ++ [(a, false)] ∧ t.rd32 (a + 0x10) = 0))) ∧
  (∀ (s : State) (i : Initiator) (p : Fin 2) (q : Fin 8), s.power.furled = false →
    (∀ a ds, s.txq p q = (a, true) :: ds → ∃ t, exec (.txDescriptorPop i p q) s = .next t ∧ t.data = BitVec.ofNat 32 a ∧ t.txq p q = ds) ∧
    ((s.txq p q = [] ∨ ∃ a ds, s.txq p q = (a, false) :: ds) → exec (.txDescriptorPop i p q) s = .next (s.answer 0)) ∧
    (s.txDue p q = false → exec (.launchTime p q) s = .next s) ∧
    (∀ d, s.txHead p q = some d → s.txDue p q = true → (∀ r, q.val < r → r < 8 → s.txDue p r = false) → (s.pe p).sending = none → s.fld (PE_P_CTL_EN p) = 1 →
      s.fld (PE_P_STAT_LINK p) = 1 → ∃ t, exec (.launchTime p q) s = .next t ∧ (t.pe p).sending = some (q.val, d, false) ∧ t.regs = s.regs ∧
        (t.pe p).sent.take (s.rd32 (d + 4) % 2048) = s.rdBytes (s.rd32 d) (s.rd32 (d + 4) % 2048))) ∧
  (∀ (s : State) (p : Fin 2) (ts : Stamp), s.power.furled = false →
    ((s.pe p).sending = none → exec (.frameTransmitted p ts) s = .next s) ∧
    (∀ q d late ds, (s.pe p).sending = some (q, d, late) → s.txq p q = (d, false) :: ds →
      ∃ t, exec (.frameTransmitted p ts) s = .next t ∧ t.txq p q = (d, true) :: ds ∧ t.rd32 (d + 0x14) = (s.stampOn (88 + p.val) ts).ns.toNat ∧ t.rd32 (d + 0x10) = 1 + 4 * b2n late)) ∧
  (∀ (s : State) (p : Fin 2) (sp : Fin 4) (fd : Bool), s.power.furled = false →
    (∃ t, exec (.peLinkUp p sp fd) s = .next t ∧ t.fld (PE_P_STAT_LINK p) = 1 ∧ t.fld (PE_P_STAT_SPEED p) = sp.val ∧ t.fld (PE_P_STAT_FD p) = b2n fd) ∧
    (∃ t, exec (.peLinkDown p) s = .next t ∧ t.reg (PE_P_STAT p) = 0 ∧ t.mem = s.mem ∧ ∀ a, a ≠ PE_P_STAT p → t.reg a = s.reg a))

/-- HDS_READ and HDS_WRITE (R367 to R369): a source in no allow entry is counted in DENY and gets no response, an allowed one while the service is off in BAD. A request is counted in REQ and answered: FORMAT for a malformed one,
the kept response again for the tag of the last request, NOWRITE for a write without WREN, and OK for one that is carried out, whose response is kept. -/
def Obligations.DatagramServiceAnswersItsSources : Prop :=
  (∀ (s : State) (p : Fin 2) (src : Word) (pl : List Byte), (s.power.furled = true ∨ s.hdsPort p = false ∨ s.fld (PE_P_CTL_EN p) = 0) →
    exec (.hdsRead p src pl) s = .next s ∧ exec (.hdsWrite p src pl) s = .next s) ∧
  (∀ (s : State) (p : Fin 2) (src : Word) (pl : List Byte), s.power.furled = false → s.hdsPort p = true → s.fld (PE_P_CTL_EN p) = 1 → s.stuck .host = false →
    ∀ c op, (c, op) ∈ [(Instr.hdsRead p src pl, 1), (Instr.hdsWrite p src pl, 2)] →
    let q := hdsRow pl op
    (s.hdsEntry src = none → ∃ t, exec c s = .next t ∧ t.fld PE_HDS_CNT_DENY = min 255 (s.fld PE_HDS_CNT_DENY + 1) ∧ t.host = s.host ∧ t.mem = s.mem) ∧
    (∀ e, s.hdsEntry src = some e →
      let last := tabGet (fun _ => HdsLast.reset) s.host.hds e
      (s.fld PE_HDS_CTL_EN = 0 → ∃ t, exec c s = .next t ∧ t.fld PE_HDS_CNT_BAD = min 255 (s.fld PE_HDS_CNT_BAD + 1) ∧ t.host = s.host ∧ t.mem = s.mem) ∧
      (s.fld PE_HDS_CTL_EN = 1 →
        (hdsFormat q = false → ∃ t, exec c s = .next t ∧ (t.pe p).reply = hdsHead q 2 ∧ t.fld PE_HDS_CNT_REQ = min 65535 (s.fld PE_HDS_CNT_REQ + 1) ∧ t.mem = s.mem) ∧
        (hdsFormat q = true → last.used = true → last.tag = leAt q 4 4 →
          ∃ t, exec c s = .next t ∧ (t.pe p).reply = last.response ∧ t.mem = s.mem ∧ t.fld PE_HDS_CNT_REQ = min 65535 (s.fld PE_HDS_CNT_REQ + 1)) ∧
        (hdsFormat q = true → (last.used = false ∨ last.tag ≠ leAt q 4 4) →
          (op = 2 → s.fld PE_HDS_CTL_WREN = 0 → ∃ t, exec c s = .next t ∧ (t.pe p).reply = hdsHead q 1 ∧ t.mem = s.mem) ∧
          (op = 2 → s.fld PE_HDS_CTL_WREN = 1 → ∃ t, exec c s = .next t ∧ (t.pe p).reply = hdsHead q 0 ∧
            tabGet (fun _ => HdsLast.reset) t.host.hds e = ⟨true, leAt q 4 4, hdsHead q 0⟩) ∧
          (op = 1 → leAt q 12 2 = 1 → leAt q 8 4 < 0x100000 → ∃ t, exec c s = .next t ∧
            (t.pe p).reply = hdsHead q 0 ++ leBytes 4 (({ s.incFld PE_HDS_CNT_REQ with burst := [] } : State).regRead .host (leAt q 8 4)).data.toNat ∧
            tabGet (fun _ => HdsLast.reset) t.host.hds e = ⟨true, leAt q 4 4, (t.pe p).reply⟩)))))

/-! ### Power, resets and memory errors (chapters Module Power, Clocks and Reset and Faults and the Fault Record) -/

/-- UNDER_WAY, REEF and FURL (R388 to R391): a request is judged in the order of R388's table, and refused with its reason; UNDER_WAY while an apply runs with RIG_APPLYING. An
accepted UNDER_WAY is under way at once, with the 400 MHz time base and the cores running; an accepted REEF waits for the items in service, then for the lines that are not IDLE, and without either the
module is HALTED and reefed at once; an accepted FURL takes the switched domains down, the outputs with them. -/
def Obligations.PowerRequestsAreJudgedAndCarriedOut : Prop :=
  (∀ (s : State) (i : Initiator), s.power.furled = false →
    (s.rig.job.isSome = true → exec (.underWay i) s = .next (s.pwrRefuse 3)) ∧
    (2 ≤ s.fld GLB_PWR_STAT_STATE → (s.rig.job = none → exec (.underWay i) s = .next (s.pwrRefuse 8)) ∧
      exec (.reef i) s = .next (s.pwrRefuse 8) ∧ exec (.furl i) s = .next (s.pwrRefuse 8)) ∧
    (s.fld GLB_PWR_STAT_STATE = 0 →
      (s.rig.job = none → exec (.underWay i) s = .next (s.pwrRefuse 7)) ∧ exec (.furl i) s = .next (s.pwrRefuse 7) ∧
      ((∃ k, k < 64 ∧ (s.joint k).state.live = true) → exec (.reef i) s = .next (s.pwrRefuse 1)) ∧
      ((∀ k, k < 64 → (s.joint k).state.live = false) →
        ((∃ g, g < 8 ∧ s.fld (PW_G_CTL_EN g) = 1) → exec (.reef i) s = .next (s.pwrRefuse 2)) ∧
        ((∀ g, g < 8 → s.fld (PW_G_CTL_EN g) = 0) →
          (s.axesMoving = true → exec (.reef i) s = .next (s.pwrRefuse 5)) ∧
          (s.axesMoving = false →
            (s.allDone = true → s.linesIdle = false → ∃ t, exec (.reef i) s = .next t ∧ t.fld GLB_PWR_STAT_STATE = 3 ∧ t.power.reefWait = true ∧
              t.power.reefLines = true ∧ t.hal.stopped = true ∧ t.cores = s.cores) ∧
            (s.allDone = true → s.linesIdle = true → ∃ t, exec (.reef i) s = .next t ∧ t.fld GLB_PWR_STAT_STATE = 1 ∧ t.fld CT_STAT_CLKMODE = 1 ∧ t.role = 4 ∧ t.cores.running = false ∧
              t.power.reefWait = false) ∧
            (s.allDone = false → ∃ t, exec (.reef i) s = .next t ∧ t.fld GLB_PWR_STAT_STATE = 3 ∧ t.power.reefWait = true ∧ t.hal.stopped = true ∧
              t.cores = s.cores))))) ∧
    (s.fld GLB_PWR_STAT_STATE = 1 → s.power.reefWait = false →
      exec (.reef i) s = .next (s.pwrRefuse 7) ∧
      (s.rig.job = none →
        (s.hasRig = false → exec (.underWay i) s = .next (s.pwrRefuse 4)) ∧
        (s.hasRig = true → s.fld GLB_VBAK_AGOOD = 0 → s.fld GLB_VBAK_BGOOD = 0 → exec (.underWay i) s = .next (s.pwrRefuse 6)) ∧
        (s.hasRig = true → (s.fld GLB_VBAK_AGOOD = 1 ∨ s.fld GLB_VBAK_BGOOD = 1) →
          ∃ t, exec (.underWay i) s = .next t ∧ t.fld GLB_PWR_STAT_STATE = 0 ∧ t.fld CT_STAT_CLKMODE = 0 ∧ t.cores.running = true ∧ t.hal.stopped = false)) ∧
      (∃ t, exec (.furl i) s = .next t ∧ t.power.furled = true ∧ t.fld GLB_PWR_STAT_FURLCAUSE = 1 ∧ t.fld GLB_PWR_STAT_STATE = 2 ∧ t.fld CT_STAT_CLKMODE = 2 ∧
        t.mem = [] ∧ t.joints = [] ∧ t.time.ct = s.time.ct ∧ ∀ j, t.doOn j = false)))

/-- WAKE_PIN, ALARM_ARM, WAKE_ALARM, FEED_FAIL, FEED_GOOD, POWER_FAIL, THERMAL_FURL and TEMPERATURE_READING (R384, R385, R391 to R394, R399): an enabled wake source wakes a furled module, with its number in WAKESRC, and requests UNDER_WAY of a reefed one. An alarm
that is reached disarms. A feed's fall and return show in its bit; a power fail or the thermal limit furls at once with its cause, the outputs off; a module furled by heat stays so until a
reading below WARN. -/
def Obligations.WakeSourcesAndSuppliesMoveTheModule : Prop :=
  (∀ s : State,
    (s.fld GLB_WAKE_CFG_PIN = 0 → exec .wakePin s = .next s) ∧
    (s.fld GLB_WAKE_CFG_PIN = 1 →
      (s.power.furled = true → s.power.thermal = false → ∃ t, exec .wakePin s = .next t ∧ t.power.furled = false ∧ t.fld GLB_RSTCAUSE_CAUSE = 6 ∧
        t.fld GLB_PWR_STAT_WAKESRC = 1 ∧ t.fld GLB_PWR_STAT_STATE = 2 ∧ t.fld CT_STAT_STEPPED = 0) ∧
      (s.power.furled = true → s.power.thermal = true → exec .wakePin s = .next s) ∧
      (s.power.furled = false → s.fld GLB_PWR_STAT_STATE = 1 → exec .wakePin s = .next (s.pwrRequest 1 1)) ∧
      (s.power.furled = false → s.fld GLB_PWR_STAT_STATE ≠ 1 → exec .wakePin s = .next s)) ∧
    (s.fld GLB_WAKE_STAT_ARMED = 0 ∨ s.nowNs < (s.reg GLB_WAKE_AT_HI).toNat * 2 ^ 32 + (s.reg GLB_WAKE_AT_LO).toNat → exec .wakeAlarm s = .next s) ∧
    (s.fld GLB_WAKE_STAT_ARMED = 1 → (s.reg GLB_WAKE_AT_HI).toNat * 2 ^ 32 + (s.reg GLB_WAKE_AT_LO).toNat ≤ s.nowNs →
      (s.fld GLB_WAKE_CFG_ALARM = 0 → exec .wakeAlarm s = .next (s.setFld GLB_WAKE_STAT_ARMED 0)) ∧
      (s.fld GLB_WAKE_CFG_ALARM = 1 → s.power.furled = true → s.power.thermal = false → ∃ t, exec .wakeAlarm s = .next t ∧ t.power.furled = false ∧
        t.fld GLB_WAKE_STAT_ARMED = 0 ∧ t.fld GLB_PWR_STAT_WAKESRC = 2) ∧
      (s.fld GLB_WAKE_CFG_ALARM = 1 → s.power.furled = false → s.fld GLB_PWR_STAT_STATE = 1 →
        exec .wakeAlarm s = .next ((s.setFld GLB_WAKE_STAT_ARMED 0).pwrRequest 2 1)))) ∧
  (∀ (s : State) (i : Initiator) (v : Word), s.power.furled = false →
    ∃ t, exec (.alarmArm i v) s = .next t ∧ t.reg GLB_WAKE_AT_HI = v ∧ t.fld GLB_WAKE_STAT_ARMED = 1 ∧
      ∀ a, a ≠ GLB_WAKE_AT_HI → a ≠ GLB_WAKE_STAT → t.reg a = s.reg a) ∧
  (∀ (s : State) (mv : BitVec 16),
    (∃ t, exec (.feedFail false mv) s = .next t ∧ t.fld GLB_FEED_STAT_VA = mv.toNat ∧ t.fld GLB_VBAK_AGOOD = 0 ∧ t.fld GLB_VBAK_BGOOD = s.fld GLB_VBAK_BGOOD ∧
      (t.reg (GLB_FAULT_STICKY 0)).getLsbD 10 = true) ∧
    (∃ t, exec (.feedFail true mv) s = .next t ∧ t.fld GLB_FEED_STAT_VB = mv.toNat ∧ t.fld GLB_VBAK_BGOOD = 0 ∧ t.fld GLB_VBAK_AGOOD = s.fld GLB_VBAK_AGOOD ∧
      (t.reg (GLB_FAULT_STICKY 0)).getLsbD 11 = true) ∧
    ((s.power.furled = false ∨ s.power.failed = false ∨ s.fld GLB_WAKE_CFG_FEED = 0) →
      (∃ t, exec (.feedGood false mv) s = .next t ∧ t.fld GLB_FEED_STAT_VA = mv.toNat ∧ t.fld GLB_VBAK_AGOOD = 1 ∧ t.fld GLB_VBAK_AOSRC = 0 ∧ t.power = s.power) ∧
      (∃ t, exec (.feedGood true mv) s = .next t ∧ t.fld GLB_FEED_STAT_VB = mv.toNat ∧ t.fld GLB_VBAK_BGOOD = 1 ∧ t.fld GLB_VBAK_AOSRC = 0 ∧ t.power = s.power)) ∧
    (s.power.furled = true → s.power.failed = true → s.fld GLB_WAKE_CFG_FEED = 1 → s.power.thermal = false → ∀ b,
      ∃ t, exec (.feedGood b mv) s = .next t ∧ t.power.furled = false ∧ t.fld GLB_RSTCAUSE_CAUSE = 1 ∧ t.fld GLB_PWR_STAT_WAKESRC = 3) ∧
    (∃ t, exec (.powerFail mv) s = .next t ∧ t.power.furled = true ∧ t.power.failed = true ∧ t.fld GLB_PWR_STAT_FURLCAUSE = 2 ∧ t.fld GLB_VBAK_AOSRC = 1 ∧
      t.fld GLB_VBAK_MV = mv.toNat ∧ (t.reg (GLB_FAULT_STICKY 0)).getLsbD 12 = true ∧ t.mem = [] ∧ ∀ j, t.doOn j = false) ∧
    (∃ t, exec .thermalFurl s = .next t ∧ t.power.furled = true ∧ t.power.thermal = true ∧ t.fld GLB_PWR_STAT_FURLCAUSE = 3 ∧ t.mem = [] ∧ ∀ j, t.doOn j = false) ∧
    (∃ t, exec (.temperatureReading mv) s = .next t ∧ t.fld GLB_TEMP_TEMP = mv.toNat ∧
      (toS 16 (s.fld GLB_TEMP_WARN) < mv.toInt → (t.reg (GLB_FAULT_STICKY 0)).getLsbD 13 = true ∧ t.power = s.power) ∧
      (s.power.thermal = true → mv.toInt < toS 16 (s.fld GLB_TEMP_WARN) → t.power.thermal = false ∧ t.power.furled = false ∧ t.fld GLB_RSTCAUSE_CAUSE = 5)))

/-- POR, PD_AO_LOSS, POWER_GOOD, RESET_PIN, SOFTWARE_RESET, WATCHDOG_KICK and WATCHDOG_EXPIRY (R37, R382, R385, R394 to R398): power-on of PD_AO without retained state leaves cell time 0 and TIME_LOST, the loss of PD_AO the registers and the time at their
reset values and the module furled; the fuses keep, and the flash where no operation on it runs. POWER_GOOD samples the straps and starts the apply. A reset ends in the wake of the switched domains with its cause; a software reset needs its bit and its magic number, the watchdog is
restarted by 0x5A5A alone. -/
def Obligations.ResetsGoThroughFurledWithTheirCause : Prop :=
  (∀ s : State,
    (∃ t, exec .por s = .next t ∧ t.time.ct = 0 ∧ t.fld CT_STAT_VALID = 0 ∧ t.fld CT_STAT_STEPPED = 0 ∧
      (t.reg (GLB_FAULT_STICKY 0)).getLsbD 9 = true ∧ t.rig.roll = s.rig.roll ∧ t.rig.keys = s.rig.keys ∧
      (s.rig.flash = none → s.rig.calJob = false → t.flash = s.flash) ∧
      t.mem = [] ∧ t.pending = s.pending) ∧
    (∃ t, exec .pdAoLoss s = .next t ∧ t.power.furled = true ∧ t.regs = State.reset.regs ∧ t.time = State.reset.time ∧ t.mem = [] ∧ t.log.entries = [] ∧
      t.rig.roll = s.rig.roll ∧ t.rig.keys = s.rig.keys ∧ t.rig.keyrev = s.rig.keyrev ∧ t.rig.keylock = s.rig.keylock ∧
      (s.rig.flash = none → s.rig.calJob = false → t.flash = s.flash)) ∧
    (s.power.thermal = false →
      ∃ t, exec .resetPin s = .next t ∧ t.power.furled = false ∧ t.fld GLB_RSTCAUSE_CAUSE = 2 ∧ t.fld GLB_PWR_STAT_STATE = 2 ∧ t.fld CT_STAT_STEPPED = 0 ∧
        t.mem = [] ∧ t.joints = [] ∧ t.time.ct = s.time.ct ∧ (s.underWay = false → ∀ w, w < 8 → t.reg (GLB_FAULT_STICKY w) = s.reg (GLB_FAULT_STICKY w))) ∧
    (s.power.thermal = true → ∃ t, exec .resetPin s = .next t ∧ t.power.furled = true) ∧
    (s.wdtRuns = true → s.wdtNow = 0 → s.power.thermal = false →
      ∃ t, exec .watchdogExpiry s = .next t ∧ t.power.furled = false ∧ t.fld GLB_RSTCAUSE_CAUSE = 4 ∧ t.fld GLB_PWR_STAT_STATE = 2 ∧ t.mem = []) ∧
    (s.wdtRuns = false ∨ s.wdtNow ≠ 0 → exec .watchdogExpiry s = .next s)) ∧
  (∀ (s : State) (i : Initiator) (v : Word), s.power.furled = false →
    (v.getLsbD 0 = true → bits v.toNat 16 16 = 0xC0DE → s.power.thermal = false →
      ∃ t, exec (.softwareReset i v) s = .next t ∧ t.power.furled = false ∧ t.fld GLB_RSTCAUSE_CAUSE = 3 ∧ t.fld GLB_PWR_STAT_STATE = 2 ∧ t.mem = []) ∧
    ((v.getLsbD 0 = false ∨ bits v.toNat 16 16 ≠ 0xC0DE) → exec (.softwareReset i v) s = .next s) ∧
    (v.toNat % 65536 = 0x5A5A → ∃ t, exec (.watchdogKick i v) s = .next t ∧ t.wdtNow = s.wdtTimeout ∧ t.regs = s.regs ∧ t.mem = s.mem) ∧
    (v.toNat % 65536 ≠ 0x5A5A → exec (.watchdogKick i v) s = .next s)) ∧
  (∀ (s : State) (en id : Bool),
    ((s.power.furled = true ∨ s.power.pgood = true) → exec (.powerGood en id) s = .next s) ∧
    (s.power.furled = false → s.power.pgood = false → (∀ x, x < 2 → s.slotMagic x = false) →
      ∃ t, exec (.powerGood en id) s = .next t ∧ t.power.pgood = true ∧ t.fld PR_CTL_PAIREN = b2n en ∧ t.fld PR_CTL_PAIRID = b2n id ∧
        t.fld CT_STAT_CLKMODE = 1 ∧ t.fld RG_STAT_STATE = 1 ∧ t.rig.job = some ⟨0, [], false, 0, 2, false⟩))

/-- ECC_ERROR (R98, R120, R148, R371): a corrected error is counted in its memory's counter and does nothing else. An uncorrectable one sets the sticky bit of its memory, ECC_GSRAM, ECC_DRAM or ECC_TCM, and raises an
exception in the core that read general SRAM or DRAM; one in a safety core's memory halts that core; one in an engine's memory or the canvas SRAM marks its word alone, one in the ticket table nothing; one in a lane in
service takes it out. The word stays marked until it is written (with the log ring off, and read by no lane, which writes its result). A furled module reads nothing. -/
def Obligations.UncorrectableErrorsAreReported : Prop :=
  ∀ (s : State) (addr : Word) (r : EccReader) (m : EccMem),
    (s.power.furled = true → ∀ b, exec (.eccError ⟨m, b⟩ addr r) s = .next s) ∧
    (s.power.furled = false → exec (.eccError ⟨m, true⟩ addr r) s = .next (s.incFld (eccCounter m))) ∧
    (s.power.furled = false → ∃ t, exec (.eccError ⟨m, false⟩ addr r) s = .next t ∧
      (m = .gsram → (t.reg (GLB_FAULT_STICKY 1)).getLsbD 0 = true) ∧ (m = .dram → (t.reg (GLB_FAULT_STICKY 1)).getLsbD 1 = true) ∧
      (∀ i, m = .gsram ∨ m = .dram → r = .core i → tabGet (fun _ => none) t.cores.exc i.num = some .loadFault) ∧
      (∀ c, m = .tcmAc c → (t.reg (GLB_FAULT_STICKY 1)).getLsbD 2 = true) ∧
      (∀ c, m = .tcmSc c → (t.reg (GLB_FAULT_STICKY 1)).getLsbD 2 = true ∧ t.scHalted c = true) ∧
      ((∃ n, m = .engine n) ∨ m = .canvas → t = s.markBad addr.toNat) ∧ (m = .tickets → t = s) ∧
      (∀ k, m = .lane k → s.spServ k = true → (t.spLane k).out = true ∧ (t.spLane k).run = none ∧ (t.reg (GLB_FAULT_STICKY 1)).getLsbD 3 = true) ∧
      (∀ k, m = .lane k → s.spServ k = false → t = s) ∧
      (s.fld GLB_RING_LEN_LEN = 0 → (∀ k, r ≠ .spar k) → (∀ k, m ≠ .lane k) → m ≠ .tickets → addr.toNat / 4 * 4 ∈ t.eccBad))
end

