-- ==== Sys2Proof/Laws/Bits.lean ====
section
/-! SUPPORT. The laws of bit fields: reading a field after writing it, and another one. -/

namespace Sys2Proof.Machine

theorem bits_lt (v lo w : Nat) : bits v lo w < 2 ^ w := Nat.mod_lt _ (Nat.two_pow_pos w)

/-- A number by the three parts that a field cuts it into. -/
theorem bits_split (v lo w : Nat) : v = v % 2 ^ lo + bits v lo w * 2 ^ lo + v / 2 ^ (lo + w) * 2 ^ (lo + w) := by
  have h1 := Nat.div_add_mod v (2 ^ lo)
  have h2 := Nat.div_add_mod (v / 2 ^ lo) (2 ^ w)
  rw [Nat.div_div_eq_div_mul, ← Nat.pow_add] at h2
  simp only [bits, Nat.shiftRight_eq_div_pow]
  have h3 : 2 ^ lo * (2 ^ w * (v / 2 ^ (lo + w))) = v / 2 ^ (lo + w) * 2 ^ (lo + w) := by
    rw [← Nat.mul_assoc, ← Nat.pow_add, Nat.mul_comm]
  have h4 : 2 ^ lo * (v / 2 ^ lo) = v / 2 ^ (lo + w) * 2 ^ (lo + w) + v / 2 ^ lo % 2 ^ w * 2 ^ lo := by
    rw [← h3, Nat.mul_comm (v / 2 ^ lo % 2 ^ w), ← Nat.mul_add, h2]
  omega

theorem putBits_eq (v lo w x : Nat) :
    putBits v lo w x = v % 2 ^ lo + x % 2 ^ w * 2 ^ lo + v / 2 ^ (lo + w) * 2 ^ (lo + w) := by
  have h := bits_split v lo w
  unfold putBits
  omega

/-- Reading the field that was written. -/
theorem bits_putBits (v lo w x : Nat) : bits (putBits v lo w x) lo w = x % 2 ^ w := by
  rw [putBits_eq]
  simp only [bits, Nat.shiftRight_eq_div_pow]
  have e : v % 2 ^ lo + x % 2 ^ w * 2 ^ lo + v / 2 ^ (lo + w) * 2 ^ (lo + w)
      = v % 2 ^ lo + 2 ^ lo * (x % 2 ^ w + v / 2 ^ (lo + w) * 2 ^ w) := by
    rw [Nat.mul_add, Nat.pow_add, Nat.mul_comm (2 ^ lo) (x % 2 ^ w)]
    have : 2 ^ lo * (v / (2 ^ lo * 2 ^ w) * 2 ^ w) = v / (2 ^ lo * 2 ^ w) * (2 ^ lo * 2 ^ w) := by
      rw [Nat.mul_comm (2 ^ lo) (v / _ * _), Nat.mul_assoc, Nat.mul_comm (2 ^ w)]
    omega
  rw [e, Nat.add_mul_div_left _ _ (Nat.two_pow_pos lo), Nat.div_eq_of_lt (Nat.mod_lt _ (Nat.two_pow_pos lo)), Nat.zero_add,
    Nat.add_mul_mod_self_right, Nat.mod_mod]

/-- A bit of a number after a field was written. -/
theorem testBit_putBits (v lo w x i : Nat) :
    (putBits v lo w x).testBit i = if lo ≤ i ∧ i < lo + w then x.testBit (i - lo) else v.testBit i := by
  have hp : putBits v lo w x = 2 ^ (lo + w) * (v / 2 ^ (lo + w)) + (2 ^ lo * (x % 2 ^ w) + v % 2 ^ lo) := by
    rw [putBits_eq, Nat.mul_comm (2 ^ (lo + w)), Nat.mul_comm (2 ^ lo) (x % 2 ^ w)]; omega
  have hlt : 2 ^ lo * (x % 2 ^ w) + v % 2 ^ lo < 2 ^ (lo + w) := by
    have h1 := Nat.mod_lt x (Nat.two_pow_pos w)
    have h2 := Nat.mod_lt v (Nat.two_pow_pos lo)
    have h3 : 2 ^ lo * (x % 2 ^ w + 1) ≤ 2 ^ lo * 2 ^ w := Nat.mul_le_mul_left _ h1
    rw [Nat.mul_add, Nat.mul_one] at h3
    rw [Nat.pow_add]
    omega
  rw [hp, Nat.testBit_two_pow_mul_add _ hlt, Nat.testBit_two_pow_mul_add _ (Nat.mod_lt v (Nat.two_pow_pos lo))]
  by_cases h1 : i < lo
  · have : ¬ lo ≤ i := by omega
    have h2 : i < lo + w := by omega
    simp [h1, h2, this, Nat.testBit_mod_two_pow]
  · have h1' : lo ≤ i := by omega
    by_cases h2 : i < lo + w
    · simp [h1, h1', h2, Nat.testBit_mod_two_pow]
      intro _; omega
    · have e : lo + w + (i - (lo + w)) = i := by omega
      simp [h1', h2, Nat.testBit_div_two_pow, e, Nat.add_comm]

theorem testBit_bits (v lo w i : Nat) : (bits v lo w).testBit i = (decide (i < w) && v.testBit (lo + i)) := by
  simp [bits, Nat.testBit_mod_two_pow, Nat.testBit_shiftRight]

/-- Reading a field that does not meet the one that was written. -/
theorem bits_putBits_disjoint (v lo w x lo' w' : Nat) (h : lo + w ≤ lo' ∨ lo' + w' ≤ lo) :
    bits (putBits v lo w x) lo' w' = bits v lo' w' := by
  apply Nat.eq_of_testBit_eq
  intro i
  rw [testBit_bits, testBit_bits, testBit_putBits]
  by_cases hi : i < w'
  · have : ¬ (lo ≤ lo' + i ∧ lo' + i < lo + w) := by omega
    simp [this]
  · simp [hi]

theorem putBits_lt (v lo w x n : Nat) (hv : v < 2 ^ n) (h : lo + w ≤ n) : putBits v lo w x < 2 ^ n := by
  apply Nat.lt_pow_two_of_testBit
  intro i hi
  rw [testBit_putBits]
  have : ¬ (lo ≤ i ∧ i < lo + w) := by omega
  simp only [this, if_false]
  exact Nat.testBit_lt_two_pow (Nat.lt_of_lt_of_le hv (Nat.pow_le_pow_right (by decide) hi))

end Sys2Proof.Machine
end

