-- ==== Sys2Proof/Laws/State.lean ====
section
/-! SUPPORT. What each named update of the state leaves alone: one lemma for each update and field, true by rfl. -/

namespace Sys2Proof.Machine

variable (s : State)

@[simp] theorem State.setReg_eff (a : Nat) (v : Word) : (s.setReg a v).eff = s.eff := rfl
@[simp] theorem State.setReg_mem (a : Nat) (v : Word) : (s.setReg a v).mem = s.mem := rfl
@[simp] theorem State.setReg_flash (a : Nat) (v : Word) : (s.setReg a v).flash = s.flash := rfl
@[simp] theorem State.setReg_eccBad (a : Nat) (v : Word) : (s.setReg a v).eccBad = s.eccBad := rfl
@[simp] theorem State.setReg_time (a : Nat) (v : Word) : (s.setReg a v).time = s.time := rfl
@[simp] theorem State.setReg_ini (a : Nat) (v : Word) : (s.setReg a v).ini = s.ini := rfl
@[simp] theorem State.setReg_hal (a : Nat) (v : Word) : (s.setReg a v).hal = s.hal := rfl
@[simp] theorem State.setReg_cores (a : Nat) (v : Word) : (s.setReg a v).cores = s.cores := rfl
@[simp] theorem State.setReg_log (a : Nat) (v : Word) : (s.setReg a v).log = s.log := rfl
@[simp] theorem State.setReg_rigging (a : Nat) (v : Word) : (s.setReg a v).rigging = s.rigging := rfl
@[simp] theorem State.setReg_host (a : Nat) (v : Word) : (s.setReg a v).host = s.host := rfl
@[simp] theorem State.setReg_power (a : Nat) (v : Word) : (s.setReg a v).power = s.power := rfl
@[simp] theorem State.setReg_joints (a : Nat) (v : Word) : (s.setReg a v).joints = s.joints := rfl
@[simp] theorem State.setReg_arms (a : Nat) (v : Word) : (s.setReg a v).arms = s.arms := rfl
@[simp] theorem State.setReg_engines (a : Nat) (v : Word) : (s.setReg a v).engines = s.engines := rfl
@[simp] theorem State.setReg_lines (a : Nat) (v : Word) : (s.setReg a v).lines = s.lines := rfl
@[simp] theorem State.setReg_fta (a : Nat) (v : Word) : (s.setReg a v).fta = s.fta := rfl
@[simp] theorem State.setReg_spar (a : Nat) (v : Word) : (s.setReg a v).spar = s.spar := rfl
@[simp] theorem State.setReg_canvas (a : Nat) (v : Word) : (s.setReg a v).canvas = s.canvas := rfl
@[simp] theorem State.setReg_shroud (a : Nat) (v : Word) : (s.setReg a v).shroud = s.shroud := rfl
@[simp] theorem State.setReg_pwm (a : Nat) (v : Word) : (s.setReg a v).pwm = s.pwm := rfl
@[simp] theorem State.setReg_ports (a : Nat) (v : Word) : (s.setReg a v).ports = s.ports := rfl
@[simp] theorem State.setReg_axes (a : Nat) (v : Word) : (s.setReg a v).axes = s.axes := rfl
@[simp] theorem State.setReg_field (a : Nat) (v : Word) : (s.setReg a v).field = s.field := rfl
@[simp] theorem State.setReg_can (a : Nat) (v : Word) : (s.setReg a v).can = s.can := rfl
@[simp] theorem State.setReg_pair (a : Nat) (v : Word) : (s.setReg a v).pair = s.pair := rfl
@[simp] theorem State.setReg_rig (a : Nat) (v : Word) : (s.setReg a v).rig = s.rig := rfl
@[simp] theorem State.setReg_data (a : Nat) (v : Word) : (s.setReg a v).data = s.data := rfl
@[simp] theorem State.setReg_burst (a : Nat) (v : Word) : (s.setReg a v).burst = s.burst := rfl
@[simp] theorem State.setReg_freeCtr (a : Nat) (v : Word) : (s.setReg a v).freeCtr = s.freeCtr := rfl
@[simp] theorem State.setReg_pending (a : Nat) (v : Word) : (s.setReg a v).pending = s.pending := rfl

@[simp] theorem State.setFld_eff (f : Fld) (v : Nat) : (s.setFld f v).eff = s.eff := rfl
@[simp] theorem State.setFld_mem (f : Fld) (v : Nat) : (s.setFld f v).mem = s.mem := rfl
@[simp] theorem State.setFld_flash (f : Fld) (v : Nat) : (s.setFld f v).flash = s.flash := rfl
@[simp] theorem State.setFld_eccBad (f : Fld) (v : Nat) : (s.setFld f v).eccBad = s.eccBad := rfl
@[simp] theorem State.setFld_time (f : Fld) (v : Nat) : (s.setFld f v).time = s.time := rfl
@[simp] theorem State.setFld_ini (f : Fld) (v : Nat) : (s.setFld f v).ini = s.ini := rfl
@[simp] theorem State.setFld_hal (f : Fld) (v : Nat) : (s.setFld f v).hal = s.hal := rfl
@[simp] theorem State.setFld_cores (f : Fld) (v : Nat) : (s.setFld f v).cores = s.cores := rfl
@[simp] theorem State.setFld_log (f : Fld) (v : Nat) : (s.setFld f v).log = s.log := rfl
@[simp] theorem State.setFld_rigging (f : Fld) (v : Nat) : (s.setFld f v).rigging = s.rigging := rfl
@[simp] theorem State.setFld_host (f : Fld) (v : Nat) : (s.setFld f v).host = s.host := rfl
@[simp] theorem State.setFld_power (f : Fld) (v : Nat) : (s.setFld f v).power = s.power := rfl
@[simp] theorem State.setFld_joints (f : Fld) (v : Nat) : (s.setFld f v).joints = s.joints := rfl
@[simp] theorem State.setFld_arms (f : Fld) (v : Nat) : (s.setFld f v).arms = s.arms := rfl
@[simp] theorem State.setFld_engines (f : Fld) (v : Nat) : (s.setFld f v).engines = s.engines := rfl
@[simp] theorem State.setFld_lines (f : Fld) (v : Nat) : (s.setFld f v).lines = s.lines := rfl
@[simp] theorem State.setFld_fta (f : Fld) (v : Nat) : (s.setFld f v).fta = s.fta := rfl
@[simp] theorem State.setFld_spar (f : Fld) (v : Nat) : (s.setFld f v).spar = s.spar := rfl
@[simp] theorem State.setFld_canvas (f : Fld) (v : Nat) : (s.setFld f v).canvas = s.canvas := rfl
@[simp] theorem State.setFld_shroud (f : Fld) (v : Nat) : (s.setFld f v).shroud = s.shroud := rfl
@[simp] theorem State.setFld_pwm (f : Fld) (v : Nat) : (s.setFld f v).pwm = s.pwm := rfl
@[simp] theorem State.setFld_ports (f : Fld) (v : Nat) : (s.setFld f v).ports = s.ports := rfl
@[simp] theorem State.setFld_axes (f : Fld) (v : Nat) : (s.setFld f v).axes = s.axes := rfl
@[simp] theorem State.setFld_field (f : Fld) (v : Nat) : (s.setFld f v).field = s.field := rfl
@[simp] theorem State.setFld_can (f : Fld) (v : Nat) : (s.setFld f v).can = s.can := rfl
@[simp] theorem State.setFld_pair (f : Fld) (v : Nat) : (s.setFld f v).pair = s.pair := rfl
@[simp] theorem State.setFld_rig (f : Fld) (v : Nat) : (s.setFld f v).rig = s.rig := rfl
@[simp] theorem State.setFld_data (f : Fld) (v : Nat) : (s.setFld f v).data = s.data := rfl
@[simp] theorem State.setFld_burst (f : Fld) (v : Nat) : (s.setFld f v).burst = s.burst := rfl
@[simp] theorem State.setFld_freeCtr (f : Fld) (v : Nat) : (s.setFld f v).freeCtr = s.freeCtr := rfl
@[simp] theorem State.setFld_pending (f : Fld) (v : Nat) : (s.setFld f v).pending = s.pending := rfl

@[simp] theorem State.setEff_regs (a : Nat) (v : Word) : (s.setEff a v).regs = s.regs := rfl
@[simp] theorem State.setEff_mem (a : Nat) (v : Word) : (s.setEff a v).mem = s.mem := rfl
@[simp] theorem State.setEff_flash (a : Nat) (v : Word) : (s.setEff a v).flash = s.flash := rfl
@[simp] theorem State.setEff_eccBad (a : Nat) (v : Word) : (s.setEff a v).eccBad = s.eccBad := rfl
@[simp] theorem State.setEff_time (a : Nat) (v : Word) : (s.setEff a v).time = s.time := rfl
@[simp] theorem State.setEff_ini (a : Nat) (v : Word) : (s.setEff a v).ini = s.ini := rfl
@[simp] theorem State.setEff_hal (a : Nat) (v : Word) : (s.setEff a v).hal = s.hal := rfl
@[simp] theorem State.setEff_cores (a : Nat) (v : Word) : (s.setEff a v).cores = s.cores := rfl
@[simp] theorem State.setEff_log (a : Nat) (v : Word) : (s.setEff a v).log = s.log := rfl
@[simp] theorem State.setEff_rigging (a : Nat) (v : Word) : (s.setEff a v).rigging = s.rigging := rfl
@[simp] theorem State.setEff_host (a : Nat) (v : Word) : (s.setEff a v).host = s.host := rfl
@[simp] theorem State.setEff_power (a : Nat) (v : Word) : (s.setEff a v).power = s.power := rfl
@[simp] theorem State.setEff_joints (a : Nat) (v : Word) : (s.setEff a v).joints = s.joints := rfl
@[simp] theorem State.setEff_arms (a : Nat) (v : Word) : (s.setEff a v).arms = s.arms := rfl
@[simp] theorem State.setEff_engines (a : Nat) (v : Word) : (s.setEff a v).engines = s.engines := rfl
@[simp] theorem State.setEff_lines (a : Nat) (v : Word) : (s.setEff a v).lines = s.lines := rfl
@[simp] theorem State.setEff_fta (a : Nat) (v : Word) : (s.setEff a v).fta = s.fta := rfl
@[simp] theorem State.setEff_spar (a : Nat) (v : Word) : (s.setEff a v).spar = s.spar := rfl
@[simp] theorem State.setEff_canvas (a : Nat) (v : Word) : (s.setEff a v).canvas = s.canvas := rfl
@[simp] theorem State.setEff_shroud (a : Nat) (v : Word) : (s.setEff a v).shroud = s.shroud := rfl
@[simp] theorem State.setEff_pwm (a : Nat) (v : Word) : (s.setEff a v).pwm = s.pwm := rfl
@[simp] theorem State.setEff_ports (a : Nat) (v : Word) : (s.setEff a v).ports = s.ports := rfl
@[simp] theorem State.setEff_axes (a : Nat) (v : Word) : (s.setEff a v).axes = s.axes := rfl
@[simp] theorem State.setEff_field (a : Nat) (v : Word) : (s.setEff a v).field = s.field := rfl
@[simp] theorem State.setEff_can (a : Nat) (v : Word) : (s.setEff a v).can = s.can := rfl
@[simp] theorem State.setEff_pair (a : Nat) (v : Word) : (s.setEff a v).pair = s.pair := rfl
@[simp] theorem State.setEff_rig (a : Nat) (v : Word) : (s.setEff a v).rig = s.rig := rfl
@[simp] theorem State.setEff_data (a : Nat) (v : Word) : (s.setEff a v).data = s.data := rfl
@[simp] theorem State.setEff_burst (a : Nat) (v : Word) : (s.setEff a v).burst = s.burst := rfl
@[simp] theorem State.setEff_freeCtr (a : Nat) (v : Word) : (s.setEff a v).freeCtr = s.freeCtr := rfl
@[simp] theorem State.setEff_pending (a : Nat) (v : Word) : (s.setEff a v).pending = s.pending := rfl

@[simp] theorem State.wrB_regs (a : Nat) (b : Byte) : (s.wrB a b).regs = s.regs := rfl
@[simp] theorem State.wrB_eff (a : Nat) (b : Byte) : (s.wrB a b).eff = s.eff := rfl
@[simp] theorem State.wrB_flash (a : Nat) (b : Byte) : (s.wrB a b).flash = s.flash := rfl
@[simp] theorem State.wrB_eccBad (a : Nat) (b : Byte) : (s.wrB a b).eccBad = s.eccBad := rfl
@[simp] theorem State.wrB_time (a : Nat) (b : Byte) : (s.wrB a b).time = s.time := rfl
@[simp] theorem State.wrB_ini (a : Nat) (b : Byte) : (s.wrB a b).ini = s.ini := rfl
@[simp] theorem State.wrB_hal (a : Nat) (b : Byte) : (s.wrB a b).hal = s.hal := rfl
@[simp] theorem State.wrB_cores (a : Nat) (b : Byte) : (s.wrB a b).cores = s.cores := rfl
@[simp] theorem State.wrB_log (a : Nat) (b : Byte) : (s.wrB a b).log = s.log := rfl
@[simp] theorem State.wrB_rigging (a : Nat) (b : Byte) : (s.wrB a b).rigging = s.rigging := rfl
@[simp] theorem State.wrB_host (a : Nat) (b : Byte) : (s.wrB a b).host = s.host := rfl
@[simp] theorem State.wrB_power (a : Nat) (b : Byte) : (s.wrB a b).power = s.power := rfl
@[simp] theorem State.wrB_joints (a : Nat) (b : Byte) : (s.wrB a b).joints = s.joints := rfl
@[simp] theorem State.wrB_arms (a : Nat) (b : Byte) : (s.wrB a b).arms = s.arms := rfl
@[simp] theorem State.wrB_engines (a : Nat) (b : Byte) : (s.wrB a b).engines = s.engines := rfl
@[simp] theorem State.wrB_lines (a : Nat) (b : Byte) : (s.wrB a b).lines = s.lines := rfl
@[simp] theorem State.wrB_fta (a : Nat) (b : Byte) : (s.wrB a b).fta = s.fta := rfl
@[simp] theorem State.wrB_spar (a : Nat) (b : Byte) : (s.wrB a b).spar = s.spar := rfl
@[simp] theorem State.wrB_canvas (a : Nat) (b : Byte) : (s.wrB a b).canvas = s.canvas := rfl
@[simp] theorem State.wrB_shroud (a : Nat) (b : Byte) : (s.wrB a b).shroud = s.shroud := rfl
@[simp] theorem State.wrB_pwm (a : Nat) (b : Byte) : (s.wrB a b).pwm = s.pwm := rfl
@[simp] theorem State.wrB_ports (a : Nat) (b : Byte) : (s.wrB a b).ports = s.ports := rfl
@[simp] theorem State.wrB_axes (a : Nat) (b : Byte) : (s.wrB a b).axes = s.axes := rfl
@[simp] theorem State.wrB_field (a : Nat) (b : Byte) : (s.wrB a b).field = s.field := rfl
@[simp] theorem State.wrB_can (a : Nat) (b : Byte) : (s.wrB a b).can = s.can := rfl
@[simp] theorem State.wrB_pair (a : Nat) (b : Byte) : (s.wrB a b).pair = s.pair := rfl
@[simp] theorem State.wrB_rig (a : Nat) (b : Byte) : (s.wrB a b).rig = s.rig := rfl
@[simp] theorem State.wrB_data (a : Nat) (b : Byte) : (s.wrB a b).data = s.data := rfl
@[simp] theorem State.wrB_burst (a : Nat) (b : Byte) : (s.wrB a b).burst = s.burst := rfl
@[simp] theorem State.wrB_freeCtr (a : Nat) (b : Byte) : (s.wrB a b).freeCtr = s.freeCtr := rfl
@[simp] theorem State.wrB_pending (a : Nat) (b : Byte) : (s.wrB a b).pending = s.pending := rfl

@[simp] theorem State.setFlB_regs (a : Nat) (b : Byte) : (s.setFlB a b).regs = s.regs := rfl
@[simp] theorem State.setFlB_eff (a : Nat) (b : Byte) : (s.setFlB a b).eff = s.eff := rfl
@[simp] theorem State.setFlB_mem (a : Nat) (b : Byte) : (s.setFlB a b).mem = s.mem := rfl
@[simp] theorem State.setFlB_eccBad (a : Nat) (b : Byte) : (s.setFlB a b).eccBad = s.eccBad := rfl
@[simp] theorem State.setFlB_time (a : Nat) (b : Byte) : (s.setFlB a b).time = s.time := rfl
@[simp] theorem State.setFlB_ini (a : Nat) (b : Byte) : (s.setFlB a b).ini = s.ini := rfl
@[simp] theorem State.setFlB_hal (a : Nat) (b : Byte) : (s.setFlB a b).hal = s.hal := rfl
@[simp] theorem State.setFlB_cores (a : Nat) (b : Byte) : (s.setFlB a b).cores = s.cores := rfl
@[simp] theorem State.setFlB_log (a : Nat) (b : Byte) : (s.setFlB a b).log = s.log := rfl
@[simp] theorem State.setFlB_rigging (a : Nat) (b : Byte) : (s.setFlB a b).rigging = s.rigging := rfl
@[simp] theorem State.setFlB_host (a : Nat) (b : Byte) : (s.setFlB a b).host = s.host := rfl
@[simp] theorem State.setFlB_power (a : Nat) (b : Byte) : (s.setFlB a b).power = s.power := rfl
@[simp] theorem State.setFlB_joints (a : Nat) (b : Byte) : (s.setFlB a b).joints = s.joints := rfl
@[simp] theorem State.setFlB_arms (a : Nat) (b : Byte) : (s.setFlB a b).arms = s.arms := rfl
@[simp] theorem State.setFlB_engines (a : Nat) (b : Byte) : (s.setFlB a b).engines = s.engines := rfl
@[simp] theorem State.setFlB_lines (a : Nat) (b : Byte) : (s.setFlB a b).lines = s.lines := rfl
@[simp] theorem State.setFlB_fta (a : Nat) (b : Byte) : (s.setFlB a b).fta = s.fta := rfl
@[simp] theorem State.setFlB_spar (a : Nat) (b : Byte) : (s.setFlB a b).spar = s.spar := rfl
@[simp] theorem State.setFlB_canvas (a : Nat) (b : Byte) : (s.setFlB a b).canvas = s.canvas := rfl
@[simp] theorem State.setFlB_shroud (a : Nat) (b : Byte) : (s.setFlB a b).shroud = s.shroud := rfl
@[simp] theorem State.setFlB_pwm (a : Nat) (b : Byte) : (s.setFlB a b).pwm = s.pwm := rfl
@[simp] theorem State.setFlB_ports (a : Nat) (b : Byte) : (s.setFlB a b).ports = s.ports := rfl
@[simp] theorem State.setFlB_axes (a : Nat) (b : Byte) : (s.setFlB a b).axes = s.axes := rfl
@[simp] theorem State.setFlB_field (a : Nat) (b : Byte) : (s.setFlB a b).field = s.field := rfl
@[simp] theorem State.setFlB_can (a : Nat) (b : Byte) : (s.setFlB a b).can = s.can := rfl
@[simp] theorem State.setFlB_pair (a : Nat) (b : Byte) : (s.setFlB a b).pair = s.pair := rfl
@[simp] theorem State.setFlB_rig (a : Nat) (b : Byte) : (s.setFlB a b).rig = s.rig := rfl
@[simp] theorem State.setFlB_data (a : Nat) (b : Byte) : (s.setFlB a b).data = s.data := rfl
@[simp] theorem State.setFlB_burst (a : Nat) (b : Byte) : (s.setFlB a b).burst = s.burst := rfl
@[simp] theorem State.setFlB_freeCtr (a : Nat) (b : Byte) : (s.setFlB a b).freeCtr = s.freeCtr := rfl
@[simp] theorem State.setFlB_pending (a : Nat) (b : Byte) : (s.setFlB a b).pending = s.pending := rfl

@[simp] theorem State.setTmr_regs (n : Nat) (x : Timer) : (s.setTmr n x).regs = s.regs := rfl
@[simp] theorem State.setTmr_eff (n : Nat) (x : Timer) : (s.setTmr n x).eff = s.eff := rfl
@[simp] theorem State.setTmr_mem (n : Nat) (x : Timer) : (s.setTmr n x).mem = s.mem := rfl
@[simp] theorem State.setTmr_flash (n : Nat) (x : Timer) : (s.setTmr n x).flash = s.flash := rfl
@[simp] theorem State.setTmr_eccBad (n : Nat) (x : Timer) : (s.setTmr n x).eccBad = s.eccBad := rfl
@[simp] theorem State.setTmr_ini (n : Nat) (x : Timer) : (s.setTmr n x).ini = s.ini := rfl
@[simp] theorem State.setTmr_hal (n : Nat) (x : Timer) : (s.setTmr n x).hal = s.hal := rfl
@[simp] theorem State.setTmr_cores (n : Nat) (x : Timer) : (s.setTmr n x).cores = s.cores := rfl
@[simp] theorem State.setTmr_log (n : Nat) (x : Timer) : (s.setTmr n x).log = s.log := rfl
@[simp] theorem State.setTmr_rigging (n : Nat) (x : Timer) : (s.setTmr n x).rigging = s.rigging := rfl
@[simp] theorem State.setTmr_host (n : Nat) (x : Timer) : (s.setTmr n x).host = s.host := rfl
@[simp] theorem State.setTmr_power (n : Nat) (x : Timer) : (s.setTmr n x).power = s.power := rfl
@[simp] theorem State.setTmr_joints (n : Nat) (x : Timer) : (s.setTmr n x).joints = s.joints := rfl
@[simp] theorem State.setTmr_arms (n : Nat) (x : Timer) : (s.setTmr n x).arms = s.arms := rfl
@[simp] theorem State.setTmr_engines (n : Nat) (x : Timer) : (s.setTmr n x).engines = s.engines := rfl
@[simp] theorem State.setTmr_lines (n : Nat) (x : Timer) : (s.setTmr n x).lines = s.lines := rfl
@[simp] theorem State.setTmr_fta (n : Nat) (x : Timer) : (s.setTmr n x).fta = s.fta := rfl
@[simp] theorem State.setTmr_spar (n : Nat) (x : Timer) : (s.setTmr n x).spar = s.spar := rfl
@[simp] theorem State.setTmr_canvas (n : Nat) (x : Timer) : (s.setTmr n x).canvas = s.canvas := rfl
@[simp] theorem State.setTmr_shroud (n : Nat) (x : Timer) : (s.setTmr n x).shroud = s.shroud := rfl
@[simp] theorem State.setTmr_pwm (n : Nat) (x : Timer) : (s.setTmr n x).pwm = s.pwm := rfl
@[simp] theorem State.setTmr_ports (n : Nat) (x : Timer) : (s.setTmr n x).ports = s.ports := rfl
@[simp] theorem State.setTmr_axes (n : Nat) (x : Timer) : (s.setTmr n x).axes = s.axes := rfl
@[simp] theorem State.setTmr_field (n : Nat) (x : Timer) : (s.setTmr n x).field = s.field := rfl
@[simp] theorem State.setTmr_can (n : Nat) (x : Timer) : (s.setTmr n x).can = s.can := rfl
@[simp] theorem State.setTmr_pair (n : Nat) (x : Timer) : (s.setTmr n x).pair = s.pair := rfl
@[simp] theorem State.setTmr_rig (n : Nat) (x : Timer) : (s.setTmr n x).rig = s.rig := rfl
@[simp] theorem State.setTmr_data (n : Nat) (x : Timer) : (s.setTmr n x).data = s.data := rfl
@[simp] theorem State.setTmr_burst (n : Nat) (x : Timer) : (s.setTmr n x).burst = s.burst := rfl
@[simp] theorem State.setTmr_freeCtr (n : Nat) (x : Timer) : (s.setTmr n x).freeCtr = s.freeCtr := rfl
@[simp] theorem State.setTmr_pending (n : Nat) (x : Timer) : (s.setTmr n x).pending = s.pending := rfl

@[simp] theorem State.setWin_regs (n : Nat) (x : Window) : (s.setWin n x).regs = s.regs := rfl
@[simp] theorem State.setWin_eff (n : Nat) (x : Window) : (s.setWin n x).eff = s.eff := rfl
@[simp] theorem State.setWin_mem (n : Nat) (x : Window) : (s.setWin n x).mem = s.mem := rfl
@[simp] theorem State.setWin_flash (n : Nat) (x : Window) : (s.setWin n x).flash = s.flash := rfl
@[simp] theorem State.setWin_eccBad (n : Nat) (x : Window) : (s.setWin n x).eccBad = s.eccBad := rfl
@[simp] theorem State.setWin_ini (n : Nat) (x : Window) : (s.setWin n x).ini = s.ini := rfl
@[simp] theorem State.setWin_hal (n : Nat) (x : Window) : (s.setWin n x).hal = s.hal := rfl
@[simp] theorem State.setWin_cores (n : Nat) (x : Window) : (s.setWin n x).cores = s.cores := rfl
@[simp] theorem State.setWin_log (n : Nat) (x : Window) : (s.setWin n x).log = s.log := rfl
@[simp] theorem State.setWin_rigging (n : Nat) (x : Window) : (s.setWin n x).rigging = s.rigging := rfl
@[simp] theorem State.setWin_host (n : Nat) (x : Window) : (s.setWin n x).host = s.host := rfl
@[simp] theorem State.setWin_power (n : Nat) (x : Window) : (s.setWin n x).power = s.power := rfl
@[simp] theorem State.setWin_joints (n : Nat) (x : Window) : (s.setWin n x).joints = s.joints := rfl
@[simp] theorem State.setWin_arms (n : Nat) (x : Window) : (s.setWin n x).arms = s.arms := rfl
@[simp] theorem State.setWin_engines (n : Nat) (x : Window) : (s.setWin n x).engines = s.engines := rfl
@[simp] theorem State.setWin_lines (n : Nat) (x : Window) : (s.setWin n x).lines = s.lines := rfl
@[simp] theorem State.setWin_fta (n : Nat) (x : Window) : (s.setWin n x).fta = s.fta := rfl
@[simp] theorem State.setWin_spar (n : Nat) (x : Window) : (s.setWin n x).spar = s.spar := rfl
@[simp] theorem State.setWin_canvas (n : Nat) (x : Window) : (s.setWin n x).canvas = s.canvas := rfl
@[simp] theorem State.setWin_shroud (n : Nat) (x : Window) : (s.setWin n x).shroud = s.shroud := rfl
@[simp] theorem State.setWin_pwm (n : Nat) (x : Window) : (s.setWin n x).pwm = s.pwm := rfl
@[simp] theorem State.setWin_ports (n : Nat) (x : Window) : (s.setWin n x).ports = s.ports := rfl
@[simp] theorem State.setWin_axes (n : Nat) (x : Window) : (s.setWin n x).axes = s.axes := rfl
@[simp] theorem State.setWin_field (n : Nat) (x : Window) : (s.setWin n x).field = s.field := rfl
@[simp] theorem State.setWin_can (n : Nat) (x : Window) : (s.setWin n x).can = s.can := rfl
@[simp] theorem State.setWin_pair (n : Nat) (x : Window) : (s.setWin n x).pair = s.pair := rfl
@[simp] theorem State.setWin_rig (n : Nat) (x : Window) : (s.setWin n x).rig = s.rig := rfl
@[simp] theorem State.setWin_data (n : Nat) (x : Window) : (s.setWin n x).data = s.data := rfl
@[simp] theorem State.setWin_burst (n : Nat) (x : Window) : (s.setWin n x).burst = s.burst := rfl
@[simp] theorem State.setWin_freeCtr (n : Nat) (x : Window) : (s.setWin n x).freeCtr = s.freeCtr := rfl
@[simp] theorem State.setWin_pending (n : Nat) (x : Window) : (s.setWin n x).pending = s.pending := rfl

@[simp] theorem State.setLat_regs (n : Nat) (x : Latch) : (s.setLat n x).regs = s.regs := rfl
@[simp] theorem State.setLat_eff (n : Nat) (x : Latch) : (s.setLat n x).eff = s.eff := rfl
@[simp] theorem State.setLat_mem (n : Nat) (x : Latch) : (s.setLat n x).mem = s.mem := rfl
@[simp] theorem State.setLat_flash (n : Nat) (x : Latch) : (s.setLat n x).flash = s.flash := rfl
@[simp] theorem State.setLat_eccBad (n : Nat) (x : Latch) : (s.setLat n x).eccBad = s.eccBad := rfl
@[simp] theorem State.setLat_ini (n : Nat) (x : Latch) : (s.setLat n x).ini = s.ini := rfl
@[simp] theorem State.setLat_hal (n : Nat) (x : Latch) : (s.setLat n x).hal = s.hal := rfl
@[simp] theorem State.setLat_cores (n : Nat) (x : Latch) : (s.setLat n x).cores = s.cores := rfl
@[simp] theorem State.setLat_log (n : Nat) (x : Latch) : (s.setLat n x).log = s.log := rfl
@[simp] theorem State.setLat_rigging (n : Nat) (x : Latch) : (s.setLat n x).rigging = s.rigging := rfl
@[simp] theorem State.setLat_host (n : Nat) (x : Latch) : (s.setLat n x).host = s.host := rfl
@[simp] theorem State.setLat_power (n : Nat) (x : Latch) : (s.setLat n x).power = s.power := rfl
@[simp] theorem State.setLat_joints (n : Nat) (x : Latch) : (s.setLat n x).joints = s.joints := rfl
@[simp] theorem State.setLat_arms (n : Nat) (x : Latch) : (s.setLat n x).arms = s.arms := rfl
@[simp] theorem State.setLat_engines (n : Nat) (x : Latch) : (s.setLat n x).engines = s.engines := rfl
@[simp] theorem State.setLat_lines (n : Nat) (x : Latch) : (s.setLat n x).lines = s.lines := rfl
@[simp] theorem State.setLat_fta (n : Nat) (x : Latch) : (s.setLat n x).fta = s.fta := rfl
@[simp] theorem State.setLat_spar (n : Nat) (x : Latch) : (s.setLat n x).spar = s.spar := rfl
@[simp] theorem State.setLat_canvas (n : Nat) (x : Latch) : (s.setLat n x).canvas = s.canvas := rfl
@[simp] theorem State.setLat_shroud (n : Nat) (x : Latch) : (s.setLat n x).shroud = s.shroud := rfl
@[simp] theorem State.setLat_pwm (n : Nat) (x : Latch) : (s.setLat n x).pwm = s.pwm := rfl
@[simp] theorem State.setLat_ports (n : Nat) (x : Latch) : (s.setLat n x).ports = s.ports := rfl
@[simp] theorem State.setLat_axes (n : Nat) (x : Latch) : (s.setLat n x).axes = s.axes := rfl
@[simp] theorem State.setLat_field (n : Nat) (x : Latch) : (s.setLat n x).field = s.field := rfl
@[simp] theorem State.setLat_can (n : Nat) (x : Latch) : (s.setLat n x).can = s.can := rfl
@[simp] theorem State.setLat_pair (n : Nat) (x : Latch) : (s.setLat n x).pair = s.pair := rfl
@[simp] theorem State.setLat_rig (n : Nat) (x : Latch) : (s.setLat n x).rig = s.rig := rfl
@[simp] theorem State.setLat_data (n : Nat) (x : Latch) : (s.setLat n x).data = s.data := rfl
@[simp] theorem State.setLat_burst (n : Nat) (x : Latch) : (s.setLat n x).burst = s.burst := rfl
@[simp] theorem State.setLat_freeCtr (n : Nat) (x : Latch) : (s.setLat n x).freeCtr = s.freeCtr := rfl
@[simp] theorem State.setLat_pending (n : Nat) (x : Latch) : (s.setLat n x).pending = s.pending := rfl

@[simp] theorem State.setIni_regs (i : Initiator) (x : IniSt) : (s.setIni i x).regs = s.regs := rfl
@[simp] theorem State.setIni_eff (i : Initiator) (x : IniSt) : (s.setIni i x).eff = s.eff := rfl
@[simp] theorem State.setIni_mem (i : Initiator) (x : IniSt) : (s.setIni i x).mem = s.mem := rfl
@[simp] theorem State.setIni_flash (i : Initiator) (x : IniSt) : (s.setIni i x).flash = s.flash := rfl
@[simp] theorem State.setIni_eccBad (i : Initiator) (x : IniSt) : (s.setIni i x).eccBad = s.eccBad := rfl
@[simp] theorem State.setIni_time (i : Initiator) (x : IniSt) : (s.setIni i x).time = s.time := rfl
@[simp] theorem State.setIni_hal (i : Initiator) (x : IniSt) : (s.setIni i x).hal = s.hal := rfl
@[simp] theorem State.setIni_cores (i : Initiator) (x : IniSt) : (s.setIni i x).cores = s.cores := rfl
@[simp] theorem State.setIni_log (i : Initiator) (x : IniSt) : (s.setIni i x).log = s.log := rfl
@[simp] theorem State.setIni_rigging (i : Initiator) (x : IniSt) : (s.setIni i x).rigging = s.rigging := rfl
@[simp] theorem State.setIni_host (i : Initiator) (x : IniSt) : (s.setIni i x).host = s.host := rfl
@[simp] theorem State.setIni_power (i : Initiator) (x : IniSt) : (s.setIni i x).power = s.power := rfl
@[simp] theorem State.setIni_joints (i : Initiator) (x : IniSt) : (s.setIni i x).joints = s.joints := rfl
@[simp] theorem State.setIni_arms (i : Initiator) (x : IniSt) : (s.setIni i x).arms = s.arms := rfl
@[simp] theorem State.setIni_engines (i : Initiator) (x : IniSt) : (s.setIni i x).engines = s.engines := rfl
@[simp] theorem State.setIni_lines (i : Initiator) (x : IniSt) : (s.setIni i x).lines = s.lines := rfl
@[simp] theorem State.setIni_fta (i : Initiator) (x : IniSt) : (s.setIni i x).fta = s.fta := rfl
@[simp] theorem State.setIni_spar (i : Initiator) (x : IniSt) : (s.setIni i x).spar = s.spar := rfl
@[simp] theorem State.setIni_canvas (i : Initiator) (x : IniSt) : (s.setIni i x).canvas = s.canvas := rfl
@[simp] theorem State.setIni_shroud (i : Initiator) (x : IniSt) : (s.setIni i x).shroud = s.shroud := rfl
@[simp] theorem State.setIni_pwm (i : Initiator) (x : IniSt) : (s.setIni i x).pwm = s.pwm := rfl
@[simp] theorem State.setIni_ports (i : Initiator) (x : IniSt) : (s.setIni i x).ports = s.ports := rfl
@[simp] theorem State.setIni_axes (i : Initiator) (x : IniSt) : (s.setIni i x).axes = s.axes := rfl
@[simp] theorem State.setIni_field (i : Initiator) (x : IniSt) : (s.setIni i x).field = s.field := rfl
@[simp] theorem State.setIni_can (i : Initiator) (x : IniSt) : (s.setIni i x).can = s.can := rfl
@[simp] theorem State.setIni_pair (i : Initiator) (x : IniSt) : (s.setIni i x).pair = s.pair := rfl
@[simp] theorem State.setIni_rig (i : Initiator) (x : IniSt) : (s.setIni i x).rig = s.rig := rfl
@[simp] theorem State.setIni_data (i : Initiator) (x : IniSt) : (s.setIni i x).data = s.data := rfl
@[simp] theorem State.setIni_burst (i : Initiator) (x : IniSt) : (s.setIni i x).burst = s.burst := rfl
@[simp] theorem State.setIni_freeCtr (i : Initiator) (x : IniSt) : (s.setIni i x).freeCtr = s.freeCtr := rfl
@[simp] theorem State.setIni_pending (i : Initiator) (x : IniSt) : (s.setIni i x).pending = s.pending := rfl

@[simp] theorem State.setWobj_regs (n : Nat) (x : WaitObj) : (s.setWobj n x).regs = s.regs := rfl
@[simp] theorem State.setWobj_eff (n : Nat) (x : WaitObj) : (s.setWobj n x).eff = s.eff := rfl
@[simp] theorem State.setWobj_mem (n : Nat) (x : WaitObj) : (s.setWobj n x).mem = s.mem := rfl
@[simp] theorem State.setWobj_flash (n : Nat) (x : WaitObj) : (s.setWobj n x).flash = s.flash := rfl
@[simp] theorem State.setWobj_eccBad (n : Nat) (x : WaitObj) : (s.setWobj n x).eccBad = s.eccBad := rfl
@[simp] theorem State.setWobj_time (n : Nat) (x : WaitObj) : (s.setWobj n x).time = s.time := rfl
@[simp] theorem State.setWobj_ini (n : Nat) (x : WaitObj) : (s.setWobj n x).ini = s.ini := rfl
@[simp] theorem State.setWobj_cores (n : Nat) (x : WaitObj) : (s.setWobj n x).cores = s.cores := rfl
@[simp] theorem State.setWobj_log (n : Nat) (x : WaitObj) : (s.setWobj n x).log = s.log := rfl
@[simp] theorem State.setWobj_rigging (n : Nat) (x : WaitObj) : (s.setWobj n x).rigging = s.rigging := rfl
@[simp] theorem State.setWobj_host (n : Nat) (x : WaitObj) : (s.setWobj n x).host = s.host := rfl
@[simp] theorem State.setWobj_power (n : Nat) (x : WaitObj) : (s.setWobj n x).power = s.power := rfl
@[simp] theorem State.setWobj_joints (n : Nat) (x : WaitObj) : (s.setWobj n x).joints = s.joints := rfl
@[simp] theorem State.setWobj_arms (n : Nat) (x : WaitObj) : (s.setWobj n x).arms = s.arms := rfl
@[simp] theorem State.setWobj_engines (n : Nat) (x : WaitObj) : (s.setWobj n x).engines = s.engines := rfl
@[simp] theorem State.setWobj_lines (n : Nat) (x : WaitObj) : (s.setWobj n x).lines = s.lines := rfl
@[simp] theorem State.setWobj_fta (n : Nat) (x : WaitObj) : (s.setWobj n x).fta = s.fta := rfl
@[simp] theorem State.setWobj_spar (n : Nat) (x : WaitObj) : (s.setWobj n x).spar = s.spar := rfl
@[simp] theorem State.setWobj_canvas (n : Nat) (x : WaitObj) : (s.setWobj n x).canvas = s.canvas := rfl
@[simp] theorem State.setWobj_shroud (n : Nat) (x : WaitObj) : (s.setWobj n x).shroud = s.shroud := rfl
@[simp] theorem State.setWobj_pwm (n : Nat) (x : WaitObj) : (s.setWobj n x).pwm = s.pwm := rfl
@[simp] theorem State.setWobj_ports (n : Nat) (x : WaitObj) : (s.setWobj n x).ports = s.ports := rfl
@[simp] theorem State.setWobj_axes (n : Nat) (x : WaitObj) : (s.setWobj n x).axes = s.axes := rfl
@[simp] theorem State.setWobj_field (n : Nat) (x : WaitObj) : (s.setWobj n x).field = s.field := rfl
@[simp] theorem State.setWobj_can (n : Nat) (x : WaitObj) : (s.setWobj n x).can = s.can := rfl
@[simp] theorem State.setWobj_pair (n : Nat) (x : WaitObj) : (s.setWobj n x).pair = s.pair := rfl
@[simp] theorem State.setWobj_rig (n : Nat) (x : WaitObj) : (s.setWobj n x).rig = s.rig := rfl
@[simp] theorem State.setWobj_data (n : Nat) (x : WaitObj) : (s.setWobj n x).data = s.data := rfl
@[simp] theorem State.setWobj_burst (n : Nat) (x : WaitObj) : (s.setWobj n x).burst = s.burst := rfl
@[simp] theorem State.setWobj_freeCtr (n : Nat) (x : WaitObj) : (s.setWobj n x).freeCtr = s.freeCtr := rfl
@[simp] theorem State.setWobj_pending (n : Nat) (x : WaitObj) : (s.setWobj n x).pending = s.pending := rfl

@[simp] theorem State.setServ_regs (n : Nat) (x : Option Service) : (s.setServ n x).regs = s.regs := rfl
@[simp] theorem State.setServ_eff (n : Nat) (x : Option Service) : (s.setServ n x).eff = s.eff := rfl
@[simp] theorem State.setServ_mem (n : Nat) (x : Option Service) : (s.setServ n x).mem = s.mem := rfl
@[simp] theorem State.setServ_flash (n : Nat) (x : Option Service) : (s.setServ n x).flash = s.flash := rfl
@[simp] theorem State.setServ_eccBad (n : Nat) (x : Option Service) : (s.setServ n x).eccBad = s.eccBad := rfl
@[simp] theorem State.setServ_time (n : Nat) (x : Option Service) : (s.setServ n x).time = s.time := rfl
@[simp] theorem State.setServ_ini (n : Nat) (x : Option Service) : (s.setServ n x).ini = s.ini := rfl
@[simp] theorem State.setServ_cores (n : Nat) (x : Option Service) : (s.setServ n x).cores = s.cores := rfl
@[simp] theorem State.setServ_log (n : Nat) (x : Option Service) : (s.setServ n x).log = s.log := rfl
@[simp] theorem State.setServ_rigging (n : Nat) (x : Option Service) : (s.setServ n x).rigging = s.rigging := rfl
@[simp] theorem State.setServ_host (n : Nat) (x : Option Service) : (s.setServ n x).host = s.host := rfl
@[simp] theorem State.setServ_power (n : Nat) (x : Option Service) : (s.setServ n x).power = s.power := rfl
@[simp] theorem State.setServ_joints (n : Nat) (x : Option Service) : (s.setServ n x).joints = s.joints := rfl
@[simp] theorem State.setServ_arms (n : Nat) (x : Option Service) : (s.setServ n x).arms = s.arms := rfl
@[simp] theorem State.setServ_engines (n : Nat) (x : Option Service) : (s.setServ n x).engines = s.engines := rfl
@[simp] theorem State.setServ_lines (n : Nat) (x : Option Service) : (s.setServ n x).lines = s.lines := rfl
@[simp] theorem State.setServ_fta (n : Nat) (x : Option Service) : (s.setServ n x).fta = s.fta := rfl
@[simp] theorem State.setServ_spar (n : Nat) (x : Option Service) : (s.setServ n x).spar = s.spar := rfl
@[simp] theorem State.setServ_canvas (n : Nat) (x : Option Service) : (s.setServ n x).canvas = s.canvas := rfl
@[simp] theorem State.setServ_shroud (n : Nat) (x : Option Service) : (s.setServ n x).shroud = s.shroud := rfl
@[simp] theorem State.setServ_pwm (n : Nat) (x : Option Service) : (s.setServ n x).pwm = s.pwm := rfl
@[simp] theorem State.setServ_ports (n : Nat) (x : Option Service) : (s.setServ n x).ports = s.ports := rfl
@[simp] theorem State.setServ_axes (n : Nat) (x : Option Service) : (s.setServ n x).axes = s.axes := rfl
@[simp] theorem State.setServ_field (n : Nat) (x : Option Service) : (s.setServ n x).field = s.field := rfl
@[simp] theorem State.setServ_can (n : Nat) (x : Option Service) : (s.setServ n x).can = s.can := rfl
@[simp] theorem State.setServ_pair (n : Nat) (x : Option Service) : (s.setServ n x).pair = s.pair := rfl
@[simp] theorem State.setServ_rig (n : Nat) (x : Option Service) : (s.setServ n x).rig = s.rig := rfl
@[simp] theorem State.setServ_data (n : Nat) (x : Option Service) : (s.setServ n x).data = s.data := rfl
@[simp] theorem State.setServ_burst (n : Nat) (x : Option Service) : (s.setServ n x).burst = s.burst := rfl
@[simp] theorem State.setServ_freeCtr (n : Nat) (x : Option Service) : (s.setServ n x).freeCtr = s.freeCtr := rfl
@[simp] theorem State.setServ_pending (n : Nat) (x : Option Service) : (s.setServ n x).pending = s.pending := rfl

@[simp] theorem State.setJoint_regs (n : Nat) (x : Joint) : (s.setJoint n x).regs = s.regs := rfl
@[simp] theorem State.setJoint_eff (n : Nat) (x : Joint) : (s.setJoint n x).eff = s.eff := rfl
@[simp] theorem State.setJoint_mem (n : Nat) (x : Joint) : (s.setJoint n x).mem = s.mem := rfl
@[simp] theorem State.setJoint_flash (n : Nat) (x : Joint) : (s.setJoint n x).flash = s.flash := rfl
@[simp] theorem State.setJoint_eccBad (n : Nat) (x : Joint) : (s.setJoint n x).eccBad = s.eccBad := rfl
@[simp] theorem State.setJoint_time (n : Nat) (x : Joint) : (s.setJoint n x).time = s.time := rfl
@[simp] theorem State.setJoint_ini (n : Nat) (x : Joint) : (s.setJoint n x).ini = s.ini := rfl
@[simp] theorem State.setJoint_hal (n : Nat) (x : Joint) : (s.setJoint n x).hal = s.hal := rfl
@[simp] theorem State.setJoint_cores (n : Nat) (x : Joint) : (s.setJoint n x).cores = s.cores := rfl
@[simp] theorem State.setJoint_log (n : Nat) (x : Joint) : (s.setJoint n x).log = s.log := rfl
@[simp] theorem State.setJoint_rigging (n : Nat) (x : Joint) : (s.setJoint n x).rigging = s.rigging := rfl
@[simp] theorem State.setJoint_host (n : Nat) (x : Joint) : (s.setJoint n x).host = s.host := rfl
@[simp] theorem State.setJoint_power (n : Nat) (x : Joint) : (s.setJoint n x).power = s.power := rfl
@[simp] theorem State.setJoint_arms (n : Nat) (x : Joint) : (s.setJoint n x).arms = s.arms := rfl
@[simp] theorem State.setJoint_engines (n : Nat) (x : Joint) : (s.setJoint n x).engines = s.engines := rfl
@[simp] theorem State.setJoint_lines (n : Nat) (x : Joint) : (s.setJoint n x).lines = s.lines := rfl
@[simp] theorem State.setJoint_fta (n : Nat) (x : Joint) : (s.setJoint n x).fta = s.fta := rfl
@[simp] theorem State.setJoint_spar (n : Nat) (x : Joint) : (s.setJoint n x).spar = s.spar := rfl
@[simp] theorem State.setJoint_canvas (n : Nat) (x : Joint) : (s.setJoint n x).canvas = s.canvas := rfl
@[simp] theorem State.setJoint_shroud (n : Nat) (x : Joint) : (s.setJoint n x).shroud = s.shroud := rfl
@[simp] theorem State.setJoint_pwm (n : Nat) (x : Joint) : (s.setJoint n x).pwm = s.pwm := rfl
@[simp] theorem State.setJoint_ports (n : Nat) (x : Joint) : (s.setJoint n x).ports = s.ports := rfl
@[simp] theorem State.setJoint_axes (n : Nat) (x : Joint) : (s.setJoint n x).axes = s.axes := rfl
@[simp] theorem State.setJoint_field (n : Nat) (x : Joint) : (s.setJoint n x).field = s.field := rfl
@[simp] theorem State.setJoint_can (n : Nat) (x : Joint) : (s.setJoint n x).can = s.can := rfl
@[simp] theorem State.setJoint_pair (n : Nat) (x : Joint) : (s.setJoint n x).pair = s.pair := rfl
@[simp] theorem State.setJoint_rig (n : Nat) (x : Joint) : (s.setJoint n x).rig = s.rig := rfl
@[simp] theorem State.setJoint_data (n : Nat) (x : Joint) : (s.setJoint n x).data = s.data := rfl
@[simp] theorem State.setJoint_burst (n : Nat) (x : Joint) : (s.setJoint n x).burst = s.burst := rfl
@[simp] theorem State.setJoint_freeCtr (n : Nat) (x : Joint) : (s.setJoint n x).freeCtr = s.freeCtr := rfl
@[simp] theorem State.setJoint_pending (n : Nat) (x : Joint) : (s.setJoint n x).pending = s.pending := rfl

@[simp] theorem State.setArm_regs (n : Nat) (x : Arm) : (s.setArm n x).regs = s.regs := rfl
@[simp] theorem State.setArm_eff (n : Nat) (x : Arm) : (s.setArm n x).eff = s.eff := rfl
@[simp] theorem State.setArm_mem (n : Nat) (x : Arm) : (s.setArm n x).mem = s.mem := rfl
@[simp] theorem State.setArm_flash (n : Nat) (x : Arm) : (s.setArm n x).flash = s.flash := rfl
@[simp] theorem State.setArm_eccBad (n : Nat) (x : Arm) : (s.setArm n x).eccBad = s.eccBad := rfl
@[simp] theorem State.setArm_time (n : Nat) (x : Arm) : (s.setArm n x).time = s.time := rfl
@[simp] theorem State.setArm_ini (n : Nat) (x : Arm) : (s.setArm n x).ini = s.ini := rfl
@[simp] theorem State.setArm_hal (n : Nat) (x : Arm) : (s.setArm n x).hal = s.hal := rfl
@[simp] theorem State.setArm_cores (n : Nat) (x : Arm) : (s.setArm n x).cores = s.cores := rfl
@[simp] theorem State.setArm_log (n : Nat) (x : Arm) : (s.setArm n x).log = s.log := rfl
@[simp] theorem State.setArm_rigging (n : Nat) (x : Arm) : (s.setArm n x).rigging = s.rigging := rfl
@[simp] theorem State.setArm_host (n : Nat) (x : Arm) : (s.setArm n x).host = s.host := rfl
@[simp] theorem State.setArm_power (n : Nat) (x : Arm) : (s.setArm n x).power = s.power := rfl
@[simp] theorem State.setArm_joints (n : Nat) (x : Arm) : (s.setArm n x).joints = s.joints := rfl
@[simp] theorem State.setArm_engines (n : Nat) (x : Arm) : (s.setArm n x).engines = s.engines := rfl
@[simp] theorem State.setArm_lines (n : Nat) (x : Arm) : (s.setArm n x).lines = s.lines := rfl
@[simp] theorem State.setArm_fta (n : Nat) (x : Arm) : (s.setArm n x).fta = s.fta := rfl
@[simp] theorem State.setArm_spar (n : Nat) (x : Arm) : (s.setArm n x).spar = s.spar := rfl
@[simp] theorem State.setArm_canvas (n : Nat) (x : Arm) : (s.setArm n x).canvas = s.canvas := rfl
@[simp] theorem State.setArm_shroud (n : Nat) (x : Arm) : (s.setArm n x).shroud = s.shroud := rfl
@[simp] theorem State.setArm_pwm (n : Nat) (x : Arm) : (s.setArm n x).pwm = s.pwm := rfl
@[simp] theorem State.setArm_ports (n : Nat) (x : Arm) : (s.setArm n x).ports = s.ports := rfl
@[simp] theorem State.setArm_axes (n : Nat) (x : Arm) : (s.setArm n x).axes = s.axes := rfl
@[simp] theorem State.setArm_field (n : Nat) (x : Arm) : (s.setArm n x).field = s.field := rfl
@[simp] theorem State.setArm_can (n : Nat) (x : Arm) : (s.setArm n x).can = s.can := rfl
@[simp] theorem State.setArm_pair (n : Nat) (x : Arm) : (s.setArm n x).pair = s.pair := rfl
@[simp] theorem State.setArm_rig (n : Nat) (x : Arm) : (s.setArm n x).rig = s.rig := rfl
@[simp] theorem State.setArm_data (n : Nat) (x : Arm) : (s.setArm n x).data = s.data := rfl
@[simp] theorem State.setArm_burst (n : Nat) (x : Arm) : (s.setArm n x).burst = s.burst := rfl
@[simp] theorem State.setArm_freeCtr (n : Nat) (x : Arm) : (s.setArm n x).freeCtr = s.freeCtr := rfl
@[simp] theorem State.setArm_pending (n : Nat) (x : Arm) : (s.setArm n x).pending = s.pending := rfl

@[simp] theorem State.setEng_regs (n : Nat) (x : Engine) : (s.setEng n x).regs = s.regs := rfl
@[simp] theorem State.setEng_eff (n : Nat) (x : Engine) : (s.setEng n x).eff = s.eff := rfl
@[simp] theorem State.setEng_mem (n : Nat) (x : Engine) : (s.setEng n x).mem = s.mem := rfl
@[simp] theorem State.setEng_flash (n : Nat) (x : Engine) : (s.setEng n x).flash = s.flash := rfl
@[simp] theorem State.setEng_eccBad (n : Nat) (x : Engine) : (s.setEng n x).eccBad = s.eccBad := rfl
@[simp] theorem State.setEng_time (n : Nat) (x : Engine) : (s.setEng n x).time = s.time := rfl
@[simp] theorem State.setEng_ini (n : Nat) (x : Engine) : (s.setEng n x).ini = s.ini := rfl
@[simp] theorem State.setEng_hal (n : Nat) (x : Engine) : (s.setEng n x).hal = s.hal := rfl
@[simp] theorem State.setEng_cores (n : Nat) (x : Engine) : (s.setEng n x).cores = s.cores := rfl
@[simp] theorem State.setEng_log (n : Nat) (x : Engine) : (s.setEng n x).log = s.log := rfl
@[simp] theorem State.setEng_rigging (n : Nat) (x : Engine) : (s.setEng n x).rigging = s.rigging := rfl
@[simp] theorem State.setEng_host (n : Nat) (x : Engine) : (s.setEng n x).host = s.host := rfl
@[simp] theorem State.setEng_power (n : Nat) (x : Engine) : (s.setEng n x).power = s.power := rfl
@[simp] theorem State.setEng_joints (n : Nat) (x : Engine) : (s.setEng n x).joints = s.joints := rfl
@[simp] theorem State.setEng_arms (n : Nat) (x : Engine) : (s.setEng n x).arms = s.arms := rfl
@[simp] theorem State.setEng_lines (n : Nat) (x : Engine) : (s.setEng n x).lines = s.lines := rfl
@[simp] theorem State.setEng_fta (n : Nat) (x : Engine) : (s.setEng n x).fta = s.fta := rfl
@[simp] theorem State.setEng_spar (n : Nat) (x : Engine) : (s.setEng n x).spar = s.spar := rfl
@[simp] theorem State.setEng_canvas (n : Nat) (x : Engine) : (s.setEng n x).canvas = s.canvas := rfl
@[simp] theorem State.setEng_shroud (n : Nat) (x : Engine) : (s.setEng n x).shroud = s.shroud := rfl
@[simp] theorem State.setEng_pwm (n : Nat) (x : Engine) : (s.setEng n x).pwm = s.pwm := rfl
@[simp] theorem State.setEng_ports (n : Nat) (x : Engine) : (s.setEng n x).ports = s.ports := rfl
@[simp] theorem State.setEng_axes (n : Nat) (x : Engine) : (s.setEng n x).axes = s.axes := rfl
@[simp] theorem State.setEng_field (n : Nat) (x : Engine) : (s.setEng n x).field = s.field := rfl
@[simp] theorem State.setEng_can (n : Nat) (x : Engine) : (s.setEng n x).can = s.can := rfl
@[simp] theorem State.setEng_pair (n : Nat) (x : Engine) : (s.setEng n x).pair = s.pair := rfl
@[simp] theorem State.setEng_rig (n : Nat) (x : Engine) : (s.setEng n x).rig = s.rig := rfl
@[simp] theorem State.setEng_data (n : Nat) (x : Engine) : (s.setEng n x).data = s.data := rfl
@[simp] theorem State.setEng_burst (n : Nat) (x : Engine) : (s.setEng n x).burst = s.burst := rfl
@[simp] theorem State.setEng_freeCtr (n : Nat) (x : Engine) : (s.setEng n x).freeCtr = s.freeCtr := rfl
@[simp] theorem State.setEng_pending (n : Nat) (x : Engine) : (s.setEng n x).pending = s.pending := rfl

@[simp] theorem State.setLine_regs (n : Nat) (x : Line) : (s.setLine n x).regs = s.regs := rfl
@[simp] theorem State.setLine_eff (n : Nat) (x : Line) : (s.setLine n x).eff = s.eff := rfl
@[simp] theorem State.setLine_mem (n : Nat) (x : Line) : (s.setLine n x).mem = s.mem := rfl
@[simp] theorem State.setLine_flash (n : Nat) (x : Line) : (s.setLine n x).flash = s.flash := rfl
@[simp] theorem State.setLine_eccBad (n : Nat) (x : Line) : (s.setLine n x).eccBad = s.eccBad := rfl
@[simp] theorem State.setLine_time (n : Nat) (x : Line) : (s.setLine n x).time = s.time := rfl
@[simp] theorem State.setLine_ini (n : Nat) (x : Line) : (s.setLine n x).ini = s.ini := rfl
@[simp] theorem State.setLine_hal (n : Nat) (x : Line) : (s.setLine n x).hal = s.hal := rfl
@[simp] theorem State.setLine_cores (n : Nat) (x : Line) : (s.setLine n x).cores = s.cores := rfl
@[simp] theorem State.setLine_log (n : Nat) (x : Line) : (s.setLine n x).log = s.log := rfl
@[simp] theorem State.setLine_rigging (n : Nat) (x : Line) : (s.setLine n x).rigging = s.rigging := rfl
@[simp] theorem State.setLine_host (n : Nat) (x : Line) : (s.setLine n x).host = s.host := rfl
@[simp] theorem State.setLine_power (n : Nat) (x : Line) : (s.setLine n x).power = s.power := rfl
@[simp] theorem State.setLine_joints (n : Nat) (x : Line) : (s.setLine n x).joints = s.joints := rfl
@[simp] theorem State.setLine_arms (n : Nat) (x : Line) : (s.setLine n x).arms = s.arms := rfl
@[simp] theorem State.setLine_engines (n : Nat) (x : Line) : (s.setLine n x).engines = s.engines := rfl
@[simp] theorem State.setLine_fta (n : Nat) (x : Line) : (s.setLine n x).fta = s.fta := rfl
@[simp] theorem State.setLine_spar (n : Nat) (x : Line) : (s.setLine n x).spar = s.spar := rfl
@[simp] theorem State.setLine_canvas (n : Nat) (x : Line) : (s.setLine n x).canvas = s.canvas := rfl
@[simp] theorem State.setLine_shroud (n : Nat) (x : Line) : (s.setLine n x).shroud = s.shroud := rfl
@[simp] theorem State.setLine_pwm (n : Nat) (x : Line) : (s.setLine n x).pwm = s.pwm := rfl
@[simp] theorem State.setLine_ports (n : Nat) (x : Line) : (s.setLine n x).ports = s.ports := rfl
@[simp] theorem State.setLine_axes (n : Nat) (x : Line) : (s.setLine n x).axes = s.axes := rfl
@[simp] theorem State.setLine_field (n : Nat) (x : Line) : (s.setLine n x).field = s.field := rfl
@[simp] theorem State.setLine_can (n : Nat) (x : Line) : (s.setLine n x).can = s.can := rfl
@[simp] theorem State.setLine_pair (n : Nat) (x : Line) : (s.setLine n x).pair = s.pair := rfl
@[simp] theorem State.setLine_rig (n : Nat) (x : Line) : (s.setLine n x).rig = s.rig := rfl
@[simp] theorem State.setLine_data (n : Nat) (x : Line) : (s.setLine n x).data = s.data := rfl
@[simp] theorem State.setLine_burst (n : Nat) (x : Line) : (s.setLine n x).burst = s.burst := rfl
@[simp] theorem State.setLine_freeCtr (n : Nat) (x : Line) : (s.setLine n x).freeCtr = s.freeCtr := rfl
@[simp] theorem State.setLine_pending (n : Nat) (x : Line) : (s.setLine n x).pending = s.pending := rfl

@[simp] theorem State.setSpLane_regs (n : Nat) (x : SparLane) : (s.setSpLane n x).regs = s.regs := rfl
@[simp] theorem State.setSpLane_eff (n : Nat) (x : SparLane) : (s.setSpLane n x).eff = s.eff := rfl
@[simp] theorem State.setSpLane_mem (n : Nat) (x : SparLane) : (s.setSpLane n x).mem = s.mem := rfl
@[simp] theorem State.setSpLane_flash (n : Nat) (x : SparLane) : (s.setSpLane n x).flash = s.flash := rfl
@[simp] theorem State.setSpLane_eccBad (n : Nat) (x : SparLane) : (s.setSpLane n x).eccBad = s.eccBad := rfl
@[simp] theorem State.setSpLane_time (n : Nat) (x : SparLane) : (s.setSpLane n x).time = s.time := rfl
@[simp] theorem State.setSpLane_ini (n : Nat) (x : SparLane) : (s.setSpLane n x).ini = s.ini := rfl
@[simp] theorem State.setSpLane_hal (n : Nat) (x : SparLane) : (s.setSpLane n x).hal = s.hal := rfl
@[simp] theorem State.setSpLane_cores (n : Nat) (x : SparLane) : (s.setSpLane n x).cores = s.cores := rfl
@[simp] theorem State.setSpLane_log (n : Nat) (x : SparLane) : (s.setSpLane n x).log = s.log := rfl
@[simp] theorem State.setSpLane_rigging (n : Nat) (x : SparLane) : (s.setSpLane n x).rigging = s.rigging := rfl
@[simp] theorem State.setSpLane_host (n : Nat) (x : SparLane) : (s.setSpLane n x).host = s.host := rfl
@[simp] theorem State.setSpLane_power (n : Nat) (x : SparLane) : (s.setSpLane n x).power = s.power := rfl
@[simp] theorem State.setSpLane_joints (n : Nat) (x : SparLane) : (s.setSpLane n x).joints = s.joints := rfl
@[simp] theorem State.setSpLane_arms (n : Nat) (x : SparLane) : (s.setSpLane n x).arms = s.arms := rfl
@[simp] theorem State.setSpLane_engines (n : Nat) (x : SparLane) : (s.setSpLane n x).engines = s.engines := rfl
@[simp] theorem State.setSpLane_lines (n : Nat) (x : SparLane) : (s.setSpLane n x).lines = s.lines := rfl
@[simp] theorem State.setSpLane_fta (n : Nat) (x : SparLane) : (s.setSpLane n x).fta = s.fta := rfl
@[simp] theorem State.setSpLane_canvas (n : Nat) (x : SparLane) : (s.setSpLane n x).canvas = s.canvas := rfl
@[simp] theorem State.setSpLane_shroud (n : Nat) (x : SparLane) : (s.setSpLane n x).shroud = s.shroud := rfl
@[simp] theorem State.setSpLane_pwm (n : Nat) (x : SparLane) : (s.setSpLane n x).pwm = s.pwm := rfl
@[simp] theorem State.setSpLane_ports (n : Nat) (x : SparLane) : (s.setSpLane n x).ports = s.ports := rfl
@[simp] theorem State.setSpLane_axes (n : Nat) (x : SparLane) : (s.setSpLane n x).axes = s.axes := rfl
@[simp] theorem State.setSpLane_field (n : Nat) (x : SparLane) : (s.setSpLane n x).field = s.field := rfl
@[simp] theorem State.setSpLane_can (n : Nat) (x : SparLane) : (s.setSpLane n x).can = s.can := rfl
@[simp] theorem State.setSpLane_pair (n : Nat) (x : SparLane) : (s.setSpLane n x).pair = s.pair := rfl
@[simp] theorem State.setSpLane_rig (n : Nat) (x : SparLane) : (s.setSpLane n x).rig = s.rig := rfl
@[simp] theorem State.setSpLane_data (n : Nat) (x : SparLane) : (s.setSpLane n x).data = s.data := rfl
@[simp] theorem State.setSpLane_burst (n : Nat) (x : SparLane) : (s.setSpLane n x).burst = s.burst := rfl
@[simp] theorem State.setSpLane_freeCtr (n : Nat) (x : SparLane) : (s.setSpLane n x).freeCtr = s.freeCtr := rfl
@[simp] theorem State.setSpLane_pending (n : Nat) (x : SparLane) : (s.setSpLane n x).pending = s.pending := rfl

@[simp] theorem State.setSpInst_regs (n : Nat) (x : SparInst) : (s.setSpInst n x).regs = s.regs := rfl
@[simp] theorem State.setSpInst_eff (n : Nat) (x : SparInst) : (s.setSpInst n x).eff = s.eff := rfl
@[simp] theorem State.setSpInst_mem (n : Nat) (x : SparInst) : (s.setSpInst n x).mem = s.mem := rfl
@[simp] theorem State.setSpInst_flash (n : Nat) (x : SparInst) : (s.setSpInst n x).flash = s.flash := rfl
@[simp] theorem State.setSpInst_eccBad (n : Nat) (x : SparInst) : (s.setSpInst n x).eccBad = s.eccBad := rfl
@[simp] theorem State.setSpInst_time (n : Nat) (x : SparInst) : (s.setSpInst n x).time = s.time := rfl
@[simp] theorem State.setSpInst_ini (n : Nat) (x : SparInst) : (s.setSpInst n x).ini = s.ini := rfl
@[simp] theorem State.setSpInst_hal (n : Nat) (x : SparInst) : (s.setSpInst n x).hal = s.hal := rfl
@[simp] theorem State.setSpInst_cores (n : Nat) (x : SparInst) : (s.setSpInst n x).cores = s.cores := rfl
@[simp] theorem State.setSpInst_log (n : Nat) (x : SparInst) : (s.setSpInst n x).log = s.log := rfl
@[simp] theorem State.setSpInst_rigging (n : Nat) (x : SparInst) : (s.setSpInst n x).rigging = s.rigging := rfl
@[simp] theorem State.setSpInst_host (n : Nat) (x : SparInst) : (s.setSpInst n x).host = s.host := rfl
@[simp] theorem State.setSpInst_power (n : Nat) (x : SparInst) : (s.setSpInst n x).power = s.power := rfl
@[simp] theorem State.setSpInst_joints (n : Nat) (x : SparInst) : (s.setSpInst n x).joints = s.joints := rfl
@[simp] theorem State.setSpInst_arms (n : Nat) (x : SparInst) : (s.setSpInst n x).arms = s.arms := rfl
@[simp] theorem State.setSpInst_engines (n : Nat) (x : SparInst) : (s.setSpInst n x).engines = s.engines := rfl
@[simp] theorem State.setSpInst_lines (n : Nat) (x : SparInst) : (s.setSpInst n x).lines = s.lines := rfl
@[simp] theorem State.setSpInst_fta (n : Nat) (x : SparInst) : (s.setSpInst n x).fta = s.fta := rfl
@[simp] theorem State.setSpInst_canvas (n : Nat) (x : SparInst) : (s.setSpInst n x).canvas = s.canvas := rfl
@[simp] theorem State.setSpInst_shroud (n : Nat) (x : SparInst) : (s.setSpInst n x).shroud = s.shroud := rfl
@[simp] theorem State.setSpInst_pwm (n : Nat) (x : SparInst) : (s.setSpInst n x).pwm = s.pwm := rfl
@[simp] theorem State.setSpInst_ports (n : Nat) (x : SparInst) : (s.setSpInst n x).ports = s.ports := rfl
@[simp] theorem State.setSpInst_axes (n : Nat) (x : SparInst) : (s.setSpInst n x).axes = s.axes := rfl
@[simp] theorem State.setSpInst_field (n : Nat) (x : SparInst) : (s.setSpInst n x).field = s.field := rfl
@[simp] theorem State.setSpInst_can (n : Nat) (x : SparInst) : (s.setSpInst n x).can = s.can := rfl
@[simp] theorem State.setSpInst_pair (n : Nat) (x : SparInst) : (s.setSpInst n x).pair = s.pair := rfl
@[simp] theorem State.setSpInst_rig (n : Nat) (x : SparInst) : (s.setSpInst n x).rig = s.rig := rfl
@[simp] theorem State.setSpInst_data (n : Nat) (x : SparInst) : (s.setSpInst n x).data = s.data := rfl
@[simp] theorem State.setSpInst_burst (n : Nat) (x : SparInst) : (s.setSpInst n x).burst = s.burst := rfl
@[simp] theorem State.setSpInst_freeCtr (n : Nat) (x : SparInst) : (s.setSpInst n x).freeCtr = s.freeCtr := rfl
@[simp] theorem State.setSpInst_pending (n : Nat) (x : SparInst) : (s.setSpInst n x).pending = s.pending := rfl

@[simp] theorem State.setPwg_regs (n : Nat) (x : PwGroup) : (s.setPwg n x).regs = s.regs := rfl
@[simp] theorem State.setPwg_eff (n : Nat) (x : PwGroup) : (s.setPwg n x).eff = s.eff := rfl
@[simp] theorem State.setPwg_mem (n : Nat) (x : PwGroup) : (s.setPwg n x).mem = s.mem := rfl
@[simp] theorem State.setPwg_flash (n : Nat) (x : PwGroup) : (s.setPwg n x).flash = s.flash := rfl
@[simp] theorem State.setPwg_eccBad (n : Nat) (x : PwGroup) : (s.setPwg n x).eccBad = s.eccBad := rfl
@[simp] theorem State.setPwg_time (n : Nat) (x : PwGroup) : (s.setPwg n x).time = s.time := rfl
@[simp] theorem State.setPwg_ini (n : Nat) (x : PwGroup) : (s.setPwg n x).ini = s.ini := rfl
@[simp] theorem State.setPwg_hal (n : Nat) (x : PwGroup) : (s.setPwg n x).hal = s.hal := rfl
@[simp] theorem State.setPwg_cores (n : Nat) (x : PwGroup) : (s.setPwg n x).cores = s.cores := rfl
@[simp] theorem State.setPwg_log (n : Nat) (x : PwGroup) : (s.setPwg n x).log = s.log := rfl
@[simp] theorem State.setPwg_rigging (n : Nat) (x : PwGroup) : (s.setPwg n x).rigging = s.rigging := rfl
@[simp] theorem State.setPwg_host (n : Nat) (x : PwGroup) : (s.setPwg n x).host = s.host := rfl
@[simp] theorem State.setPwg_power (n : Nat) (x : PwGroup) : (s.setPwg n x).power = s.power := rfl
@[simp] theorem State.setPwg_joints (n : Nat) (x : PwGroup) : (s.setPwg n x).joints = s.joints := rfl
@[simp] theorem State.setPwg_arms (n : Nat) (x : PwGroup) : (s.setPwg n x).arms = s.arms := rfl
@[simp] theorem State.setPwg_engines (n : Nat) (x : PwGroup) : (s.setPwg n x).engines = s.engines := rfl
@[simp] theorem State.setPwg_lines (n : Nat) (x : PwGroup) : (s.setPwg n x).lines = s.lines := rfl
@[simp] theorem State.setPwg_fta (n : Nat) (x : PwGroup) : (s.setPwg n x).fta = s.fta := rfl
@[simp] theorem State.setPwg_spar (n : Nat) (x : PwGroup) : (s.setPwg n x).spar = s.spar := rfl
@[simp] theorem State.setPwg_canvas (n : Nat) (x : PwGroup) : (s.setPwg n x).canvas = s.canvas := rfl
@[simp] theorem State.setPwg_shroud (n : Nat) (x : PwGroup) : (s.setPwg n x).shroud = s.shroud := rfl
@[simp] theorem State.setPwg_ports (n : Nat) (x : PwGroup) : (s.setPwg n x).ports = s.ports := rfl
@[simp] theorem State.setPwg_axes (n : Nat) (x : PwGroup) : (s.setPwg n x).axes = s.axes := rfl
@[simp] theorem State.setPwg_field (n : Nat) (x : PwGroup) : (s.setPwg n x).field = s.field := rfl
@[simp] theorem State.setPwg_can (n : Nat) (x : PwGroup) : (s.setPwg n x).can = s.can := rfl
@[simp] theorem State.setPwg_pair (n : Nat) (x : PwGroup) : (s.setPwg n x).pair = s.pair := rfl
@[simp] theorem State.setPwg_rig (n : Nat) (x : PwGroup) : (s.setPwg n x).rig = s.rig := rfl
@[simp] theorem State.setPwg_data (n : Nat) (x : PwGroup) : (s.setPwg n x).data = s.data := rfl
@[simp] theorem State.setPwg_burst (n : Nat) (x : PwGroup) : (s.setPwg n x).burst = s.burst := rfl
@[simp] theorem State.setPwg_freeCtr (n : Nat) (x : PwGroup) : (s.setPwg n x).freeCtr = s.freeCtr := rfl
@[simp] theorem State.setPwg_pending (n : Nat) (x : PwGroup) : (s.setPwg n x).pending = s.pending := rfl

@[simp] theorem State.setAdc_regs (n : Nat) (x : AdcCh) : (s.setAdc n x).regs = s.regs := rfl
@[simp] theorem State.setAdc_eff (n : Nat) (x : AdcCh) : (s.setAdc n x).eff = s.eff := rfl
@[simp] theorem State.setAdc_mem (n : Nat) (x : AdcCh) : (s.setAdc n x).mem = s.mem := rfl
@[simp] theorem State.setAdc_flash (n : Nat) (x : AdcCh) : (s.setAdc n x).flash = s.flash := rfl
@[simp] theorem State.setAdc_eccBad (n : Nat) (x : AdcCh) : (s.setAdc n x).eccBad = s.eccBad := rfl
@[simp] theorem State.setAdc_time (n : Nat) (x : AdcCh) : (s.setAdc n x).time = s.time := rfl
@[simp] theorem State.setAdc_ini (n : Nat) (x : AdcCh) : (s.setAdc n x).ini = s.ini := rfl
@[simp] theorem State.setAdc_hal (n : Nat) (x : AdcCh) : (s.setAdc n x).hal = s.hal := rfl
@[simp] theorem State.setAdc_cores (n : Nat) (x : AdcCh) : (s.setAdc n x).cores = s.cores := rfl
@[simp] theorem State.setAdc_log (n : Nat) (x : AdcCh) : (s.setAdc n x).log = s.log := rfl
@[simp] theorem State.setAdc_rigging (n : Nat) (x : AdcCh) : (s.setAdc n x).rigging = s.rigging := rfl
@[simp] theorem State.setAdc_host (n : Nat) (x : AdcCh) : (s.setAdc n x).host = s.host := rfl
@[simp] theorem State.setAdc_power (n : Nat) (x : AdcCh) : (s.setAdc n x).power = s.power := rfl
@[simp] theorem State.setAdc_joints (n : Nat) (x : AdcCh) : (s.setAdc n x).joints = s.joints := rfl
@[simp] theorem State.setAdc_arms (n : Nat) (x : AdcCh) : (s.setAdc n x).arms = s.arms := rfl
@[simp] theorem State.setAdc_engines (n : Nat) (x : AdcCh) : (s.setAdc n x).engines = s.engines := rfl
@[simp] theorem State.setAdc_lines (n : Nat) (x : AdcCh) : (s.setAdc n x).lines = s.lines := rfl
@[simp] theorem State.setAdc_fta (n : Nat) (x : AdcCh) : (s.setAdc n x).fta = s.fta := rfl
@[simp] theorem State.setAdc_spar (n : Nat) (x : AdcCh) : (s.setAdc n x).spar = s.spar := rfl
@[simp] theorem State.setAdc_canvas (n : Nat) (x : AdcCh) : (s.setAdc n x).canvas = s.canvas := rfl
@[simp] theorem State.setAdc_shroud (n : Nat) (x : AdcCh) : (s.setAdc n x).shroud = s.shroud := rfl
@[simp] theorem State.setAdc_ports (n : Nat) (x : AdcCh) : (s.setAdc n x).ports = s.ports := rfl
@[simp] theorem State.setAdc_axes (n : Nat) (x : AdcCh) : (s.setAdc n x).axes = s.axes := rfl
@[simp] theorem State.setAdc_field (n : Nat) (x : AdcCh) : (s.setAdc n x).field = s.field := rfl
@[simp] theorem State.setAdc_can (n : Nat) (x : AdcCh) : (s.setAdc n x).can = s.can := rfl
@[simp] theorem State.setAdc_pair (n : Nat) (x : AdcCh) : (s.setAdc n x).pair = s.pair := rfl
@[simp] theorem State.setAdc_rig (n : Nat) (x : AdcCh) : (s.setAdc n x).rig = s.rig := rfl
@[simp] theorem State.setAdc_data (n : Nat) (x : AdcCh) : (s.setAdc n x).data = s.data := rfl
@[simp] theorem State.setAdc_burst (n : Nat) (x : AdcCh) : (s.setAdc n x).burst = s.burst := rfl
@[simp] theorem State.setAdc_freeCtr (n : Nat) (x : AdcCh) : (s.setAdc n x).freeCtr = s.freeCtr := rfl
@[simp] theorem State.setAdc_pending (n : Nat) (x : AdcCh) : (s.setAdc n x).pending = s.pending := rfl

@[simp] theorem State.setPort_regs (n : Nat) (x : FbPort) : (s.setPort n x).regs = s.regs := rfl
@[simp] theorem State.setPort_eff (n : Nat) (x : FbPort) : (s.setPort n x).eff = s.eff := rfl
@[simp] theorem State.setPort_mem (n : Nat) (x : FbPort) : (s.setPort n x).mem = s.mem := rfl
@[simp] theorem State.setPort_flash (n : Nat) (x : FbPort) : (s.setPort n x).flash = s.flash := rfl
@[simp] theorem State.setPort_eccBad (n : Nat) (x : FbPort) : (s.setPort n x).eccBad = s.eccBad := rfl
@[simp] theorem State.setPort_time (n : Nat) (x : FbPort) : (s.setPort n x).time = s.time := rfl
@[simp] theorem State.setPort_ini (n : Nat) (x : FbPort) : (s.setPort n x).ini = s.ini := rfl
@[simp] theorem State.setPort_hal (n : Nat) (x : FbPort) : (s.setPort n x).hal = s.hal := rfl
@[simp] theorem State.setPort_cores (n : Nat) (x : FbPort) : (s.setPort n x).cores = s.cores := rfl
@[simp] theorem State.setPort_log (n : Nat) (x : FbPort) : (s.setPort n x).log = s.log := rfl
@[simp] theorem State.setPort_rigging (n : Nat) (x : FbPort) : (s.setPort n x).rigging = s.rigging := rfl
@[simp] theorem State.setPort_host (n : Nat) (x : FbPort) : (s.setPort n x).host = s.host := rfl
@[simp] theorem State.setPort_power (n : Nat) (x : FbPort) : (s.setPort n x).power = s.power := rfl
@[simp] theorem State.setPort_joints (n : Nat) (x : FbPort) : (s.setPort n x).joints = s.joints := rfl
@[simp] theorem State.setPort_arms (n : Nat) (x : FbPort) : (s.setPort n x).arms = s.arms := rfl
@[simp] theorem State.setPort_engines (n : Nat) (x : FbPort) : (s.setPort n x).engines = s.engines := rfl
@[simp] theorem State.setPort_lines (n : Nat) (x : FbPort) : (s.setPort n x).lines = s.lines := rfl
@[simp] theorem State.setPort_fta (n : Nat) (x : FbPort) : (s.setPort n x).fta = s.fta := rfl
@[simp] theorem State.setPort_spar (n : Nat) (x : FbPort) : (s.setPort n x).spar = s.spar := rfl
@[simp] theorem State.setPort_canvas (n : Nat) (x : FbPort) : (s.setPort n x).canvas = s.canvas := rfl
@[simp] theorem State.setPort_shroud (n : Nat) (x : FbPort) : (s.setPort n x).shroud = s.shroud := rfl
@[simp] theorem State.setPort_pwm (n : Nat) (x : FbPort) : (s.setPort n x).pwm = s.pwm := rfl
@[simp] theorem State.setPort_axes (n : Nat) (x : FbPort) : (s.setPort n x).axes = s.axes := rfl
@[simp] theorem State.setPort_field (n : Nat) (x : FbPort) : (s.setPort n x).field = s.field := rfl
@[simp] theorem State.setPort_can (n : Nat) (x : FbPort) : (s.setPort n x).can = s.can := rfl
@[simp] theorem State.setPort_pair (n : Nat) (x : FbPort) : (s.setPort n x).pair = s.pair := rfl
@[simp] theorem State.setPort_rig (n : Nat) (x : FbPort) : (s.setPort n x).rig = s.rig := rfl
@[simp] theorem State.setPort_data (n : Nat) (x : FbPort) : (s.setPort n x).data = s.data := rfl
@[simp] theorem State.setPort_burst (n : Nat) (x : FbPort) : (s.setPort n x).burst = s.burst := rfl
@[simp] theorem State.setPort_freeCtr (n : Nat) (x : FbPort) : (s.setPort n x).freeCtr = s.freeCtr := rfl
@[simp] theorem State.setPort_pending (n : Nat) (x : FbPort) : (s.setPort n x).pending = s.pending := rfl

@[simp] theorem State.setAxis_regs (n : Nat) (x : StAxis) : (s.setAxis n x).regs = s.regs := rfl
@[simp] theorem State.setAxis_eff (n : Nat) (x : StAxis) : (s.setAxis n x).eff = s.eff := rfl
@[simp] theorem State.setAxis_mem (n : Nat) (x : StAxis) : (s.setAxis n x).mem = s.mem := rfl
@[simp] theorem State.setAxis_flash (n : Nat) (x : StAxis) : (s.setAxis n x).flash = s.flash := rfl
@[simp] theorem State.setAxis_eccBad (n : Nat) (x : StAxis) : (s.setAxis n x).eccBad = s.eccBad := rfl
@[simp] theorem State.setAxis_time (n : Nat) (x : StAxis) : (s.setAxis n x).time = s.time := rfl
@[simp] theorem State.setAxis_ini (n : Nat) (x : StAxis) : (s.setAxis n x).ini = s.ini := rfl
@[simp] theorem State.setAxis_hal (n : Nat) (x : StAxis) : (s.setAxis n x).hal = s.hal := rfl
@[simp] theorem State.setAxis_cores (n : Nat) (x : StAxis) : (s.setAxis n x).cores = s.cores := rfl
@[simp] theorem State.setAxis_log (n : Nat) (x : StAxis) : (s.setAxis n x).log = s.log := rfl
@[simp] theorem State.setAxis_rigging (n : Nat) (x : StAxis) : (s.setAxis n x).rigging = s.rigging := rfl
@[simp] theorem State.setAxis_host (n : Nat) (x : StAxis) : (s.setAxis n x).host = s.host := rfl
@[simp] theorem State.setAxis_power (n : Nat) (x : StAxis) : (s.setAxis n x).power = s.power := rfl
@[simp] theorem State.setAxis_joints (n : Nat) (x : StAxis) : (s.setAxis n x).joints = s.joints := rfl
@[simp] theorem State.setAxis_arms (n : Nat) (x : StAxis) : (s.setAxis n x).arms = s.arms := rfl
@[simp] theorem State.setAxis_engines (n : Nat) (x : StAxis) : (s.setAxis n x).engines = s.engines := rfl
@[simp] theorem State.setAxis_lines (n : Nat) (x : StAxis) : (s.setAxis n x).lines = s.lines := rfl
@[simp] theorem State.setAxis_fta (n : Nat) (x : StAxis) : (s.setAxis n x).fta = s.fta := rfl
@[simp] theorem State.setAxis_spar (n : Nat) (x : StAxis) : (s.setAxis n x).spar = s.spar := rfl
@[simp] theorem State.setAxis_canvas (n : Nat) (x : StAxis) : (s.setAxis n x).canvas = s.canvas := rfl
@[simp] theorem State.setAxis_shroud (n : Nat) (x : StAxis) : (s.setAxis n x).shroud = s.shroud := rfl
@[simp] theorem State.setAxis_pwm (n : Nat) (x : StAxis) : (s.setAxis n x).pwm = s.pwm := rfl
@[simp] theorem State.setAxis_ports (n : Nat) (x : StAxis) : (s.setAxis n x).ports = s.ports := rfl
@[simp] theorem State.setAxis_field (n : Nat) (x : StAxis) : (s.setAxis n x).field = s.field := rfl
@[simp] theorem State.setAxis_can (n : Nat) (x : StAxis) : (s.setAxis n x).can = s.can := rfl
@[simp] theorem State.setAxis_pair (n : Nat) (x : StAxis) : (s.setAxis n x).pair = s.pair := rfl
@[simp] theorem State.setAxis_rig (n : Nat) (x : StAxis) : (s.setAxis n x).rig = s.rig := rfl
@[simp] theorem State.setAxis_data (n : Nat) (x : StAxis) : (s.setAxis n x).data = s.data := rfl
@[simp] theorem State.setAxis_burst (n : Nat) (x : StAxis) : (s.setAxis n x).burst = s.burst := rfl
@[simp] theorem State.setAxis_freeCtr (n : Nat) (x : StAxis) : (s.setAxis n x).freeCtr = s.freeCtr := rfl
@[simp] theorem State.setAxis_pending (n : Nat) (x : StAxis) : (s.setAxis n x).pending = s.pending := rfl

@[simp] theorem State.setFin_regs (n : Nat) (x : FiIn) : (s.setFin n x).regs = s.regs := rfl
@[simp] theorem State.setFin_eff (n : Nat) (x : FiIn) : (s.setFin n x).eff = s.eff := rfl
@[simp] theorem State.setFin_mem (n : Nat) (x : FiIn) : (s.setFin n x).mem = s.mem := rfl
@[simp] theorem State.setFin_flash (n : Nat) (x : FiIn) : (s.setFin n x).flash = s.flash := rfl
@[simp] theorem State.setFin_eccBad (n : Nat) (x : FiIn) : (s.setFin n x).eccBad = s.eccBad := rfl
@[simp] theorem State.setFin_time (n : Nat) (x : FiIn) : (s.setFin n x).time = s.time := rfl
@[simp] theorem State.setFin_ini (n : Nat) (x : FiIn) : (s.setFin n x).ini = s.ini := rfl
@[simp] theorem State.setFin_hal (n : Nat) (x : FiIn) : (s.setFin n x).hal = s.hal := rfl
@[simp] theorem State.setFin_cores (n : Nat) (x : FiIn) : (s.setFin n x).cores = s.cores := rfl
@[simp] theorem State.setFin_log (n : Nat) (x : FiIn) : (s.setFin n x).log = s.log := rfl
@[simp] theorem State.setFin_rigging (n : Nat) (x : FiIn) : (s.setFin n x).rigging = s.rigging := rfl
@[simp] theorem State.setFin_host (n : Nat) (x : FiIn) : (s.setFin n x).host = s.host := rfl
@[simp] theorem State.setFin_power (n : Nat) (x : FiIn) : (s.setFin n x).power = s.power := rfl
@[simp] theorem State.setFin_joints (n : Nat) (x : FiIn) : (s.setFin n x).joints = s.joints := rfl
@[simp] theorem State.setFin_arms (n : Nat) (x : FiIn) : (s.setFin n x).arms = s.arms := rfl
@[simp] theorem State.setFin_engines (n : Nat) (x : FiIn) : (s.setFin n x).engines = s.engines := rfl
@[simp] theorem State.setFin_lines (n : Nat) (x : FiIn) : (s.setFin n x).lines = s.lines := rfl
@[simp] theorem State.setFin_fta (n : Nat) (x : FiIn) : (s.setFin n x).fta = s.fta := rfl
@[simp] theorem State.setFin_spar (n : Nat) (x : FiIn) : (s.setFin n x).spar = s.spar := rfl
@[simp] theorem State.setFin_canvas (n : Nat) (x : FiIn) : (s.setFin n x).canvas = s.canvas := rfl
@[simp] theorem State.setFin_shroud (n : Nat) (x : FiIn) : (s.setFin n x).shroud = s.shroud := rfl
@[simp] theorem State.setFin_pwm (n : Nat) (x : FiIn) : (s.setFin n x).pwm = s.pwm := rfl
@[simp] theorem State.setFin_ports (n : Nat) (x : FiIn) : (s.setFin n x).ports = s.ports := rfl
@[simp] theorem State.setFin_axes (n : Nat) (x : FiIn) : (s.setFin n x).axes = s.axes := rfl
@[simp] theorem State.setFin_can (n : Nat) (x : FiIn) : (s.setFin n x).can = s.can := rfl
@[simp] theorem State.setFin_pair (n : Nat) (x : FiIn) : (s.setFin n x).pair = s.pair := rfl
@[simp] theorem State.setFin_rig (n : Nat) (x : FiIn) : (s.setFin n x).rig = s.rig := rfl
@[simp] theorem State.setFin_data (n : Nat) (x : FiIn) : (s.setFin n x).data = s.data := rfl
@[simp] theorem State.setFin_burst (n : Nat) (x : FiIn) : (s.setFin n x).burst = s.burst := rfl
@[simp] theorem State.setFin_freeCtr (n : Nat) (x : FiIn) : (s.setFin n x).freeCtr = s.freeCtr := rfl
@[simp] theorem State.setFin_pending (n : Nat) (x : FiIn) : (s.setFin n x).pending = s.pending := rfl

@[simp] theorem State.setCn_regs (n : Nat) (x : CanSt) : (s.setCn n x).regs = s.regs := rfl
@[simp] theorem State.setCn_eff (n : Nat) (x : CanSt) : (s.setCn n x).eff = s.eff := rfl
@[simp] theorem State.setCn_mem (n : Nat) (x : CanSt) : (s.setCn n x).mem = s.mem := rfl
@[simp] theorem State.setCn_flash (n : Nat) (x : CanSt) : (s.setCn n x).flash = s.flash := rfl
@[simp] theorem State.setCn_eccBad (n : Nat) (x : CanSt) : (s.setCn n x).eccBad = s.eccBad := rfl
@[simp] theorem State.setCn_time (n : Nat) (x : CanSt) : (s.setCn n x).time = s.time := rfl
@[simp] theorem State.setCn_ini (n : Nat) (x : CanSt) : (s.setCn n x).ini = s.ini := rfl
@[simp] theorem State.setCn_hal (n : Nat) (x : CanSt) : (s.setCn n x).hal = s.hal := rfl
@[simp] theorem State.setCn_cores (n : Nat) (x : CanSt) : (s.setCn n x).cores = s.cores := rfl
@[simp] theorem State.setCn_log (n : Nat) (x : CanSt) : (s.setCn n x).log = s.log := rfl
@[simp] theorem State.setCn_rigging (n : Nat) (x : CanSt) : (s.setCn n x).rigging = s.rigging := rfl
@[simp] theorem State.setCn_host (n : Nat) (x : CanSt) : (s.setCn n x).host = s.host := rfl
@[simp] theorem State.setCn_power (n : Nat) (x : CanSt) : (s.setCn n x).power = s.power := rfl
@[simp] theorem State.setCn_joints (n : Nat) (x : CanSt) : (s.setCn n x).joints = s.joints := rfl
@[simp] theorem State.setCn_arms (n : Nat) (x : CanSt) : (s.setCn n x).arms = s.arms := rfl
@[simp] theorem State.setCn_engines (n : Nat) (x : CanSt) : (s.setCn n x).engines = s.engines := rfl
@[simp] theorem State.setCn_lines (n : Nat) (x : CanSt) : (s.setCn n x).lines = s.lines := rfl
@[simp] theorem State.setCn_fta (n : Nat) (x : CanSt) : (s.setCn n x).fta = s.fta := rfl
@[simp] theorem State.setCn_spar (n : Nat) (x : CanSt) : (s.setCn n x).spar = s.spar := rfl
@[simp] theorem State.setCn_canvas (n : Nat) (x : CanSt) : (s.setCn n x).canvas = s.canvas := rfl
@[simp] theorem State.setCn_shroud (n : Nat) (x : CanSt) : (s.setCn n x).shroud = s.shroud := rfl
@[simp] theorem State.setCn_pwm (n : Nat) (x : CanSt) : (s.setCn n x).pwm = s.pwm := rfl
@[simp] theorem State.setCn_ports (n : Nat) (x : CanSt) : (s.setCn n x).ports = s.ports := rfl
@[simp] theorem State.setCn_axes (n : Nat) (x : CanSt) : (s.setCn n x).axes = s.axes := rfl
@[simp] theorem State.setCn_field (n : Nat) (x : CanSt) : (s.setCn n x).field = s.field := rfl
@[simp] theorem State.setCn_pair (n : Nat) (x : CanSt) : (s.setCn n x).pair = s.pair := rfl
@[simp] theorem State.setCn_rig (n : Nat) (x : CanSt) : (s.setCn n x).rig = s.rig := rfl
@[simp] theorem State.setCn_data (n : Nat) (x : CanSt) : (s.setCn n x).data = s.data := rfl
@[simp] theorem State.setCn_burst (n : Nat) (x : CanSt) : (s.setCn n x).burst = s.burst := rfl
@[simp] theorem State.setCn_freeCtr (n : Nat) (x : CanSt) : (s.setCn n x).freeCtr = s.freeCtr := rfl
@[simp] theorem State.setCn_pending (n : Nat) (x : CanSt) : (s.setCn n x).pending = s.pending := rfl

@[simp] theorem State.setPline_regs (n : Nat) (x : PairLine) : (s.setPline n x).regs = s.regs := rfl
@[simp] theorem State.setPline_eff (n : Nat) (x : PairLine) : (s.setPline n x).eff = s.eff := rfl
@[simp] theorem State.setPline_mem (n : Nat) (x : PairLine) : (s.setPline n x).mem = s.mem := rfl
@[simp] theorem State.setPline_flash (n : Nat) (x : PairLine) : (s.setPline n x).flash = s.flash := rfl
@[simp] theorem State.setPline_eccBad (n : Nat) (x : PairLine) : (s.setPline n x).eccBad = s.eccBad := rfl
@[simp] theorem State.setPline_time (n : Nat) (x : PairLine) : (s.setPline n x).time = s.time := rfl
@[simp] theorem State.setPline_ini (n : Nat) (x : PairLine) : (s.setPline n x).ini = s.ini := rfl
@[simp] theorem State.setPline_hal (n : Nat) (x : PairLine) : (s.setPline n x).hal = s.hal := rfl
@[simp] theorem State.setPline_cores (n : Nat) (x : PairLine) : (s.setPline n x).cores = s.cores := rfl
@[simp] theorem State.setPline_log (n : Nat) (x : PairLine) : (s.setPline n x).log = s.log := rfl
@[simp] theorem State.setPline_rigging (n : Nat) (x : PairLine) : (s.setPline n x).rigging = s.rigging := rfl
@[simp] theorem State.setPline_host (n : Nat) (x : PairLine) : (s.setPline n x).host = s.host := rfl
@[simp] theorem State.setPline_power (n : Nat) (x : PairLine) : (s.setPline n x).power = s.power := rfl
@[simp] theorem State.setPline_joints (n : Nat) (x : PairLine) : (s.setPline n x).joints = s.joints := rfl
@[simp] theorem State.setPline_arms (n : Nat) (x : PairLine) : (s.setPline n x).arms = s.arms := rfl
@[simp] theorem State.setPline_engines (n : Nat) (x : PairLine) : (s.setPline n x).engines = s.engines := rfl
@[simp] theorem State.setPline_lines (n : Nat) (x : PairLine) : (s.setPline n x).lines = s.lines := rfl
@[simp] theorem State.setPline_fta (n : Nat) (x : PairLine) : (s.setPline n x).fta = s.fta := rfl
@[simp] theorem State.setPline_spar (n : Nat) (x : PairLine) : (s.setPline n x).spar = s.spar := rfl
@[simp] theorem State.setPline_canvas (n : Nat) (x : PairLine) : (s.setPline n x).canvas = s.canvas := rfl
@[simp] theorem State.setPline_shroud (n : Nat) (x : PairLine) : (s.setPline n x).shroud = s.shroud := rfl
@[simp] theorem State.setPline_pwm (n : Nat) (x : PairLine) : (s.setPline n x).pwm = s.pwm := rfl
@[simp] theorem State.setPline_ports (n : Nat) (x : PairLine) : (s.setPline n x).ports = s.ports := rfl
@[simp] theorem State.setPline_axes (n : Nat) (x : PairLine) : (s.setPline n x).axes = s.axes := rfl
@[simp] theorem State.setPline_field (n : Nat) (x : PairLine) : (s.setPline n x).field = s.field := rfl
@[simp] theorem State.setPline_can (n : Nat) (x : PairLine) : (s.setPline n x).can = s.can := rfl
@[simp] theorem State.setPline_rig (n : Nat) (x : PairLine) : (s.setPline n x).rig = s.rig := rfl
@[simp] theorem State.setPline_data (n : Nat) (x : PairLine) : (s.setPline n x).data = s.data := rfl
@[simp] theorem State.setPline_burst (n : Nat) (x : PairLine) : (s.setPline n x).burst = s.burst := rfl
@[simp] theorem State.setPline_freeCtr (n : Nat) (x : PairLine) : (s.setPline n x).freeCtr = s.freeCtr := rfl
@[simp] theorem State.setPline_pending (n : Nat) (x : PairLine) : (s.setPline n x).pending = s.pending := rfl

@[simp] theorem State.setPe_regs (n : Nat) (x : PePort) : (s.setPe n x).regs = s.regs := rfl
@[simp] theorem State.setPe_eff (n : Nat) (x : PePort) : (s.setPe n x).eff = s.eff := rfl
@[simp] theorem State.setPe_mem (n : Nat) (x : PePort) : (s.setPe n x).mem = s.mem := rfl
@[simp] theorem State.setPe_flash (n : Nat) (x : PePort) : (s.setPe n x).flash = s.flash := rfl
@[simp] theorem State.setPe_eccBad (n : Nat) (x : PePort) : (s.setPe n x).eccBad = s.eccBad := rfl
@[simp] theorem State.setPe_time (n : Nat) (x : PePort) : (s.setPe n x).time = s.time := rfl
@[simp] theorem State.setPe_ini (n : Nat) (x : PePort) : (s.setPe n x).ini = s.ini := rfl
@[simp] theorem State.setPe_hal (n : Nat) (x : PePort) : (s.setPe n x).hal = s.hal := rfl
@[simp] theorem State.setPe_cores (n : Nat) (x : PePort) : (s.setPe n x).cores = s.cores := rfl
@[simp] theorem State.setPe_log (n : Nat) (x : PePort) : (s.setPe n x).log = s.log := rfl
@[simp] theorem State.setPe_rigging (n : Nat) (x : PePort) : (s.setPe n x).rigging = s.rigging := rfl
@[simp] theorem State.setPe_power (n : Nat) (x : PePort) : (s.setPe n x).power = s.power := rfl
@[simp] theorem State.setPe_joints (n : Nat) (x : PePort) : (s.setPe n x).joints = s.joints := rfl
@[simp] theorem State.setPe_arms (n : Nat) (x : PePort) : (s.setPe n x).arms = s.arms := rfl
@[simp] theorem State.setPe_engines (n : Nat) (x : PePort) : (s.setPe n x).engines = s.engines := rfl
@[simp] theorem State.setPe_lines (n : Nat) (x : PePort) : (s.setPe n x).lines = s.lines := rfl
@[simp] theorem State.setPe_fta (n : Nat) (x : PePort) : (s.setPe n x).fta = s.fta := rfl
@[simp] theorem State.setPe_spar (n : Nat) (x : PePort) : (s.setPe n x).spar = s.spar := rfl
@[simp] theorem State.setPe_canvas (n : Nat) (x : PePort) : (s.setPe n x).canvas = s.canvas := rfl
@[simp] theorem State.setPe_shroud (n : Nat) (x : PePort) : (s.setPe n x).shroud = s.shroud := rfl
@[simp] theorem State.setPe_pwm (n : Nat) (x : PePort) : (s.setPe n x).pwm = s.pwm := rfl
@[simp] theorem State.setPe_ports (n : Nat) (x : PePort) : (s.setPe n x).ports = s.ports := rfl
@[simp] theorem State.setPe_axes (n : Nat) (x : PePort) : (s.setPe n x).axes = s.axes := rfl
@[simp] theorem State.setPe_field (n : Nat) (x : PePort) : (s.setPe n x).field = s.field := rfl
@[simp] theorem State.setPe_can (n : Nat) (x : PePort) : (s.setPe n x).can = s.can := rfl
@[simp] theorem State.setPe_pair (n : Nat) (x : PePort) : (s.setPe n x).pair = s.pair := rfl
@[simp] theorem State.setPe_rig (n : Nat) (x : PePort) : (s.setPe n x).rig = s.rig := rfl
@[simp] theorem State.setPe_data (n : Nat) (x : PePort) : (s.setPe n x).data = s.data := rfl
@[simp] theorem State.setPe_burst (n : Nat) (x : PePort) : (s.setPe n x).burst = s.burst := rfl
@[simp] theorem State.setPe_freeCtr (n : Nat) (x : PePort) : (s.setPe n x).freeCtr = s.freeCtr := rfl
@[simp] theorem State.setPe_pending (n : Nat) (x : PePort) : (s.setPe n x).pending = s.pending := rfl

@[simp] theorem State.setNet_regs (n : Nat) (x : Net) : (s.setNet n x).regs = s.regs := rfl
@[simp] theorem State.setNet_eff (n : Nat) (x : Net) : (s.setNet n x).eff = s.eff := rfl
@[simp] theorem State.setNet_mem (n : Nat) (x : Net) : (s.setNet n x).mem = s.mem := rfl
@[simp] theorem State.setNet_flash (n : Nat) (x : Net) : (s.setNet n x).flash = s.flash := rfl
@[simp] theorem State.setNet_eccBad (n : Nat) (x : Net) : (s.setNet n x).eccBad = s.eccBad := rfl
@[simp] theorem State.setNet_time (n : Nat) (x : Net) : (s.setNet n x).time = s.time := rfl
@[simp] theorem State.setNet_ini (n : Nat) (x : Net) : (s.setNet n x).ini = s.ini := rfl
@[simp] theorem State.setNet_hal (n : Nat) (x : Net) : (s.setNet n x).hal = s.hal := rfl
@[simp] theorem State.setNet_cores (n : Nat) (x : Net) : (s.setNet n x).cores = s.cores := rfl
@[simp] theorem State.setNet_log (n : Nat) (x : Net) : (s.setNet n x).log = s.log := rfl
@[simp] theorem State.setNet_host (n : Nat) (x : Net) : (s.setNet n x).host = s.host := rfl
@[simp] theorem State.setNet_power (n : Nat) (x : Net) : (s.setNet n x).power = s.power := rfl
@[simp] theorem State.setNet_joints (n : Nat) (x : Net) : (s.setNet n x).joints = s.joints := rfl
@[simp] theorem State.setNet_arms (n : Nat) (x : Net) : (s.setNet n x).arms = s.arms := rfl
@[simp] theorem State.setNet_engines (n : Nat) (x : Net) : (s.setNet n x).engines = s.engines := rfl
@[simp] theorem State.setNet_lines (n : Nat) (x : Net) : (s.setNet n x).lines = s.lines := rfl
@[simp] theorem State.setNet_fta (n : Nat) (x : Net) : (s.setNet n x).fta = s.fta := rfl
@[simp] theorem State.setNet_spar (n : Nat) (x : Net) : (s.setNet n x).spar = s.spar := rfl
@[simp] theorem State.setNet_canvas (n : Nat) (x : Net) : (s.setNet n x).canvas = s.canvas := rfl
@[simp] theorem State.setNet_shroud (n : Nat) (x : Net) : (s.setNet n x).shroud = s.shroud := rfl
@[simp] theorem State.setNet_pwm (n : Nat) (x : Net) : (s.setNet n x).pwm = s.pwm := rfl
@[simp] theorem State.setNet_ports (n : Nat) (x : Net) : (s.setNet n x).ports = s.ports := rfl
@[simp] theorem State.setNet_axes (n : Nat) (x : Net) : (s.setNet n x).axes = s.axes := rfl
@[simp] theorem State.setNet_field (n : Nat) (x : Net) : (s.setNet n x).field = s.field := rfl
@[simp] theorem State.setNet_can (n : Nat) (x : Net) : (s.setNet n x).can = s.can := rfl
@[simp] theorem State.setNet_pair (n : Nat) (x : Net) : (s.setNet n x).pair = s.pair := rfl
@[simp] theorem State.setNet_rig (n : Nat) (x : Net) : (s.setNet n x).rig = s.rig := rfl
@[simp] theorem State.setNet_data (n : Nat) (x : Net) : (s.setNet n x).data = s.data := rfl
@[simp] theorem State.setNet_burst (n : Nat) (x : Net) : (s.setNet n x).burst = s.burst := rfl
@[simp] theorem State.setNet_freeCtr (n : Nat) (x : Net) : (s.setNet n x).freeCtr = s.freeCtr := rfl
@[simp] theorem State.setNet_pending (n : Nat) (x : Net) : (s.setNet n x).pending = s.pending := rfl

@[simp] theorem State.answer_regs (v : Word) : (s.answer v).regs = s.regs := rfl
@[simp] theorem State.answer_eff (v : Word) : (s.answer v).eff = s.eff := rfl
@[simp] theorem State.answer_mem (v : Word) : (s.answer v).mem = s.mem := rfl
@[simp] theorem State.answer_flash (v : Word) : (s.answer v).flash = s.flash := rfl
@[simp] theorem State.answer_eccBad (v : Word) : (s.answer v).eccBad = s.eccBad := rfl
@[simp] theorem State.answer_time (v : Word) : (s.answer v).time = s.time := rfl
@[simp] theorem State.answer_ini (v : Word) : (s.answer v).ini = s.ini := rfl
@[simp] theorem State.answer_hal (v : Word) : (s.answer v).hal = s.hal := rfl
@[simp] theorem State.answer_cores (v : Word) : (s.answer v).cores = s.cores := rfl
@[simp] theorem State.answer_log (v : Word) : (s.answer v).log = s.log := rfl
@[simp] theorem State.answer_rigging (v : Word) : (s.answer v).rigging = s.rigging := rfl
@[simp] theorem State.answer_host (v : Word) : (s.answer v).host = s.host := rfl
@[simp] theorem State.answer_power (v : Word) : (s.answer v).power = s.power := rfl
@[simp] theorem State.answer_joints (v : Word) : (s.answer v).joints = s.joints := rfl
@[simp] theorem State.answer_arms (v : Word) : (s.answer v).arms = s.arms := rfl
@[simp] theorem State.answer_engines (v : Word) : (s.answer v).engines = s.engines := rfl
@[simp] theorem State.answer_lines (v : Word) : (s.answer v).lines = s.lines := rfl
@[simp] theorem State.answer_fta (v : Word) : (s.answer v).fta = s.fta := rfl
@[simp] theorem State.answer_spar (v : Word) : (s.answer v).spar = s.spar := rfl
@[simp] theorem State.answer_canvas (v : Word) : (s.answer v).canvas = s.canvas := rfl
@[simp] theorem State.answer_shroud (v : Word) : (s.answer v).shroud = s.shroud := rfl
@[simp] theorem State.answer_pwm (v : Word) : (s.answer v).pwm = s.pwm := rfl
@[simp] theorem State.answer_ports (v : Word) : (s.answer v).ports = s.ports := rfl
@[simp] theorem State.answer_axes (v : Word) : (s.answer v).axes = s.axes := rfl
@[simp] theorem State.answer_field (v : Word) : (s.answer v).field = s.field := rfl
@[simp] theorem State.answer_can (v : Word) : (s.answer v).can = s.can := rfl
@[simp] theorem State.answer_pair (v : Word) : (s.answer v).pair = s.pair := rfl
@[simp] theorem State.answer_rig (v : Word) : (s.answer v).rig = s.rig := rfl
@[simp] theorem State.answer_burst (v : Word) : (s.answer v).burst = s.burst := rfl
@[simp] theorem State.answer_freeCtr (v : Word) : (s.answer v).freeCtr = s.freeCtr := rfl
@[simp] theorem State.answer_pending (v : Word) : (s.answer v).pending = s.pending := rfl

@[simp] theorem State.draw_regs (w : Nat) : (s.draw w).2.regs = s.regs := rfl
@[simp] theorem State.draw_eff (w : Nat) : (s.draw w).2.eff = s.eff := rfl
@[simp] theorem State.draw_mem (w : Nat) : (s.draw w).2.mem = s.mem := rfl
@[simp] theorem State.draw_flash (w : Nat) : (s.draw w).2.flash = s.flash := rfl
@[simp] theorem State.draw_eccBad (w : Nat) : (s.draw w).2.eccBad = s.eccBad := rfl
@[simp] theorem State.draw_time (w : Nat) : (s.draw w).2.time = s.time := rfl
@[simp] theorem State.draw_ini (w : Nat) : (s.draw w).2.ini = s.ini := rfl
@[simp] theorem State.draw_hal (w : Nat) : (s.draw w).2.hal = s.hal := rfl
@[simp] theorem State.draw_cores (w : Nat) : (s.draw w).2.cores = s.cores := rfl
@[simp] theorem State.draw_log (w : Nat) : (s.draw w).2.log = s.log := rfl
@[simp] theorem State.draw_rigging (w : Nat) : (s.draw w).2.rigging = s.rigging := rfl
@[simp] theorem State.draw_host (w : Nat) : (s.draw w).2.host = s.host := rfl
@[simp] theorem State.draw_power (w : Nat) : (s.draw w).2.power = s.power := rfl
@[simp] theorem State.draw_joints (w : Nat) : (s.draw w).2.joints = s.joints := rfl
@[simp] theorem State.draw_arms (w : Nat) : (s.draw w).2.arms = s.arms := rfl
@[simp] theorem State.draw_engines (w : Nat) : (s.draw w).2.engines = s.engines := rfl
@[simp] theorem State.draw_lines (w : Nat) : (s.draw w).2.lines = s.lines := rfl
@[simp] theorem State.draw_fta (w : Nat) : (s.draw w).2.fta = s.fta := rfl
@[simp] theorem State.draw_spar (w : Nat) : (s.draw w).2.spar = s.spar := rfl
@[simp] theorem State.draw_canvas (w : Nat) : (s.draw w).2.canvas = s.canvas := rfl
@[simp] theorem State.draw_shroud (w : Nat) : (s.draw w).2.shroud = s.shroud := rfl
@[simp] theorem State.draw_pwm (w : Nat) : (s.draw w).2.pwm = s.pwm := rfl
@[simp] theorem State.draw_ports (w : Nat) : (s.draw w).2.ports = s.ports := rfl
@[simp] theorem State.draw_axes (w : Nat) : (s.draw w).2.axes = s.axes := rfl
@[simp] theorem State.draw_field (w : Nat) : (s.draw w).2.field = s.field := rfl
@[simp] theorem State.draw_can (w : Nat) : (s.draw w).2.can = s.can := rfl
@[simp] theorem State.draw_pair (w : Nat) : (s.draw w).2.pair = s.pair := rfl
@[simp] theorem State.draw_rig (w : Nat) : (s.draw w).2.rig = s.rig := rfl
@[simp] theorem State.draw_data (w : Nat) : (s.draw w).2.data = s.data := rfl
@[simp] theorem State.draw_burst (w : Nat) : (s.draw w).2.burst = s.burst := rfl
@[simp] theorem State.draw_pending (w : Nat) : (s.draw w).2.pending = s.pending := rfl
@[simp] theorem State.draw_freeCtr (w : Nat) : (s.draw w).2.freeCtr = s.freeCtr + 1 := rfl
@[simp] theorem State.answer_data (v : Word) : (s.answer v).data = v := rfl

end Sys2Proof.Machine
end

