-- ==== Sys2Proof/Laws/Tab.lean ====
section
/-! SUPPORT. The laws of sparse tables: reading after writing, and that every operation keeps the canonical form. -/

namespace Sys2Proof.Machine

variable {α : Type}

theorem tabAbove_del (b k : Nat) (t : Tab α) (h : tabAbove b t = true) : tabAbove b (tabDel t k) = true := by
  simp only [tabAbove, tabDel, List.all_eq_true, List.mem_filter] at *
  intro x hx
  exact h x hx.1

theorem tabAbove_filter (b : Nat) (p : Nat × α → Bool) (t : Tab α) (h : tabAbove b t = true) :
    tabAbove b (t.filter p) = true := by
  simp only [tabAbove, List.all_eq_true, List.mem_filter] at *
  intro x hx
  exact h x hx.1

theorem tabAbove_ins (b k : Nat) (v : α) (t : Tab α) (hb : b < k) (h : tabAbove b t = true) :
    tabAbove b (tabIns k v t) = true := by
  induction t with
  | nil => simp [tabIns, tabAbove, hb]
  | cons e t ih =>
    obtain ⟨k', v'⟩ := e
    simp only [tabAbove, List.all_cons, Bool.and_eq_true] at h
    unfold tabIns
    split
    · simp [tabAbove, hb, h.1, h.2]
    · have := ih (by simpa [tabAbove] using h.2)
      simp only [tabAbove, List.all_cons, Bool.and_eq_true] at *
      exact ⟨h.1, this⟩

theorem tabAbove_mono {a b : Nat} (hab : a ≤ b) (t : Tab α) (h : tabAbove b t = true) : tabAbove a t = true := by
  simp only [tabAbove, List.all_eq_true, decide_eq_true_eq] at *
  intro x hx
  have := h x hx
  omega

/-- A key at or below the bound of a table is unlisted. -/
theorem tabGet_above (d : Nat → α) (b k : Nat) (t : Tab α) (h : tabAbove b t = true) (hk : k ≤ b) : tabGet d t k = d k := by
  induction t with
  | nil => rfl
  | cons e t ih =>
    obtain ⟨k', v'⟩ := e
    simp only [tabAbove, List.all_cons, Bool.and_eq_true, decide_eq_true_eq] at h
    have hne : ¬ k' = k := by omega
    simp only [tabGet, hne, if_false]
    exact ih (by simpa [tabAbove] using h.2)

theorem tabGet_del_same (d : Nat → α) (k : Nat) (t : Tab α) : tabGet d (tabDel t k) k = d k := by
  induction t with
  | nil => rfl
  | cons e t ih =>
    obtain ⟨k', v'⟩ := e
    by_cases hk : k' = k
    · simpa [tabDel, hk] using ih
    · simp only [tabDel, List.filter_cons, bne_iff_ne, ne_eq, hk, not_false_eq_true, if_true, tabGet, if_false]
      simpa [tabDel] using ih

theorem tabGet_del_ne (d : Nat → α) (k j : Nat) (t : Tab α) (hj : j ≠ k) : tabGet d (tabDel t k) j = tabGet d t j := by
  induction t with
  | nil => rfl
  | cons e t ih =>
    obtain ⟨k', v'⟩ := e
    by_cases hk : k' = k
    · have hkj : ¬ k = j := fun h => hj h.symm
      have hb : (k' != k) = false := by simp [hk]
      simp only [tabDel, List.filter_cons, hb]
      simp only [tabGet, hk, hkj, if_false]
      simpa [tabDel] using ih
    · simp only [tabDel, List.filter_cons, bne_iff_ne, ne_eq, hk, not_false_eq_true, if_true, tabGet]
      split
      · rfl
      · simpa [tabDel] using ih

theorem tabGet_ins_same (d : Nat → α) (k : Nat) (v : α) (t : Tab α) (h : ∀ e ∈ t, e.1 ≠ k) : tabGet d (tabIns k v t) k = v := by
  induction t with
  | nil => simp [tabIns, tabGet]
  | cons e t ih =>
    obtain ⟨k', v'⟩ := e
    unfold tabIns
    split
    · simp [tabGet]
    · have hne : ¬ k' = k := h (k', v') (by simp)
      simp only [tabGet, hne, if_false]
      exact ih (fun e he => h e (by simp [he]))

theorem tabGet_ins_ne (d : Nat → α) (k j : Nat) (v : α) (t : Tab α) (hj : j ≠ k) :
    tabGet d (tabIns k v t) j = tabGet d t j := by
  have hkj : ¬ k = j := fun h => hj h.symm
  induction t with
  | nil => simp [tabIns, tabGet, hkj]
  | cons e t ih =>
    obtain ⟨k', v'⟩ := e
    unfold tabIns
    split
    · simp [tabGet, hkj]
    · simp only [tabGet]
      split
      · rfl
      · exact ih

theorem tabDel_absent (t : Tab α) (k : Nat) : ∀ e ∈ tabDel t k, e.1 ≠ k := by
  intro e he
  simp only [tabDel, List.mem_filter, bne_iff_ne] at he
  exact he.2

variable [DecidableEq α]

/-- Reading the key that was written. -/
@[simp] theorem tabGet_set_same (d : Nat → α) (t : Tab α) (k : Nat) (v : α) : tabGet d (tabSet d t k v) k = v := by
  unfold tabSet
  split
  · next h => rw [tabGet_del_same, h]
  · exact tabGet_ins_same d k v _ (tabDel_absent t k)

/-- Reading another key. -/
theorem tabGet_set_ne (d : Nat → α) (t : Tab α) (k j : Nat) (v : α) (hj : j ≠ k) :
    tabGet d (tabSet d t k v) j = tabGet d t j := by
  unfold tabSet
  split
  · exact tabGet_del_ne d k j t hj
  · rw [tabGet_ins_ne d k j v _ hj, tabGet_del_ne d k j t hj]

theorem tabWf_cons (d : Nat → α) (k : Nat) (v : α) (t : Tab α) :
    tabWf d ((k, v) :: t) = true ↔ tabAbove k t = true ∧ v ≠ d k ∧ tabWf d t = true := by
  simp [tabWf, and_assoc]

theorem tabWf_filter (d : Nat → α) (p : Nat × α → Bool) (t : Tab α) (h : tabWf d t = true) : tabWf d (t.filter p) = true := by
  induction t with
  | nil => rfl
  | cons e t ih =>
    obtain ⟨k, v⟩ := e
    rw [tabWf_cons] at h
    rw [List.filter_cons]
    split
    · rw [tabWf_cons]
      exact ⟨tabAbove_filter _ _ _ h.1, h.2.1, ih h.2.2⟩
    · exact ih h.2.2

theorem tabWf_del (d : Nat → α) (k : Nat) (t : Tab α) (h : tabWf d t = true) : tabWf d (tabDel t k) = true :=
  tabWf_filter d _ t h

theorem tabWf_ins (d : Nat → α) (k : Nat) (v : α) (t : Tab α) (hv : v ≠ d k) (hk : ∀ e ∈ t, e.1 ≠ k)
    (h : tabWf d t = true) : tabWf d (tabIns k v t) = true := by
  induction t with
  | nil => simp [tabIns, tabWf, tabAbove, hv]
  | cons e t ih =>
    obtain ⟨k', v'⟩ := e
    rw [tabWf_cons] at h
    unfold tabIns
    split
    · next hlt =>
      rw [tabWf_cons]
      refine ⟨?_, hv, (tabWf_cons d k' v' t).2 h⟩
      simp only [tabAbove, List.all_cons, Bool.and_eq_true, decide_eq_true_eq]
      exact ⟨hlt, tabAbove_mono (Nat.le_of_lt hlt) t h.1⟩
    · next hlt =>
      have hne : k' ≠ k := hk (k', v') (by simp)
      rw [tabWf_cons]
      exact ⟨tabAbove_ins k' k v t (by omega) h.1, h.2.1, ih (fun e he => hk e (by simp [he])) h.2.2⟩

/-- A write keeps the canonical form. -/
theorem tabWf_set (d : Nat → α) (t : Tab α) (k : Nat) (v : α) (h : tabWf d t = true) : tabWf d (tabSet d t k v) = true := by
  unfold tabSet
  split
  · exact tabWf_del d k t h
  · next hv => exact tabWf_ins d k v _ hv (tabDel_absent t k) (tabWf_del d k t h)

end Sys2Proof.Machine
end

