-- ==== Sys2Proof/Laws/Memory.lean ====
section
/-! SUPPORT. The laws of the memories: reading after writing, other bytes kept, and the canonical form kept by every operation. -/

namespace Sys2Proof.Machine

variable (s : State)

@[simp] theorem State.rdB_wrB (a : Nat) (b : Byte) : (s.wrB a b).rdB a = b := tabGet_set_same _ _ _ _

theorem State.rdB_wrB_ne (a c : Nat) (b : Byte) (h : c ≠ a) : (s.wrB a b).rdB c = s.rdB c := tabGet_set_ne _ _ _ _ _ h

/-- Bytes outside the stored ones are unchanged. -/
theorem State.rdB_putBytes_out (s : State) (a : Nat) (bs : List Byte) (c : Nat) (h : c < a ∨ a + bs.length ≤ c) :
    (s.putBytes a bs).rdB c = s.rdB c := by
  induction bs generalizing s a with
  | nil => rfl
  | cons b bs ih =>
    simp only [List.length_cons] at h
    rw [State.putBytes, ih _ _ (by omega), State.rdB_wrB_ne _ _ _ _ (by omega)]

/-- A stored byte reads back. -/
theorem State.rdB_putBytes (s : State) (a : Nat) (bs : List Byte) (i : Nat) (h : i < bs.length) :
    (s.putBytes a bs).rdB (a + i) = bs[i] := by
  induction bs generalizing s a i with
  | nil => exact absurd h (Nat.not_lt_zero _)
  | cons b bs ih =>
    cases i with
    | zero => rw [State.putBytes, State.rdB_putBytes_out _ _ _ _ (by omega)]; exact s.rdB_wrB a b
    | succ i =>
      have h' : i < bs.length := by simpa using h
      have := ih (s.wrB a b) (a + 1) i h'
      rw [State.putBytes, show a + (i + 1) = a + 1 + i by omega, this]
      rfl

theorem State.rdB_wrBytes_out (a : Nat) (bs : List Byte) (c : Nat) (h : c < a ∨ a + bs.length ≤ c) :
    (s.wrBytes a bs).rdB c = s.rdB c := s.rdB_putBytes_out a bs c h

theorem State.rdB_wrBytes (a : Nat) (bs : List Byte) (i : Nat) (h : i < bs.length) :
    (s.wrBytes a bs).rdB (a + i) = bs[i] := s.rdB_putBytes a bs i h

theorem leBytes_length (n v : Nat) : (leBytes n v).length = n := by
  induction n generalizing v with
  | zero => rfl
  | succ n ih => simp [leBytes, ih]

/-- The bytes of a number spell the number. -/
theorem leNat_leBytes (n v : Nat) : leNat (leBytes n v) = v % 256 ^ n := by
  induction n generalizing v with
  | zero => simp [leBytes, leNat, Nat.mod_one]
  | succ n ih =>
    simp only [leBytes, leNat, ih, BitVec.toNat_ofNat]
    have h : v % 256 ^ (n + 1) = v % 256 + 256 * (v / 256 % 256 ^ n) := by
      rw [show 256 ^ (n + 1) = 256 * 256 ^ n from by rw [Nat.pow_succ, Nat.mul_comm], Nat.mod_mul]
    exact h.symm

theorem State.rdBytes_wrBytes (a : Nat) (bs : List Byte) : (s.wrBytes a bs).rdBytes a bs.length = bs := by
  apply List.ext_getElem
  · simp [State.rdBytes]
  · intro i h1 h2
    simp only [State.rdBytes, List.getElem_map, List.getElem_range]
    exact s.rdB_wrBytes a bs i h2

/-- A word that was stored reads back. -/
theorem State.rd32_wr32 (a v : Nat) : (s.wr32 a v).rd32 a = v % 2 ^ 32 := by
  have h := s.rdBytes_wrBytes a (leBytes 4 v)
  rw [leBytes_length] at h
  rw [State.rd32, State.wr32, h, leNat_leBytes, show 256 ^ 4 = 2 ^ 32 from by decide]

/-- A word that does not meet the stored one is unchanged. -/
theorem State.rd32_wr32_ne (a v c : Nat) (h : c + 4 ≤ a ∨ a + 4 ≤ c) : (s.wr32 a v).rd32 c = s.rd32 c := by
  have e : (s.wr32 a v).rdBytes c 4 = s.rdBytes c 4 := by
    apply List.map_congr_left
    intro i hi
    have hi' : i < 4 := by simpa using hi
    exact s.rdB_wrBytes_out a _ _ (by rw [leBytes_length]; omega)
  rw [State.rd32, e, State.rd32]

/-! ### What a store of bytes leaves alone -/

theorem State.putBytes_regs (s : State) (a : Nat) (bs : List Byte) : (s.putBytes a bs).regs = s.regs := by
  induction bs generalizing s a with
  | nil => rfl
  | cons b bs ih => rw [State.putBytes, ih]; rfl

theorem State.putBytes_eq (s : State) (a : Nat) (bs : List Byte) :
    s.putBytes a bs = { s with mem := (s.putBytes a bs).mem } := by
  induction bs generalizing s a with
  | nil => rfl
  | cons b bs ih =>
    rw [State.putBytes]
    have h := ih (s.wrB a b) (a + 1)
    rw [h]
    rfl

/-- A write of bytes changes the memory and the uncorrectable words only. -/
theorem State.wrBytes_eq (a : Nat) (bs : List Byte) :
    s.wrBytes a bs = { s with mem := (s.wrBytes a bs).mem, eccBad := (s.wrBytes a bs).eccBad } := by
  have h := State.putBytes_eq s a bs
  unfold State.wrBytes
  rw [h]

theorem State.wr32_eq (a v : Nat) :
    s.wr32 a v = { s with mem := (s.wr32 a v).mem, eccBad := (s.wr32 a v).eccBad } := s.wrBytes_eq a _

/-! ### The canonical form -/

theorem State.mem_wf_wrB (a : Nat) (b : Byte) (h : tabWf memDefault s.mem = true) :
    tabWf memDefault (s.wrB a b).mem = true := tabWf_set _ _ _ _ h

theorem State.mem_wf_putBytes (s : State) (a : Nat) (bs : List Byte) (h : tabWf memDefault s.mem = true) :
    tabWf memDefault (s.putBytes a bs).mem = true := by
  induction bs generalizing s a with
  | nil => exact h
  | cons b bs ih => exact ih _ _ (s.mem_wf_wrB a b h)

theorem State.mem_wf_wrBytes (a : Nat) (bs : List Byte) (h : tabWf memDefault s.mem = true) :
    tabWf memDefault (s.wrBytes a bs).mem = true := s.mem_wf_putBytes a bs h

theorem State.mem_wf_wr32 (a v : Nat) (h : tabWf memDefault s.mem = true) :
    tabWf memDefault (s.wr32 a v).mem = true := s.mem_wf_wrBytes a _ h

/-! ### The flash -/

@[simp] theorem State.flB_setFlB (a : Nat) (b : Byte) : (s.setFlB a b).flB a = b := tabGet_set_same _ _ _ _

theorem State.flB_setFlB_ne (a c : Nat) (b : Byte) (h : c ≠ a) : (s.setFlB a b).flB c = s.flB c := tabGet_set_ne _ _ _ _ _ h

theorem State.flash_wf_setFlB (a : Nat) (b : Byte) (h : tabWf flashDefault s.flash = true) :
    tabWf flashDefault (s.setFlB a b).flash = true := tabWf_set _ _ _ _ h

theorem State.flash_wf_flPut (s : State) (a : Nat) (bs : List Byte) (h : tabWf flashDefault s.flash = true) :
    tabWf flashDefault (s.flPut a bs).flash = true := by
  induction bs generalizing s a with
  | nil => exact h
  | cons b bs ih => exact ih _ _ (s.flash_wf_setFlB a b h)

end Sys2Proof.Machine
end

