-- ==== Sys2Proof/Laws/Registers.lean ====
section
/-! SUPPORT. The laws of registers and fields: what is read after a write, in the same register and in others. -/

namespace Sys2Proof.Machine

variable (s : State)

@[simp] theorem State.reg_setReg (a : Nat) (v : Word) : (s.setReg a v).reg a = v := tabGet_set_same _ _ _ _

theorem State.reg_setReg_ne (a b : Nat) (v : Word) (h : b ≠ a) : (s.setReg a v).reg b = s.reg b :=
  tabGet_set_ne _ _ _ _ _ h

theorem State.reg_setFld_ne (f : Fld) (v b : Nat) (h : b ≠ f.addr) : (s.setFld f v).reg b = s.reg b :=
  s.reg_setReg_ne _ _ _ h

@[simp] theorem State.effReg_setEff (a : Nat) (v : Word) : (s.setEff a v).effReg a = v := tabGet_set_same _ _ _ _

theorem State.effReg_setEff_ne (a b : Nat) (v : Word) (h : b ≠ a) : (s.setEff a v).effReg b = s.effReg b :=
  tabGet_set_ne _ _ _ _ _ h

/-- A field after it was written. -/
theorem State.fld_setFld (f : Fld) (v : Nat) (hf : f.lo + f.width ≤ 32) : (s.setFld f v).fld f = v % 2 ^ f.width := by
  simp only [State.fld, State.setFld, State.reg_setReg, BitVec.toNat_ofNat]
  rw [Nat.mod_eq_of_lt (putBits_lt _ _ _ _ _ (s.reg f.addr).isLt hf), bits_putBits]

/-- A field that does not meet the one that was written. -/
theorem State.fld_setFld_ne (f g : Fld) (v : Nat) (hf : f.lo + f.width ≤ 32)
    (h : g.addr ≠ f.addr ∨ f.lo + f.width ≤ g.lo ∨ g.lo + g.width ≤ f.lo) : (s.setFld f v).fld g = s.fld g := by
  by_cases ha : g.addr = f.addr
  · have hd : f.lo + f.width ≤ g.lo ∨ g.lo + g.width ≤ f.lo := h.resolve_left (fun hn => hn ha)
    simp only [State.fld, State.setFld, ha, State.reg_setReg, BitVec.toNat_ofNat]
    rw [Nat.mod_eq_of_lt (putBits_lt _ _ _ _ _ (s.reg f.addr).isLt hf), bits_putBits_disjoint _ _ _ _ _ _ hd]
  · simp only [State.fld, State.reg_setFld_ne s f v g.addr ha]

/-- A field of another register than the one that was written. -/
theorem State.fld_setReg_ne (a : Nat) (v : Word) (g : Fld) (h : g.addr ≠ a) : (s.setReg a v).fld g = s.fld g := by
  simp only [State.fld, State.reg_setReg_ne s a g.addr v h]

/-- A field of the register that was written. -/
theorem State.fld_setReg (v : Word) (g : Fld) : (s.setReg g.addr v).fld g = bits v.toNat g.lo g.width := by
  simp only [State.fld, State.reg_setReg]

theorem State.reg_of_regs (s t : State) (h : t.regs = s.regs) (a : Nat) : t.reg a = s.reg a := by
  simp only [State.reg, h]

theorem State.fld_of_regs (s t : State) (h : t.regs = s.regs) (f : Fld) : t.fld f = s.fld f := by
  simp only [State.fld, State.reg, h]

theorem State.regs_wf_setReg (a : Nat) (v : Word) (h : tabWf resetWord s.regs = true) :
    tabWf resetWord (s.setReg a v).regs = true := tabWf_set _ _ _ _ h

theorem State.regs_wf_setFld (f : Fld) (v : Nat) (h : tabWf resetWord s.regs = true) :
    tabWf resetWord (s.setFld f v).regs = true := tabWf_set _ _ _ _ h

theorem State.eff_wf_setEff (a : Nat) (v : Word) (h : tabWf resetWord s.eff = true) :
    tabWf resetWord (s.setEff a v).eff = true := tabWf_set _ _ _ _ h

end Sys2Proof.Machine
end

