-- ==== Sys2Proof/Laws/Shared.lean ====
section
/-! SUPPORT. What the shared operations can do: which parts of the state an interrupt cause, a halyard event, a change of role, a
log entry and a sticky bit may change, and what they do to the bits they name. -/

namespace Sys2Proof.Machine

/-- The states that differ at most in the parts that a sticky bit can change: registers, memory, halyard, log, host, PWM, CAN,
pair, the clock synchronisation. -/
structure Near (s t : State) : Prop where
  eff : t.eff = s.eff
  flash : t.flash = s.flash
  time : t.time = s.time
  ini : t.ini = s.ini
  cores : t.cores = s.cores
  rigging : t.rigging = s.rigging
  power : t.power = s.power
  joints : t.joints = s.joints
  arms : t.arms = s.arms
  engines : t.engines = s.engines
  lines : t.lines = s.lines
  spar : t.spar = s.spar
  canvas : t.canvas = s.canvas
  shroud : t.shroud = s.shroud
  ports : t.ports = s.ports
  axes : t.axes = s.axes
  field : t.field = s.field
  rig : t.rig = s.rig
  data : t.data = s.data
  burst : t.burst = s.burst
  freeCtr : t.freeCtr = s.freeCtr
  pending : t.pending = s.pending

theorem Near.refl (s : State) : Near s s := by constructor <;> rfl

theorem Near.trans {s t u : State} (h : Near s t) (k : Near t u) : Near s u := by
  constructor
  all_goals first
    | exact k.eff.trans h.eff | exact k.flash.trans h.flash | exact k.time.trans h.time | exact k.ini.trans h.ini
    | exact k.cores.trans h.cores | exact k.rigging.trans h.rigging | exact k.power.trans h.power | exact k.joints.trans h.joints
    | exact k.arms.trans h.arms | exact k.engines.trans h.engines | exact k.lines.trans h.lines
    | exact k.spar.trans h.spar | exact k.canvas.trans h.canvas | exact k.shroud.trans h.shroud | exact k.ports.trans h.ports
    | exact k.axes.trans h.axes | exact k.field.trans h.field | exact k.rig.trans h.rig | exact k.data.trans h.data
    | exact k.burst.trans h.burst | exact k.freeCtr.trans h.freeCtr | exact k.pending.trans h.pending

variable (s : State)

theorem near_host (x : HostSt) : Near s { s with host := x } := by constructor <;> rfl
theorem near_hal (x : HalSt) : Near s { s with hal := x } := by constructor <;> rfl
theorem near_log (x : LogSt) : Near s { s with log := x } := by constructor <;> rfl
theorem near_pair (x : PairSt) : Near s { s with pair := x } := by constructor <;> rfl
theorem near_memEcc (m : Tab Byte) (l : List Nat) : Near s { s with mem := m, eccBad := l } := by constructor <;> rfl
theorem near_setReg (a : Nat) (v : Word) : Near s (s.setReg a v) := by constructor <;> rfl
theorem near_setFld (f : Fld) (v : Nat) : Near s (s.setFld f v) := by constructor <;> rfl
theorem near_incFld (f : Fld) : Near s (s.incFld f) := by constructor <;> rfl
theorem near_setCn (k : Nat) (x : CanSt) : Near s (s.setCn k x) := by constructor <;> rfl
theorem near_setPwg (g : Nat) (x : PwGroup) : Near s (s.setPwg g x) := by constructor <;> rfl

theorem near_wrBytes (a : Nat) (bs : List Byte) : Near s (s.wrBytes a bs) := by
  rw [State.wrBytes_eq]; exact near_memEcc _ _ _

theorem near_foldl {α : Type} (f : State → α → State) (hf : ∀ t x, Near t (f t x)) (l : List α) (s : State) :
    Near s (l.foldl f s) := by
  induction l generalizing s with
  | nil => exact Near.refl s
  | cons x l ih => exact (hf s x).trans (ih (f s x))

theorem near_cause (v : Nat) : Near s (s.cause v) := by
  simp only [State.cause]
  split
  · exact Near.refl s
  · split
    · exact (near_setReg s _ _).trans (near_host _ _)
    · split
      · exact (near_setReg s _ _).trans (near_host _ _)
      · exact near_setReg s _ _

theorem near_pushReady (i : Item) : Near s (s.pushReady i) := near_hal _ _

theorem near_hwPost (src : HalSrc) (flow prio kind arg0 arg1 : Nat) : Near s (s.hwPost src flow prio kind arg0 arg1) := by
  simp only [State.hwPost]
  split
  · exact Near.refl s
  · split
    · exact (near_hal s _).trans (near_incFld _ _)
    · split
      · exact near_pushReady _ _
      · exact near_hal _ _

theorem near_canResume (was now : Nat) : Near s (s.canResume was now) := by
  simp only [State.canResume]
  split
  · exact near_foldl _ (fun t k => near_setCn t _ _) _ _
  · exact Near.refl s

theorem near_fta (x : FtaSt) : Near s { s with fta := x } := by constructor <;> rfl

theorem near_beginRate : Near s s.beginRate := (near_setReg s _ _).trans (near_fta _ _)

theorem near_refreshApplied : Near s s.refreshApplied := by
  simp only [State.refreshApplied, State.setFlag]
  split
  · exact Near.refl s
  · split
    · exact (near_beginRate s).trans (near_setFld _ _ _)
    · exact near_setFld _ _ _

theorem near_roleTime : Near s s.roleTime := by
  simp only [State.roleTime]
  refine Near.trans ?_ (near_refreshApplied _)
  split
  · exact (near_beginRate s).trans (near_fta _ _)
  · exact near_fta _ _

theorem near_setRole (r : Nat) : Near s (s.setRole r) := by
  simp only [State.setRole]
  split
  · exact Near.refl s
  · have h := ((near_setFld s PR_STAT_ROLE r).trans (near_canResume _ s.role r)).trans (near_roleTime _)
    split
    · exact (h.trans (near_cause _ _)).trans (near_hwPost _ _ _ _ _ _ _)
    · exact h.trans (near_hwPost _ _ _ _ _ _ _)

theorem near_goHalted (cause : Nat) : Near s (s.goHalted cause) := by
  simp only [State.goHalted]
  have h := ((near_setRole s 4).trans (near_setFld _ PR_STAT_HALTCAUSE cause)).trans (near_setFld _ PR_STAT_RESYNC 0)
  exact (h.trans (near_foldl (fun (t : State) (g : Nat) => t.setPwg g { t.pwg g with open_ := false })
    (fun t g => near_setPwg t g _) (List.range 8) _)).trans (near_pair _ _)

theorem near_ringNew (e : LogEntry) : Near s (s.ringNew e) := by
  simp only [State.ringNew]
  exact ((near_wrBytes s _ _).trans (near_setFld _ _ _)).trans (near_log _ _)

theorem near_ringPut (e : LogEntry) (merge : Bool) : Near s (s.ringPut e merge) := by
  simp only [State.ringPut]
  split
  · split
    · exact Near.refl s
    · exact near_log _ _
  · split
    · split
      · exact near_wrBytes _ _ _
      · exact near_ringNew _ _
    · split
      · exact Near.refl s
      · exact (near_incFld s _).trans (near_log _ _)

theorem near_logIt (bit inst detail : Nat) : Near s (s.logIt bit inst detail) := by
  simp only [State.logIt]
  split
  · split
    · exact (near_log s _).trans (near_ringPut _ _ _)
    · exact (near_log s _).trans (near_ringPut _ _ _)
  · exact (near_log s _).trans (near_ringPut _ _ _)

theorem near_escalate : Near s s.escalate := by
  simp only [State.escalate]
  split
  · exact near_log _ _
  · exact near_goHalted _ _

/-- All that a sticky bit can change lies in the parts that `Near` leaves open. -/
theorem near_sticky (b inst detail : Nat) : Near s (s.sticky b inst detail) := by
  simp only [State.sticky]
  have h1 := (near_setReg s (GLB_FAULT_STICKY (b / 32)) (s.reg (GLB_FAULT_STICKY (b / 32)) ||| BitVec.ofNat 32 (2 ^ (b % 32)))).trans
    (near_logIt _ b inst (detail % 2 ^ 32))
  split
  · exact h1
  · refine Near.trans h1 ?_
    split <;> split
    · exact (near_cause _ _).trans (near_escalate _)
    · exact near_cause _ _
    · exact near_escalate _
    · exact Near.refl _

theorem near_goStale (cause : Nat) : Near s (s.goStale cause) := by
  simp only [State.goStale]
  split
  · exact ((near_setRole s 3).trans (near_setFld _ _ _)).trans (near_sticky _ _ _ _)
  · exact Near.refl s

/-! ### Accesses to a domain that is on -/

theorem State.gated_on (i : Initiator) (a : Nat) (f : State → State) (h : s.domainOn a = true) : s.gated i a f = f s := by
  simp [State.gated, h]

theorem State.domainOn_underWay (a : Nat) (hu : s.underWay = true) (ha : a < 0x02000000) : s.domainOn a = true := by
  have hf : s.power.furled = false := by
    simp only [State.underWay, Bool.and_eq_true, Bool.not_eq_true'] at hu
    exact hu.1
  have h1 : ¬ (0x02000000 ≤ a ∧ a < 0x02800000) := by omega
  simp [State.domainOn, hf, hu, h1]

end Sys2Proof.Machine
end

