-- ==== Sys2Proof/Tests/Slice0.lean ====
section
/-! SUPPORT. Tests: a command that each check of well-formedness refuses, and for every statement states and operands that meet its
hypotheses, with what one step there gives. The expected results are worked out by hand from the rules that the comments name. -/

namespace Sys2Proof.Tests

open Sys2Proof Sys2Proof.Machine

set_option Elab.async false

/-- What a command answers, when it is a next state, put to a check. -/
def after (o : Host.Outcome State Fault Refusal) (p : State → Bool) : Bool :=
  match o with
  | .next t => p t
  | _ => false

/-- Fields of registers set. -/
def sets (l : List (Fld × Nat)) (s : State) : State := l.foldl (fun t p => t.setFld p.1 p.2) s

/-- A module under way. -/
def uw : State := sets [(GLB_PWR_STAT_STATE, 0)] State.reset

/-- A module reefed, with a rig applied. -/
def reefed : State := sets [(GLB_PWR_STAT_STATE, 1), (RG_STAT_STATE, 2)] State.reset

/-- A module at a cell time in ns. -/
def at_ (ns : Nat) (s : State) : State := { s with time := { s.time with ct := ns * 2 ^ 32 } }

/-- A calibration set without pin delays (R352). -/
def noDelay (s : State) : State := { s with rig := { s.rig with cal := (List.range 256).map (fun k => (0x40 + k, 0)) } }

/-- A furled module. -/
def furledSt : State := { sets [(GLB_PWR_STAT_STATE, 2)] State.reset with power := { PowerSt.reset with furled := true } }

/-! ### Well-formed commands -/

/-- One ill-formed command for each check (R5, R12, R176, R227, R253, R263, R329, R354, R357). -/
theorem test_ill_formed : [
    Instr.registerWrite .host 0 3 0, .registerRead .host 0 ⟨0, false⟩, .registerRead .host 0 ⟨4, true⟩, .registerRead (.sc 0) 0 ⟨4, true⟩, .registerRead (.ac 0) 0 ⟨2, true⟩, .memoryWrite .host 0x08000000 ⟨[0, 0, 0, 0], .plain⟩, .memoryWrite (.sc 0) 0x08000000 ⟨[0, 0, 0, 0], .cond⟩,
    .memoryWrite (.ac 0) 0x08000000 ⟨[0, 0, 0], .plain⟩, .memoryWrite (.ac 0) 0x08000000 ⟨[0, 0], (.amo .add)⟩, .pcieRequest true 0 true 0 [], .pcieRequest false 0 true 513 [], .pcieRequest true 0 true 3 [0],
    .pcieRequest false 0 true 4 [0], .postNow .host 0x1000, .postDelay .host 0, .postWait .host 0x1000, .rigApply .host 2, .rollup .host 1, .calwrite .host 0, .keyprog .host 0,
    .keyrev .host 0, .keylock .host 0, .lineRun .host 0 0, .lineStop .host 0 1, .mbRead .host 0 1, .mbWrite .host 0 1,
    .mbIdent .host 0 1, .peFrameRx 0 true [0] ⟨0, 0, 0⟩, .canFrameRx 0 ⟨0, false, true, 1, false, false, false, [0]⟩ 0, .canFrameRx 0 ⟨0, false, true, 0, true, false, false, []⟩ 0,
    .canFrameRx 0 ⟨0, false, false, 0, false, true, false, []⟩ 0, .canFrameRx 0 ⟨0, false, false, 9, false, false, false, List.replicate 9 0⟩ 0,
    .reply 0 ⟨false, true, false, 0x88B5, List.replicate 1501 0, ⟨0, 0, 0⟩⟩, .mbrsp 0 ⟨false, true, false, 0x88B5, List.replicate 1501 0, ⟨0, 0, 0⟩⟩,
    .partnerCycleFrame 0 ⟨false, true, false, 0x88B5, List.replicate 1501 0, ⟨0, 0, 0⟩⟩, .coldFrame 0 ⟨false, true, false, 0x88B5, List.replicate 1501 0, ⟨0, 0, 0⟩⟩,
    .coldMbrsp 0 ⟨false, true, false, 0x88B5, List.replicate 1501 0, ⟨0, 0, 0⟩⟩, .ownFrameAtFarEnd 0 ⟨false, true, false, 0x88B5, List.replicate 1501 0, ⟨0, 0, 0⟩⟩,
    .partnerMask 0 0 [(11, 0)], .stayNodeDelayMeans 0 ⟨true, [(0, 0)]⟩, .cycleMessage 0 ⟨16, [], false, 0, false, false, false, 0, []⟩,
    .cycleMessage 0 ⟨0, [(10, 0, 0)], false, 0, false, false, false, 0, []⟩, .checkpointPage 2048 (List.replicate 4096 0) true, .checkpointPage 0 [0] true,
    .eccError ⟨.gsram, false⟩ 0x08000002 .host].all (fun c => !c.wf) = true := by decide +kernel

/-- A segment of more than 65 507 bytes is refused. -/
theorem test_ill_formed_segment : Instr.wf (.presenceSegment 0 false ⟨(List.replicate 65508 0), ⟨0, 0, 0⟩⟩) = false := by
  decide +kernel

/-- Commands at the ends of their ranges are well formed. -/
theorem test_well_formed : [
    Instr.registerWrite .host 0 8 0, .registerRead (.ac 3) 0 ⟨4, true⟩, .memoryWrite (.sc 1) 0x08000008 ⟨(List.replicate 8 0), .plain⟩, .memoryWrite (.ac 2) 0x08000002 ⟨[0, 0, 0, 0], .cond⟩, .pcieRequest true 0 true 256 (List.replicate 256 0),
    .pcieRequest false 0 true 512 [], .postNow .host 0x3000, .postWait .host 0x2000, .keylock .host 0xC0DE0006, .mbIdent .host 0 7, .peFrameRx 0 true (List.replicate 14 0) ⟨0, 0, 0⟩,
    .canFrameRx 0 ⟨0, false, false, 15, true, true, false, List.replicate 64 0⟩ 0, .reply 0 ⟨false, true, false, 0x88B5, List.replicate 1500 0, ⟨0, 0, 0⟩⟩,
    .partnerMask 0 0 [(1, 0), (10, 0)], .cycleMessage 0 ⟨15, [(9, 7, 0)], false, 0, false, false, false, 0, []⟩, .checkpointPage 2047 (List.replicate 4096 0) true,
    .eccError ⟨.dram, true⟩ 0x40000004 .host].all Instr.wf = true := by decide +kernel

/-! ### The block, accesses and cell time -/

/-- StepRunsTheFrontCommand, EmptyQueueStepIsOneTick (R31, R36), EveryStepKeepsTheTablesCanonical, EveryStepTakesOnlyTheFrontCommand: states that
meet their hypotheses; a tick of the 400 MHz mode adds 2.5 ns, one of the TCXO mode 40 ns. -/
theorem test_block : ({ uw with pending := [.halyardTick, .por] }).pending = Instr.halyardTick :: [.por] ∧
    after (step { uw with pending := [.por] }) (fun t => t.pending = []) ∧ uw.pending = [] ∧ uw.time.stepPend = none ∧ uw.clkMode = 0 ∧
    after (step uw) (fun t => t.time.ct = 0x280000000) ∧
    (sets [(CT_STAT_CLKMODE, 1)] uw).clkMode = 1 ∧ after (step (sets [(CT_STAT_CLKMODE, 1)] uw)) (fun t => t.time.ct = 40 * 2 ^ 32) ∧
    State.tables uw := by decide +kernel

/-- WritesFollowTheAccessTypes (R6): a register with an unsealed and a sealed write, and StickyBitIsSetAndLogged (R372) at its first and its last bit. -/
theorem test_access_types : (findRow GLB_WAKE_AT_LO).isSome ∧ uw.rig.sealed = false ∧ (uw.plainWrite .host GLB_WAKE_AT_LO 7).reg GLB_WAKE_AT_LO = 7 ∧
    (let s := { uw with rig := { uw.rig with sealed := true } }
     let t := s.plainWrite .host (GLB_FAULT_HALT 0) 1
     s.rig.sealed = true ∧ (t.reg (GLB_FAULT_HALT 0)) = s.reg (GLB_FAULT_HALT 0) ∧ (t.reg (GLB_FAULT_STICKY 0)).getLsbD 1) ∧
    ((uw.sticky 255 0 0).reg (GLB_FAULT_STICKY 7)).getLsbD 31 ∧ ((uw.sticky 0 0 0).reg (GLB_FAULT_STICKY 0)).getLsbD 0 := by decide +kernel

/-- RegisterAccessesBySizeAndPlace (R5, R8): a half word, an unlisted address of GLB, GLB_WAKE_AT_LO. -/
theorem test_register_accesses : uw.stuck .host = false ∧ uw.underWay = true ∧
    after (exec (.registerWrite .host 0x110 2 7) uw) (fun t => (t.reg (GLB_FAULT_STICKY 0)).getLsbD 0 && t.reg 0x110 == 0) ∧
    after (exec (.registerRead .host 0x112 ⟨4, false⟩) uw) (fun t => (t.reg (GLB_FAULT_STICKY 0)).getLsbD 0 && t.data == 0) ∧
    findRow 0xFFFC = none ∧ after (exec (.registerWrite .host 0xFFFC 4 7) uw) (fun t => t = uw) ∧
    after (exec (.registerWrite .host 0x110 4 7) uw) (fun t => t.reg GLB_WAKE_AT_LO == 7) := by decide +kernel

/-- MemoryWritesByRegion (R5, R10, R82, R126, R267, R355): the first and last words of general SRAM, the end of DRAM, the canvas SRAM, a safety core's memory, an
engine's fixed area. -/
theorem test_memory_writes : uw.stuck (.ac 0) = false ∧ alignedAccess 0x08FFFFF8 8 = true ∧ uw.mirPage 0x08FFFFF8 = none ∧
    after (exec (.memoryWrite (.ac 0) 0x08000000 ⟨[1, 2, 3, 4], .plain⟩) uw) (fun t => t.rd32 0x08000000 == 0x04030201) ∧
    after (exec (.memoryWrite (.ac 0) 0x08FFFFF8 ⟨[1, 0, 0, 0, 0, 0, 0, 2], .plain⟩) uw) (fun t => t.rdB 0x08FFFFFF == 2) ∧
    after (exec (.memoryWrite .host 0x50000000 ⟨[1], .plain⟩) uw) (fun t => t = uw) ∧
    (let s := sets [(SP_STRBASE_STRBASE, 0x41000000), (SP_INSTBASE_INSTBASE, 0x42000000)] uw
     s.sparArea 0x41FFFFFF = true ∧ s.sparArea 0x42800000 = false ∧ after (exec (.memoryWrite .host 0x41FFFFFF ⟨[7], .plain⟩) s) (fun t => (t.reg (GLB_FAULT_STICKY 1)).getLsbD 5 && t.rdB 0x41FFFFFF == 0) ∧
     after (exec (.memoryWrite (.sc 1) 0x42800000 ⟨[7], .plain⟩) s) (fun t => t.rdB 0x42800000 == 7)) ∧
    after (exec (.memoryWrite (.ac 0) 0x05FFFFFF ⟨[1], .plain⟩) uw) (fun t => (t.reg (GLB_FAULT_STICKY 1)).getLsbD 6) ∧
    after (exec (.memoryWrite (.ac 3) 0x12000000 ⟨[1], .plain⟩) uw) (fun t => (t.reg (GLB_FAULT_STICKY 1)).getLsbD 7) ∧
    after (exec (.memoryWrite (.ac 3) (BitVec.ofNat 32 (seData 7 0x3FFC)) ⟨[1, 2, 3, 4], .plain⟩) uw) (fun t => t.fld (SE_STAT_HOSTW 7) == 1) := by decide +kernel

/-- RegisterAccessesBySizeAndPlace, MemoryWritesByRegion (R5, R263, R265): the exceptions of a core's accesses, in user mode with and without a PMP entry, and its atomic
instructions: an LR, its SC and a second one, an AMO. -/
theorem test_core_accesses : uw.stuck (.ac 1) = false ∧ uw.coreExc (.ac 1) .store GLB_WAKE_AT_LO 4 = none ∧ uw.coreExc (.ac 1) .load GLB_WAKE_AT_LO 4 = none ∧
    uw.coreExc (.ac 1) .load CT_STAT 4 = none ∧ uw.coreExc (.sc 1) .store 0x42800000 1 = none ∧ uw.coreExc (.ac 0) .store 0x05FFFFFF 1 = none ∧
    uw.coreExc (.ac 0) .store (seData 7 0x3FFC) 4 = none ∧ uw.coreExc (.ac 3) .store 0x12000000 1 = none ∧
    after (exec (.registerWrite (.ac 1) 0x112 4 7) uw) (fun t => tabGet (fun _ => none) t.cores.exc 1 == some .storeMisaligned && (t.reg (GLB_FAULT_STICKY 0)).getLsbD 0) ∧
    after (exec (.registerRead (.sc 0) 0x111 ⟨2, false⟩) uw) (fun t => tabGet (fun _ => none) t.cores.exc 4 == some .loadMisaligned && t.data == 0) ∧
    after (exec (.memoryWrite (.ac 0) 0x50000000 ⟨[1], .plain⟩) uw) (fun t => tabGet (fun _ => none) t.cores.exc 0 == some .storeFault && t.mem == []) ∧
    (let s := fun (l : List PmpEnt) => { uw with cores := { uw.cores with user := [(1, true)], pmp := [(1, l)] } }
     (s []).coreExc (.ac 1) .store GLB_WAKE_AT_LO 4 = some .storeFault ∧ (s [⟨0x100, 0x200, true, true, false⟩]).coreExc (.ac 1) .store GLB_WAKE_AT_LO 4 = none) ∧
    (let s := uw.wr32 0x08000000 5
     s.coreExc (.ac 0) .atomic 0x08000000 4 = none ∧ s.eccHit 0x08000000 4 = none ∧ s.opaqueMem 0x08000000 = false ∧
     after (exec (.registerRead (.ac 0) 0x08000000 ⟨4, true⟩) s) (fun t => t.data == 5 && t.cores.resv.find? (fun e => e.1 == 0) == some (0, 0x08000000) &&
       after (exec (.memoryWrite (.ac 0) 0x08000000 ⟨[9, 0, 0, 0], .cond⟩) t) (fun u => u.data == 0 && u.rd32 0x08000000 == 9 &&
         after (exec (.memoryWrite (.ac 0) 0x08000000 ⟨[7, 0, 0, 0], .cond⟩) u) (fun v => v.data == 1 && v.rd32 0x08000000 == 9))) ∧
     after (exec (.memoryWrite (.ac 0) 0x08000000 ⟨[0xFD, 0xFF, 0xFF, 0xFF], (.amo .add)⟩) s) (fun t => t.data == 5 && t.rd32 0x08000000 == 2) ∧
     after (exec (.memoryWrite (.ac 0) 0x08000000 ⟨[0xFD, 0xFF, 0xFF, 0xFF], (.amo .min)⟩) s) (fun t => t.data == 5 && t.rd32 0x08000000 == 0xFFFFFFFD)) := by decide +kernel

/-- CycleStartsAndTicksActOncePerBoundary (R16, R17, R22, R306, R350): first and second starts at one cell time. -/
theorem test_cycle_starts :
    ((uw.line 7).seenCyc && (uw.line 7).cycAt == uw.cycleStart (uw.linePer 7)) = false ∧
    after (exec (.servoCycleStart 7) uw) (fun t => (t.net 9).high && (t.line 7).seenCyc && (t.line 7).cycAt == t.cycleStart (t.linePer 7) &&
      after (exec (.servoCycleStart 7) t) (fun u => u = t)) ∧
    uw.shroud.cycAt ≠ some (uw.cycleStart uw.shPeriod) ∧
    after (exec .shroudCycleStart uw) (fun t => (t.net 1).high && t.shroud.cycAt == some (t.cycleStart t.shPeriod)) ∧
    uw.shroud.planAt ≠ some (uw.cycleStart uw.planPer) ∧
    after (exec .planCycleStart uw) (fun t => (t.net 0).high && t.shroud.planAt == some (uw.cycleStart uw.planPer)) ∧
    (let s := at_ 1000 (sets [(FI_DI_CFG_LIM 31, 5)] { reefed with field := { FieldSt.reset with pins := 2 ^ 31 } })
     s.power.furled = false ∧ s.underWay = false ∧ s.fieldOn = true ∧ s.field.tickAt ≠ some (s.cycleStart 1000) ∧
     after (exec .halyardTick s) (fun t => (t.fin 31).cnt == 1 && t.field.tickAt == some 1000 && after (exec .halyardTick t) (fun u => u = t))) := by decide +kernel

/-- IncrementPartsTakeEffectTogether (R27, R28): the bounds themselves, and one beyond each; LineSourceOwnsTheTimeRegisters (R30). -/
theorem test_increments : uw.domainOn CT_INCRI = true ∧ uw.effSrc ≠ 1 ∧ incrMin = 2 * 2 ^ 32 + 2142114939 ∧ incrMax = 2 * 2 ^ 32 + 2152852357 ∧
    after (exec (.ctIncrWrite .host 2142114939) uw) (fun t => t.time.incr == incrMin) ∧
    after (exec (.ctIncrWrite .host 2152852357) uw) (fun t => t.time.incr == incrMax) ∧
    after (exec (.ctIncrWrite .host 2142114938) uw) (fun t => t.time.incr == incrMin && (t.reg (GLB_FAULT_STICKY 0)).getLsbD 7) ∧
    after (exec (.ctIncrWrite .host 2152852358) uw) (fun t => t.time.incr == incrMax && (t.reg (GLB_FAULT_STICKY 0)).getLsbD 7) ∧
    after (exec (.ctIncriWrite .host 0x1FF) uw) (fun t => t.time.heldInt == 255 && t.time.incr == 0x280000000) ∧
    (let s := sets [(CT_CTL_CFGSRC, 1)] uw
     s.effSrc = 1 ∧ after (exec (.ctSlewWrite (.sc 0) 7) s) (fun t => t.time.slew == 0 && t.fld CT_STAT_OWNED_WRITE == 1)) ∧
    after (exec (.registerRead .host (BitVec.ofNat 32 CT_STAT) ⟨4, false⟩) (sets [(CT_CTL_CFGSRC, 2)] uw)) (fun t => bits t.data.toNat 2 2 == 2) ∧ (sets [(PR_STAT_ROLE, 2)] uw).role = 2 ∧ (sets [(PR_STAT_ROLE, 2)] uw).effSrc = 1 ∧ (sets [(CT_CTL_CFGSRC, 2)] uw).effSrc = 2 := by decide +kernel

/-- SlewEndsExactlyAndTheCounterStepsOnce (R31 to R33): the ends of PPM's range, the last tick of a slew of −1 ns, a step by −1 ns, a second one, one while a line
sends. -/
theorem test_slew_and_step :
    after (exec (.ctSlewWrite .host 0xFFFFFFFF) uw) (fun t => t.time.slew == -(2 ^ 32 : Int)) ∧
    after (exec (.ctSlewCtlWrite .host 0x100) uw) (fun t => t.fld CT_SLEW_CTL_PPM == 1) ∧
    after (exec (.ctSlewCtlWrite .host 200) uw) (fun t => t.fld CT_SLEW_CTL_PPM == 200) ∧
    after (exec (.ctSlewCtlWrite .host 201) uw) (fun t => t.fld CT_SLEW_CTL_PPM == 200) ∧
    (let s := { at_ 100 uw with time := { (at_ 100 uw).time with slew := -5 } }
     s.clkMode = 0 ∧ s.time.stepPend = none ∧ s.time.slew.natAbs ≤ s.slewStep ∧
     after (exec .slewEnd s) (fun t => t.time.slew == 0 && t.time.ct == 100 * 2 ^ 32 + 0x280000000 - 5)) ∧
    (let s := at_ 100 ((uw.setReg CT_STEP_LO 0xFFFFFFFF))
     s.fld CT_STAT_STEPPED = 0 ∧ s.linesSending = false ∧
     after (exec (.step .host 0xFFFFFFFF) s) (fun t => t.time.stepPend == some (-1) && t.fld CT_STAT_VALID == 1 && t.tick.time.ct == 99 * 2 ^ 32 + 0x280000000 &&
       after (exec (.step .host 0) t) (fun u => (u.reg (GLB_FAULT_STICKY 0)).getLsbD 8))) ∧
    (let s := sets [(TL_LSTAT_STATE 0, 4)] uw
     s.linesSending = true ∧ after (exec (.step .host 0) s) (fun t => t.fld CT_STAT_STEPPED == 0 && (t.reg (GLB_FAULT_STICKY 0)).getLsbD 8)) := by decide +kernel

/-- ShortTimeReadLatchesTheHighWord (R38, R261): at 2³² + 7 ns. -/
theorem test_now_read : (let s := at_ (2 ^ 32 + 7) uw
    s.domainOn CT_NOW_LO = true ∧
    after (exec (.ctNowLoRead (.ac 1)) s) (fun t => t.data == 7 && (t.inis (.ac 1)).nowHi == 1 && (t.inis .host).nowHi == 0 && t.regView (.ac 1) CT_NOW_HI == 1) ∧
    after (exec (.timeCsrRead 3) s) (fun t => t.data == 7 && (t.inis (.ac 3)).timeh == 1)) := by decide +kernel

/-- TimersAndWindowsArmAndFire (R41, R42, R44 to R46): timer 15 one-shot and with PER 1, OVER at 254 and 255, a target written in the tick of the old one; window 7 from 100 to 200 ns, at length 0, closed already, with
PER × 8 of 104 and of 96 for a length of 100. -/
theorem test_timers_and_windows :
    after (exec (.timerArm .host 15 1) uw) (fun t => (t.tmr 15).armed &&
      (!((t.tmr 15).armed && reached (t.reg (CT_TMR_TGT 15)).toNat t.now) || after (exec (.timerFire 15) t) (fun u => u.fld (CT_TMR_STAT_FIRED 15) == 1 && !(u.tmr 15).armed))) ∧
    (let s := fun (o : Nat) => { sets [(CT_TMR_CTL_EN 15, 1), (CT_TMR_CTL_IRQ 15, 1), (CT_TMR_STAT_FIRED 15, 1), (CT_TMR_STAT_OVER 15, o)] (uw.setReg (CT_TMR_PER 15) 1) with
       time := { uw.time with timers := [(15, ⟨true, none, none⟩)] } }
     ((s 0).tmr 15).armed = true ∧ reached ((s 0).reg (CT_TMR_TGT 15)).toNat (s 0).now = true ∧ (uw.tmr 15).armed = false ∧ uw.fld (CT_TMR_CTL_HAL 15) = 0 ∧
     after (exec (.timerFire 15) (s 254)) (fun t => (t.tmr 15).armed && t.reg (CT_TMR_TGT 15) == 100 && t.fld (CT_TMR_STAT_OVER 15) == 255 && (t.reg GLB_HIRQ_STAT).getLsbD 31) ∧
     after (exec (.timerFire 15) (s 255)) (fun t => t.fld (CT_TMR_STAT_OVER 15) == 255) ∧
     after (exec (.timerTargetWrite .host 15 500) (s 0)) (fun t => (t.tmr 15).armed && t.reg (CT_TMR_TGT 15) == 500 && t.fld (CT_TMR_STAT_OVER 15) == 1)) ∧
    (let s := sets [(CT_TMR_CTL_EN 0, 1)] uw
     s.domainOn (CT_TMR_TGT 0) = true ∧ ((s.tmr 0).armed && reached (s.reg (CT_TMR_TGT 0)).toNat s.now) = false ∧
     after (exec (.timerTargetWrite .host 0 500) s) (fun t => (t.tmr 0).armed && t.reg (CT_TMR_TGT 0) == 500)) ∧
    after (exec (.windowArm .host 7 1) uw) (fun t => t.fld (CT_WIN_STAT_EMPTY 7) == 1) ∧ after (exec (.windowArm .host 7 1) (uw.setReg (CT_WIN_OPEN 7) 0xFFFFFFFF)) (fun t => t.fld (CT_WIN_STAT_MISSED 7) == 1) ∧
    (let s := (uw.setReg (CT_WIN_OPEN 7) 100).setReg (CT_WIN_CLOSE 7) 200
     0 < diff32 (s.reg (CT_WIN_CLOSE 7)).toNat (s.reg (CT_WIN_OPEN 7)).toNat ∧ reached (s.reg (CT_WIN_CLOSE 7)).toNat s.now = false ∧ s.fld (CT_WIN_STAT_ACTIVE 7) = 0 ∧
     after (exec (.windowArm .host 7 (2 ^ 13 * 12 + 1)) s) (fun t => !(t.win 7).armed && t.fld (CT_WIN_STAT_EMPTY 7) == 1) ∧
     after (exec (.windowArm .host 7 1) s) (fun t => (t.win 7).armed && (t.win 7).occClose == 200 && after (exec (.windowOpen 7) (at_ 99 t)) (fun u => u.fld (CT_WIN_STAT_ACTIVE 7) == 0) &&
       after (exec (.windowOpen 7) (at_ 100 t)) (fun u => u.fld (CT_WIN_STAT_ACTIVE 7) == 1 && u.fld (CT_WIN_CTL_PER 7) == 0 &&
         after (exec (.windowArm .host 7 0) u) (fun w => w.fld (CT_WIN_STAT_ACTIVE 7) == 0 && !(w.win 7).armed) &&
         after (exec (.windowClose 7) (at_ 200 u)) (fun w => w.fld (CT_WIN_STAT_ACTIVE 7) == 0 && !(w.win 7).armed) &&
         after (exec (.windowClose 7) (at_ 200 (sets [(CT_WIN_CTL_PER 7, 13)] u))) (fun w => w.reg (CT_WIN_CLOSE 7) == 304 && (w.win 7).armed) &&
         after (exec (.windowClose 7) (at_ 200 (sets [(CT_WIN_CTL_PER 7, 12)] u))) (fun w => w.fld (CT_WIN_STAT_EMPTY 7) == 1 && !(w.win 7).armed)))) := by decide +kernel

/-- LatchesCaptureAndRelease (R47, R48): a rising edge on latch 31 with VALID 0, then with VALID 1, and its release; 5 ns after another; outside its window, and inside. -/
theorem test_latches : (let s := sets [(CT_LAT_CTL_EN 31, 1)] uw
    s.domainOn (CT_LAT_FRAC 31) = true ∧ edgeTakes (s.fld (CT_LAT_CTL_EDGE 31)) false = true ∧ edgeTakes (s.fld (CT_LAT_CTL_EDGE 31)) true = false ∧ s.fld (CT_LAT_CTL_WINEN 31) = 0 ∧
    (s.lat 31).last = none ∧
    ((s.setLat 31 ⟨some (9 * 65536)⟩).lat 31).last = some (9 * 65536) ∧ 5 * 65536 ≤ (s.full16 ⟨14, 0, 0⟩ - 9 * 65536).natAbs ∧
    (sets [(CT_LAT_CTL_WINEN 31, 1)] s).winPasses 0 9 = false ∧ (s.setWin 0 { Window.reset with occ := true, occOpen := 9, occClose := 10 }).winPasses 0 9 = true ∧
    after (exec (.latchCapture 31 false ⟨9, 0x8000, 0⟩) (sets [(CT_LAT_CTL_WINEN 31, 1)] s)) (fun t => t.fld (CT_LAT_STAT_VALID 31) == 0) ∧
    after (exec (.latchCapture 31 false ⟨9, 0x8000, 0⟩) s) (fun t => t.reg (CT_LAT_NS 31) == 9 && t.fld (CT_LAT_STAT_VALID 31) == 1 &&
      after (exec (.latchFracRead .host 31) t) (fun u => u.data == 0x8000 && u.fld (CT_LAT_STAT_VALID 31) == 0)) ∧
    after (exec (.latchCapture 31 false ⟨9, 0, 0⟩) (sets [(CT_LAT_STAT_VALID 31, 1)] s)) (fun t => t.fld (CT_LAT_STAT_OVERRUN 31) == 1 && t.reg (CT_LAT_NS 31) == 0)) := by
  decide +kernel

/-! ### Joints, arms and servo engines -/

/-- Joint 5 on arm 3, in a state. -/
def jArm (st : JState) (s : State) : State :=
  (sets [(JC_CFG_USED 5, 1), (JC_CFG_ARM 5, 3)] s).setJoint 5 { Joint.reset with state := st }

/-- The mode of an arm set. -/
def inMode (m : Mode) (s : State) : State := s.setArm 3 { s.arm 3 with mode := m }

/-- JointAndArmCommandsWaitForTheCycleStart (R60): joint 5 in use, joint 6 not. -/
theorem test_commands_wait : (jArm .disabled uw).underWay = true ∧ (jArm .disabled uw).fld (JC_CFG_USED 5) = 1 ∧ uw.fld (JC_CFG_USED 6) = 0 ∧
    after (exec (.enable .host 5) (jArm .disabled uw)) (fun t => (t.joint 5).pend == some 1) ∧ after (exec (.enable .host 6) uw) (fun t => t = uw) ∧
    after (exec (.clearAll .host 7) uw) (fun t => (t.arm 7).pend == some 9) := by decide +kernel

/-- WaitingCommandsTakeEffectOrAreRefused (R60, R63, R67, R76, R78): each case's hypotheses; a target of 1 is above a velocity limit of 0, and outside bounds of 0. -/
theorem test_waiting_commands :
    (let s := jArm .disabled uw; (s.joint 5).state = .disabled ∧ ((s.takeJoint 3 5 1).joint 5).state = .enabling) ∧
    (let s := jArm .enabled uw
     (s.joint 5).state = .enabled ∧ (s.arm 3).mode = .hold ∧ s.armReady 3 = true ∧ ((s.takeJoint 3 5 2).joint 5).state = .disabling ∧ (∀ k ∈ s.armJoints 3, s.jogBad k = false) ∧
     (∀ k ∈ s.armJoints 3, s.moveBad k = false) ∧ ((s.takeArm 3 3).arm 3).mode = .jog ∧ ((s.takeArm 3 4).arm 3).mode = .move) ∧
    (let s := (jArm .enabled uw).setReg (JC_TGT 5) 1
     s.armReady 3 = true ∧ (∃ k ∈ s.armJoints 3, s.jogBad k = true) ∧ (∃ k ∈ s.armJoints 3, s.moveBad k = true) ∧
     ((s.takeArm 3 3).arm 3).mode = .hold ∧ (s.takeArm 3 4).fld (JC_ARM_STAT_REASON 3) = 3) ∧
    (let s := inMode .traj (jArm .enabled uw)
     s.armReady 3 = true ∧ ((s.takeArm 3 5).arm 3).mode = .jstop ∧ ((s.takeJoint 3 5 2).joint 5).state = .enabled) ∧
    (let s := jArm .fault uw; s.armReady 3 = false ∧ (s.takeArm 3 2).fld (JC_ARM_STAT_REASON 3) = 1 ∧ (s.takeArm 3 4).fld (JC_ARM_STAT_REFUSED 3) = 1 ∧ (s.takeArm 3 4).fld (JC_ARM_STAT_REASON 3) = 1) ∧
    (let s := inMode .faulted (jArm .disabled uw); ((s.takeJoint 3 5 1).joint 5).state = .disabled ∧ (s.takeJoint 3 5 1).fld (JC_ARM_STAT_REASON 3) = 2) ∧
    (let s := jArm .enabled uw; s.armStill 3 = true ∧ ((s.takeArm 3 1).arm 3).mode = .hold ∧ ((s.takeArm 3 2).arm 3).trajArm = true ∧ !((s.takeArm 3 6).arm 3).holdZero) := by
  decide +kernel

/-- CommitsAndAppliesWaitOrReport (R61, R71): a header with KNOT 0 and one that is in bounds; an APPLY at the present tick and the next; the ends of the shadows. -/
theorem test_commits :
    after (exec (.horizonCommit .host 3) uw) (fun t => (t.arm 3).hstat == 5) ∧
    (let s := sets [(JC_ARM_HADDR_V 3, 0x4000), (TL_LCTL_PERIOD 3, 1), (CV_TKT_STAT_LIVE 9, 1), (CV_TKT_STAT_ARM 9, 3)] (jArm .enabled uw)
     let s := ((s.wr32 (seData 3 0x4000) 0x102).wr32 (seData 3 0x4004) (s.linePer 3)).wr32 (seData 3 0x4008) 9
     after (exec (.horizonCommit .host 3) (s.wr32 (seData 3 0x4004) 1)) (fun t => (t.arm 3).hstat == 6) ∧
     after (exec (.horizonCommit .host 3) (at_ (s.linePer 3) s)) (fun t => (t.arm 3).hstat == 3) ∧
     after (exec (.horizonCommit .host 3) (sets [(CV_TKT_STAT_LIVE 9, 0)] s)) (fun t => (t.arm 3).hstat == 4 && (t.arm 3).pendHor.isNone) ∧
     (s.judgeCommit 3).1 = 1 ∧ after (exec (.horizonCommit .host 3) s) (fun t => (t.arm 3).hstat == 1 && (t.arm 3).pendHor.isSome && after (exec (.horizonCommit .host 3) t)
       (fun u => (u.arm 3).hstat == 9))) ∧
    reached 1 uw.now = false ∧ reached 0 uw.now = true ∧
    after (exec (.armApply .host 3 1) uw) (fun t => (t.arm 3).apply == some 1) ∧ after (exec (.armApply .host 3 0) uw) (fun t => t.fld (JC_ARM_STAT_APPLY_LATE 3) == 1) ∧
    0x48 ∈ jointShadows ∧ 0xB8 ∈ jointShadows ∧ (((uw.setReg 0x300B8 7).applyJoint 0).effReg 0x300B8) = 7 ∧
    (uw.joint 5).decel = false ∧
    (let s := (uw.setEff (JC_DLIM 5) 9).setJoint 5 { Joint.reset with decel := true }
     (s.reg (JC_DLIM 5)).toNat < (s.effReg (JC_DLIM 5)).toNat ∧ ((s.applyJoint 5).joint 5).defer = some 0 ∧ (s.applyJoint 5).effReg (JC_DLIM 5) = 9) := by decide +kernel

/-- TimeoutsFaultsAndHardStopsOfJoints (R74 to R80): at the limits themselves. -/
theorem test_joint_faults :
    (let s := at_ 100000000 (jArm .enabling uw)
     (s.joint 5).since + max 1 (s.fld (JC_ARM_CFG_ENTO (s.fld (JC_CFG_ARM 5)))) * 1000000 = s.nowNs ∧
     after (exec (.enableTimeout 5) s) (fun t => (t.joint 5).state == .disabled && (t.joint 5).fcause == 4)) ∧
    (let s := at_ 100000000 (jArm .disabling uw)
     (s.joint 5).state = .disabling ∧ after (exec (.enableTimeout 5) s) (fun t => (t.joint 5).state == .disabled && (t.joint 5).fcause == 0)) ∧
    (let s := (jArm .enabled uw).setArm 3 { Arm.reset with staleRun := 2 }
     max 1 (s.fld (JC_ARM_CFG_STALE_LIM 3)) = (s.arm 3).staleRun ∧ (s.arm 3).mode ≠ .faulted ∧ s.armJoints 3 = [5] ∧
     after (exec (.staleFault 3) s) (fun t => (t.arm 3).mode == .faulted && (t.joint 5).fcause == 6)) ∧
    (let s := (jArm .enabled uw).setJoint 5 { Joint.reset with state := .enabled, missRun := 3 }
     (s.armJoints 3).find? (fun k => decide (max 1 (s.fld (JC_ARM_CFG_MISS_LIM 3)) ≤ (s.joint k).missRun)) = some 5 ∧
     after (exec (.nofbFault 3) s) (fun t => (t.arm 3).mode == .faulted && (t.joint 5).fcause == 3)) ∧
    (let s := ((jArm .enabled uw).setEff (JC_FERRLIM 5) 1).setJoint 5 { Joint.reset with state := .enabled, ferrRun := 4 }
     s.effReg (JC_FERRLIM 5) ≠ 0 ∧ (s.joint 5).state.live = true ∧ max 1 (s.fld (JC_ARM_CFG_FERRCNT (s.fld (JC_CFG_ARM 5)))) = (s.joint 5).ferrRun ∧
     after (exec (.ferrFault 5) s) (fun t => (t.joint 5).fcause == 2)) ∧
    (let s := sets [(JC_CFG_HMODE 5, 2)] ((jArm .enabled uw).setJoint 5 { Joint.reset with state := .enabled, phase := .search, hsRun := 32 })
     s.fld (JC_CFG_HMODE 5) = 2 ∧ (s.joint 5).phase = .search ∧ after (exec (.homeHardstopDetect 5) s) (fun t => (t.joint 5).phase == .backoff && (t.joint 5).hsRun == 0)) := by decide +kernel

/-- WakeAndLatchPointFrameTheEngineCycle (R18, R74, R91, R92): engine 7 of a line with one node. -/
theorem test_wake_and_latch :
    (let s := (sets [(TL_LCTL_NNODE 7, 1), (SE_CTL_RUN 7, 1)] uw).setLine 7 { Line.reset with seenCyc := true }
     (s.line 7).seenCyc = true ∧ (s.line 7).wakeDone = false ∧ s.paired = false ∧ (s.eng 7).skipped = false ∧ s.canWake 7 = true ∧ s.nodes 7 ≠ 0 ∧
     after (exec (.engineWake 7) s) (fun t => t.fld (SE_STAT_STATE 7) == 2 && (t.eng 7).woken && (t.eng 7).fgCyc == 0) ∧
     (s.line 7).latched = false ∧ s.localMode 7 = false ∧ s.inTime 7 ((s.line 7).cycAt + s.fld (TL_LATCH_V 7)) = false ∧
     after (exec (.commandLatchPoint 7) (sets [(TL_LSTAT_STATE 7, 4)] s)) (fun t => (t.arm 7).staleRun == 1 && t.fld (JC_ARM_STAT_STALE 7) == 1) ∧
     (let u := (sets [(TL_LATCH_V 7, 10)] s).setEng 7 { Engine.reset with woken := true, ended := true, endAt := 9 }
      u.inTime 7 ((u.line 7).cycAt + u.fld (TL_LATCH_V 7)) = true ∧ after (exec (.commandLatchPoint 7) u) (fun t => (t.arm 7).staleRun == 0 && (t.line 7).lat.length == 1)) ∧
     (let u := (sets [(TL_LATCH_V 7, 9), (TL_LSTAT_STATE 7, 4), (SE_MINSLACK_MINSLACK 7, 5)] s).setEng 7 { Engine.reset with woken := true, ended := true, endAt := 9 }
      u.inTime 7 ((u.line 7).cycAt + u.fld (TL_LATCH_V 7)) = false ∧ after (exec (.commandLatchPoint 7) u) (fun t => t.fld (SE_MINSLACK_MINSLACK 7) == 0))) := by
  decide +kernel

/-- Engine 1's foreground in a run. -/
def run1 : State := sets [(SE_STAT_STATE 1, 2)] uw

/-- The foreground with registers. -/
def withRegs (f : SeRegs → SeRegs) (s : State) : State := s.setEng 1 { s.eng 1 with fg := f (s.eng 1).fg }

/-- ServoEncodingsRoundTrip (R89): each format's word, both ways. -/
theorem test_servo_words : encodeSe (.ldi 3 0x1234) = 0x84301234#32 ∧ decodeSe 0x84301234#32 = some (.ldi 3 0x1234) ∧
    encodeSe (.mpy 1 2 5 ⟨false, 0, 0, false, false, 0, 0, false⟩) = 0x05540000#32 ∧ decodeSe 0x63C80FFF#32 = some (.ld 7 ⟨4, 0xFFF#12, true⟩) ∧
    decodeSe 0xC040002A#32 = some (.br 1 0x2A) ∧ decodeSe 0xF0000000#32 = some .nop ∧ decodeSe 0 = none := by decide +kernel

/-- AccumulatorArithmeticIsExactOrSaturates (R86, R89): 2⁵⁵ − 1 plus itself saturates with V and SV, a product and a shift by 32. -/
theorem test_accumulator : run1.seRuns 1 .fg = true ∧
    (let s := withRegs (fun r => { r with a := (r.a.set 0 (2 ^ 55 - 1)).set 1 5, d := (r.d.set 2 0xFFFFFF).set 3 7 }) run1
     after (exec (.add 1 .fg 0 0) s) (fun t => accVal (t.eng 1).fg 0 == 2 ^ 55 - 1 && (t.eng 1).fg.sr == 0x14) ∧
     after (exec (.sub 1 .fg 1 1) s) (fun t => accVal (t.eng 1).fg 1 == 0 && (t.eng 1).fg.sr == 0x01) ∧
     after (exec (.neg 1 .fg 1) s) (fun t => accVal (t.eng 1).fg 1 == -5) ∧ after (exec (.abs 1 .fg 1) s) (fun t => accVal (t.eng 1).fg 1 == 5) ∧
     after (exec (.mpy 1 .fg 3 2 3 ⟨false, 0, 0, false, false, 0, 0, false⟩) s) (fun t => accVal (t.eng 1).fg 3 == -7) ∧
     after (exec (.mac 1 .fg 1 2 3 ⟨false, 0, 0, false, false, 0, 0, false⟩) s) (fun t => accVal (t.eng 1).fg 1 == -2) ∧
     after (exec (.msu 1 .fg 1 2 3 ⟨false, 0, 0, false, false, 0, 0, false⟩) s) (fun t => accVal (t.eng 1).fg 1 == 12) ∧
     after (exec (.addd 1 .fg 1 2 32) s) (fun t => accVal (t.eng 1).fg 1 == 5 - 2 ^ 32) ∧
     after (exec (.clr 1 .fg 0 ⟨false, 0, 0, false, false, 0, 0, false⟩) s) (fun t => accVal (t.eng 1).fg 0 == 0)) := by decide +kernel

/-- EngineLoadsAndStoresFollowTheirOperands (R82, R85, R86, R88, R89): the last word of the main bank, of the data memory, and a store below 0x4000. -/
theorem test_engine_memory :
    (let s := (withRegs (fun r => { r with p := r.p.set 4 0x1FFFC, d := r.d.set 2 3 }) run1).wr32 (seData 1 0x1FFFC) 0x12345678
     inMain 0x1FFFC = true ∧ s.eccHit (seData 1 0x1FFFC) 4 = none ∧
     after (exec (.movl 1 .fg ⟨true, 6, 4, false, false, 0, 0, false⟩) s) (fun t => (t.eng 1).fg.d[6] == 0x345678#24) ∧
     after (exec (.mpy 1 .fg 0 2 2 ⟨true, 2, 4, false, false, 0, 0, false⟩) s) (fun t => accVal (t.eng 1).fg 0 == 9 && (t.eng 1).fg.d[2] == 0x345678#24) ∧
     after (exec (.mac 1 .fg 0 2 2 ⟨true, 2, 4, true, false, 0, 0, false⟩) s) (fun t => accVal (t.eng 1).fg 0 == 9) ∧
     after (exec (.msu 1 .fg 0 2 2 ⟨true, 2, 4, false, false, 0, 0, false⟩) s) (fun t => accVal (t.eng 1).fg 0 == -9) ∧
     after (exec (.clr 1 .fg 0 ⟨true, 2, 4, false, false, 0, 0, false⟩) s) (fun t => accVal (t.eng 1).fg 0 == 0)) ∧
    (let s := (withRegs (fun r => { r with p := r.p.set 4 0x30000, a := r.a.set 3 (2 ^ 40) }) run1).wr32 (seData 1 0x2FFFC) 0xFFFFFFE0
     inData (lAddr (s.eng 1).fg ⟨4, 0xFFF, false⟩) = true ∧ seMayWrite .fg 0x2FFFC = true ∧ seMayWrite .fg 0x2FFC = false ∧ seMayWrite .fg 0x3000 = true ∧
     after (exec (.ld 1 .fg 0 ⟨4, 0xFFF, false⟩) s) (fun t => (t.eng 1).fg.d[0] == 0xFFFFE0#24) ∧
     after (exec (.lda 1 .fg 0 ⟨4, 0xFFF, false⟩) s) (fun t => accVal (t.eng 1).fg 0 == -32) ∧
     after (exec (.lde 1 .fg 7 ⟨4, 0xFFF, false⟩) s) (fun t => (t.eng 1).fg.e[7] == 0x10#5) ∧
     after (exec (.ldp 1 .fg 7 ⟨4, 0xFFF, false⟩) s) (fun t => (t.eng 1).fg.p[7] == ptrOf 0x3FFE0) ∧
     after (exec (.st 1 .fg 0 ⟨4, 0xFFF, false⟩) s) (fun t => t.seWord 1 0x2FFFC == 0) ∧
     after (exec (.sta 1 .fg 3 ⟨4, 0xFFF, false⟩) s) (fun t => t.seWord 1 0x2FFFC == 0x7FFFFFFF && (t.eng 1).fg.sr.getLsbD 2)) ∧
    (let s := withRegs (fun r => { r with p := r.p.set 4 0x2FFC }) run1
     after (exec (.st 1 .fg 0 ⟨4, 0, false⟩) s) (fun t => t.fld (SE_STAT_FAULTED 1) == 1 && t.mem == s.mem) ∧
     after (exec (.sta 1 .fg 0 ⟨4, 0, false⟩) s) (fun t => t.fld (SE_STAT_FAULTED 1) == 1)) := by decide +kernel

/-- ShiftsClampsAndMovesOfTheEngines (R86 to R89). -/
theorem test_shifts : (let s := withRegs (fun r => { r with a := (r.a.set 0 (2 ^ 56 - 5)).set 1 100, d := (r.d.set 2 2).set 3 3, e := r.e.set 1 1, sr := 0x3F }) run1
    after (exec (.sha 1 .fg 0 1) s) (fun t => accVal (t.eng 1).fg 0 == -3) ∧ after (exec (.sha 1 .fg 0 0x3F) s) (fun t => accVal (t.eng 1).fg 0 == -10) ∧
    after (exec (.she 1 .fg 1 0 1 1) s) (fun t => accVal (t.eng 1).fg 1 == 25) ∧ after (exec (.mva 1 .fg 2 3 32) s) (fun t => accVal (t.eng 1).fg 2 == 3 * 2 ^ 32) ∧
    datVal (s.eng 1).fg 2 ≤ datVal (s.eng 1).fg 3 ∧ after (exec (.clmp 1 .fg 1 2 3 4) s) (fun t => accVal (t.eng 1).fg 1 == 48) ∧
    after (exec (.cls 1 .fg 7 1) s) (fun t => datVal (t.eng 1).fg 7 == 48) ∧ after (exec (.mvd 1 .fg 7 1 1) s) (fun t => datVal (t.eng 1).fg 7 == 50) ∧
    after (exec (.ldi 1 .fg 7 0x8000) s) (fun t => datVal (t.eng 1).fg 7 == -32768) ∧ after (exec (.mvr 1 .fg 7 3) s) (fun t => datVal (t.eng 1).fg 7 == 3) ∧
    after (exec (.clrs 1 .fg) s) (fun t => (t.eng 1).fg.sr == 0x2F)) := by decide +kernel

/-- ControlFlowAndDebugOfTheEngines (R89 to R93, R97, R99): stacks of 0, 7 and 8, each debug state. -/
theorem test_control_flow :
    (let s := withRegs (fun r => { r with d := r.d.set 1 1, pc := 10 }) run1
     after (exec (.br 1 .fg 0 5) s) (fun t => (t.eng 1).fg.pc == (if condHolds 0 0 then 5 else 11)) ∧ after (exec (.br 1 .fg 11 5) s) (fun t => (t.eng 1).fg.pc == (if condHolds 0 11 then 5 else 11)) ∧
     after (exec (.call 1 .fg 5) s) (fun t => (t.eng 1).fg.pc == 5 && after (exec (.ret 1 .fg) t) (fun u => (u.eng 1).fg.pc == 11)) ∧
     after (exec (.ret 1 .fg) s) (fun t => t.fld (SE_STAT_FAULTED 1) == 1) ∧ after (exec (.nop 1 .fg) s) (fun t => (t.eng 1).fg.pc == 11) ∧
     after (exec (.dbnz 1 .fg 1 5) s) (fun t => (t.eng 1).fg.pc == 11) ∧ after (exec (.dbnz 1 .fg 0 5) s) (fun t => (t.eng 1).fg.pc == 5) ∧
     after (exec (.rep 1 .fg false 0 0) s) (fun t => (t.eng 1).fg.pc == 12) ∧ after (exec (.cend 1 .fg) s) (fun t => (t.eng 1).ended && t.fld (SE_STAT_STATE 1) == 1) ∧
     after (exec (.trap 1 .fg 7) s) (fun t => t.fld (SE_STAT_FCODE 1) == 6)) ∧
    (let s := withRegs (fun r => { r with stack := List.replicate 7 0 }) run1
     after (exec (.call 1 .fg 5) s) (fun t => (t.eng 1).fg.stack.length == 8 && after (exec (.call 1 .fg 5) t) (fun u => u.fld (SE_STAT_FAULTED 1) == 1))) ∧
    (let s := sets [(SE_STAT_STATE 1, 3)] uw; s.seRuns 1 .bg = true ∧ after (exec (.bend 1 .bg) s) (fun t => (t.eng 1).bgEnded)) ∧
    uw.armLive 3 = false ∧ (jArm .enabling uw).armLive 3 = true ∧ after (exec (.haltreq .host 3) (jArm .enabling uw)) (fun t => t.fld (SE_STAT_DBGREFUSED 3) == 1) ∧
    after (exec (.haltreq .host 3) (sets [(SE_CTL_RUN 3, 1)] uw)) (fun t => (t.eng 3).dbg && t.fld (SE_STAT_FAULTED 3) == 0 && t.fld (SE_CTL_RUN 3) != 0 && t.fld (SE_DBGSEL_SEL 3) == 0 &&
      after (exec (.debugResume .host 3) t) (fun u => !(u.eng 3).dbg && u.fld (SE_STAT_STATE 3) == 1) &&
      after (exec (.debugStep .host 3) (t.wr32 (seProg 3 0) 0xF0000000)) (fun u => (u.eng 3).fg.pc == 1 && u.fld (SE_STAT_STATE 3) == 0) &&
      after (exec (.debugStep .host 3) t) (fun u => u.fld (SE_STAT_FAULTED 3) == 1) &&
      after (exec (.debugDataWrite .host 3 7) t) (fun u => (u.eng 3).fg.d[0] == 7#24)) ∧
    after (exec (.debugStep .host 3) uw) (fun t => t = uw) ∧ after (exec (.debugResume .host 3) uw) (fun t => t = uw) ∧ after (exec (.debugDataWrite .host 3 7) uw) (fun t => t = uw) ∧
    after (exec (.monclr .host 3 1) uw) (fun t => t.fld (SE_MINSLACK_MINSLACK 3) == 0xFFFF) := by decide +kernel

/-! ### Spar array, canvas and shroud monitor -/

/-- A submission of instance 3 from slot 0, LOADED only, with a deadline. -/
def job3 (dl : Nat) : SparJob := ⟨3, 0, false, true, 0, dl, 0, 0, 0, 0x40000000, 0, 0⟩

/-- Its run on a lane, past its intake, at a clock. -/
def run3 (dl c : Nat) : SparRun := ⟨job3 dl, 0, laneUnit * c, true, false, false, false, false, [], [], [], ⟨[], [], false, 0, 0⟩⟩

/-- The array running, slot 0 valid. -/
def sp : State := sets [(SP_CTL_RUN, 1), (SP_SLOT_STAT_VALID 0, 1), (SP_RESBASE_RESBASE, 0x44000000)] uw

/-- SparSubmissionsQueueRunAndEnd (R107 to R120): each outcome of SUBMIT, a queue of 63 and of 64, a dispatch, a solve that ends before and after its stop instant. -/
theorem test_spar :
    after (exec (.submit (.ac 1) 0x40000000) uw) (fun t => (t.inis (.ac 1)).spOut == 6) ∧
    after (exec (.submit (.ac 1) 0x40000000) (sets [(PR_STAT_ROLE, 2)] sp)) (fun t => (t.inis (.ac 1)).spOut == 5) ∧
    after (exec (.submit (.ac 1) 0x40000004) (sets [(PR_STAT_ROLE, 4), (PR_CTL_PAIREN, 1)] sp)) (fun t => (t.inis (.ac 1)).spOut == 5) ∧
    after (exec (.submit (.ac 1) 0x40000004) (sets [(PR_STAT_ROLE, 4)] sp)) (fun t => (t.inis (.ac 1)).spOut == 4) ∧
    after (exec (.submit (.ac 1) 0x40000004) sp) (fun t => (t.inis (.ac 1)).spOut == 4) ∧
    after (exec (.submit (.ac 1) 0x40000000) (sp.wr32 0x40000000 3)) (fun t => (t.inis (.ac 1)).spOut == 1 + 256 * 3 && t.spar.queue.length == 1 && t.fld (SP_INST_STAT_STATE 3) == 1 &&
      after (exec (.submit (.ac 1) 0x40000000) t) (fun u => (u.inis (.ac 1)).spOut == 3 + 256 * 3)) ∧
    after (exec (.submit (.ac 1) 0x40000000) { sp with spar := { SparSt.reset with queue := List.replicate 63 (job3 0) } }) (fun t => (t.inis (.ac 1)).spOut == 1 && t.spar.queue.length == 64) ∧
    after (exec (.submit (.ac 1) 0x40000000) { sp with spar := { SparSt.reset with queue := List.replicate 64 (job3 0) } }) (fun t => (t.inis (.ac 1)).spOut == 2) ∧
    (let s := { sp with spar := { SparSt.reset with queue := [job3 1000000] } }
     s.spFirst = some (job3 1000000) ∧ s.spPick 0 = some 0 ∧
     after (exec .dispatch s) (fun t => (t.spLane 0).run.isSome && t.spar.queue.isEmpty && t.fld (SP_INST_STAT_STATE 3) == 2)) ∧
    sp.spFirst = none ∧ after (exec .dispatch sp) (fun t => t = sp) ∧ sp.spServ 31 = true ∧ after (exec (.laneFault 31) sp) (fun t => (t.spLane 31).out && (t.reg (GLB_FAULT_STICKY 1)).getLsbD 3) := by
  decide +kernel

/-- SparProblemsRunAndEnd (R111, R114 to R118, R122): the ends of runs and of queued jobs; an intake of 200 clocks before its last tick; a LOADED run at its end and a clock
before it; a QP and a LINSYS run at their ends. -/
theorem test_spar_ends :
    (let s := sp.setSpLane 31 { SparLane.reset with run := some (run3 1000000 200) }
     (s.spLane 31).run = some (run3 1000000 200) ∧ (run3 1000000 200).done (s.spProb 3 0) = true ∧ (run3 1000000 199).done (s.spProb 3 0) = false ∧
     (run3 1000000 200).job.nosolve = true ∧ reached (run3 1000000 199).job.stop s.now = false) ∧
    (let s := sp.setSpLane 31 { SparLane.reset with run := some { run3 1000000 198 with taken := false } }
     after (step s) (fun t => ((t.spLane 31).run.map (fun r => (r.taken, r.clocks))) == some (true, 200))) ∧
    (let r := { run3 1000000 10000 with job := { job3 1000000 with nosolve := false } }
     let s := (sp.wrB (sp.spSlotAt 0 + 2) 1).setSpLane 31 { SparLane.reset with run := some r }
     (s.spHdrAt 0).qp = true ∧ (sp.spHdrAt 0).qp = false ∧ r.done (s.spProb 3 0) = true ∧ r.done (sp.spProb 3 0) = true) ∧
    (let s := at_ 10 (sp.setSpLane 31 { SparLane.reset with run := some (run3 2010 8) })
     (run3 2010 8).done (s.spProb 3 0) = false ∧ reached (run3 2010 8).job.stop s.now = true ∧ after (exec (.solveEnd 31) s) (fun t => t = s) ∧
     after (exec (.stopInstant 31) s) (fun t => (t.spLane 31).run.isNone && t.spar.queue.isEmpty)) ∧
    (let s := sp.setSpLane 31 { SparLane.reset with run := some (run3 2200 8) }
     reached (run3 2200 8).job.stop s.now = false ∧ after (exec (.stopInstant 31) s) (fun t => t = s)) ∧
    (let s := at_ 1000 { sp with spar := { SparSt.reset with queue := [job3 3000] } }
     s.spar.queue.find? (fun x => x.inst == 3) = some (job3 3000) ∧ reached (job3 3000).stop s.now = true) ∧
    (let s := { sp with spar := { SparSt.reset with queue := [job3 1000000] } }
     reached (job3 1000000).stop s.now = false ∧ after (exec (.expired 3) s) (fun t => t = s)) := by decide +kernel

/-- The canvas running, a request at 0x40000000 of brick 0 for arm 2 with an operation. -/
def cv (op : Nat) (so : Nat) : State :=
  ((sets [(CV_CTL_RUN, 1)] uw).wr32 0x40000000 (op + 16 * 2 + 2 ^ 11 + 2 ^ 12 + so * 2 ^ 20)).wr32 0x40000008 0x40001000

/-- The status of a request's result. -/
def status (t : State) : Nat := t.rd32 0x40000020 % 32

/-- ClaimsAreGrantedOrReported (R128, R133, R134, R136): free voxels with ticket 0 free and with none, another arm's voxel, a pinned one, an own one at HOLD 7, a waiting
claim whose time-out is reached. -/
theorem test_claims :
    (let s := cv 1 0
     s.canvas.queue = [] ∧ s.canvas.busy = none ∧ s.eccBad = [] ∧ s.canvas.acc = 0 ∧ s.now = 0 ∧ s.cvOutcome 0x40000000 = 1 ∧ (s.cvIntake ⟨0x40000000, 0, 0⟩).op = 1 ∧ (s.cvIntake ⟨0x40000000, 0, 0⟩).rsv = false ∧ (s.cvIntake ⟨0x40000000, 0, 0⟩).wait = false ∧
     (s.cvIntake ⟨0x40000000, 0, 0⟩).shape.length = 1 ∧
     badShape s.cvPitch 1 1 [0] = false ∧ s.canvas.waiting = [] ∧ s.allocTicket = some 0) ∧
    visit (cv 1 0) 2 [0, 511] 0 0 = .pass 0 0 ∧ visit ((cv 1 0).setVox 511 0x11) 2 [0, 511] 0 0 = .pass 1 511 ∧
    visit ((cv 1 0).setVox 0 0x89) 2 [0, 511] 0 0 = .stop 8 0 ∧ visit ((cv 1 0).setVox 0 0x73) 2 [0, 511] 0 0 = .stop 9 0 ∧
    after (exec (.claim .host 0x40000000) uw) (fun t => (t.inis .host).cvOut == 6) ∧ (sets [(CV_CTL_RUN, 1), (PR_STAT_ROLE, 3)] uw).cvOutcome 0x40000000 = 5 ∧
    (let w := { (cv 1 0).cvIntake ⟨0x40000000, 0, 0⟩ with tout := 0 }
     let s := { cv 1 0 with canvas := { CanvasSt.reset with waiting := [w] } }
     s.canvas.waiting = [w] ∧ s.canvas.busy = none ∧ w.addr % 64 = 0 ∧ reached w.tout s.tickBoundary = true ∧ reached 1 s.tickBoundary = false ∧ reached w.tout s.now = true) := by decide +kernel

/-- CanvasOperationsReportTheirResults (R139 to R143): each operation's hypotheses. -/
theorem test_canvas_operations :
    (let s := sets [(CV_TKT_STAT_LIVE 0, 1), (CV_TKT_STAT_ARM 0, 2)] (cv 2 0)
     s.cvOutcome 0x40000000 = 1 ∧ (s.cvIntake ⟨0x40000000, 0, 0⟩).op = 2 ∧ (s.cvIntake ⟨0x40000000, 0, 0⟩).rsv = false ∧ (s.cvIntake ⟨0x40000000, 0, 0⟩).arm = 2 ∧ s.ticketInUse 2 0 = false ∧
     (s.setArm 2 { Arm.reset with mode := .traj, hor := some ⟨false, 0, 2, 1, 0, 0, 0⟩ }).ticketInUse 2 0 = true) ∧
    (cv 2 0).fld (CV_TKT_STAT_LIVE 0) = 0 ∧ (cv 3 0).ticketsOf 2 = [] ∧ (cv 3 0).cvOutcome 0x40000000 = 1 ∧ (cv 4 0).cvOutcome 0x40000000 = 1 ∧ (cv 4 0).canvas.waiting = [] ∧
    (let s := cv 4 0
     let w := { s.cvIntake ⟨0x40000000, 0, 0⟩ with addr := 0x40002000 }
     let s := s.wr32 0x40000010 0x40002000
     (s.cvIntake ⟨0x40000000, 0, 0⟩).target = 0x40002000 ∧ w.addr % 64 = 0 ∧ w.arm = 2) ∧
    (cv 5 0).canvas.queue = [] ∧ (cv 5 0).canvas.busy = none ∧ (cv 5 0).eccBad = [] ∧ (cv 5 0).cvOutcome 0x40000000 = 1 ∧ (cv 6 9).cvOutcome 0x40000000 = 1 ∧ (cv 7 10).cvOutcome 0x40000000 = 1 ∧ (cv 6 0).cvOutcome 0x40000000 = 4 ∧
    ¬ (1 ≤ voxOwner ((cv 6 9).vox 0) ∧ voxOwner ((cv 6 9).vox 0) ≤ 8) ∧ voxOwner (((cv 6 9).setVox 0 0x18).vox 0) = 8 ∧
    (cv 6 9).voxKept 0 = false ∧ (0x40000000 + 0x40 ≤ 0x04000000 ∨ 0x06000000 ≤ 0x40000000) := by
  decide +kernel


theorem live_in_list (t : Nat) : ∀ l : List Nat, t ∈ l → tabGet resetWord (l.map (fun i => (CV_TKT_STAT i, (1 : Word)))) (CV_TKT_STAT t) = 1
  | a :: l, h => by
    simp only [List.map_cons, tabGet]
    split
    · rfl
    · next hn => exact live_in_list t l (by rcases List.mem_cons.mp h with rfl | h; exact absurd rfl hn; exact h)

/-- All 1 024 tickets live: none is free (R134). -/
theorem test_no_ticket : ({ uw with regs := (List.range 1024).map (fun i => (CV_TKT_STAT i, 1)) } : State).allocTicket = none := by
  simp only [State.allocTicket, List.find?_eq_none, List.mem_map, List.mem_range]
  rintro x ⟨i, -, rfl⟩
  simp only [State.flag, State.fld, State.reg, CV_TKT_STAT_LIVE]
  rw [live_in_list _ _ (List.mem_range.mpr (Nat.mod_lt _ (by decide)))]
  decide

/-! ### Shroud monitor and lines -/

/-- A segment `seg` of `nseg` of sensor 2, SEQ 7, with one item, and its CRC. -/
def segOf (seg nseg : Nat) (box : List Byte) : List Byte :=
  let p : List Byte := [1, 0, 2, 1, 7, 0, 0, 0, BitVec.ofNat 8 seg, BitVec.ofNat 8 nseg, 1, 0] ++ box
  p ++ leBytes 4 (crc32c 0 p).toNat

/-- A module whose sensor 2 is in use. -/
def shSt : State := sets [(SH_SENS_CFG_USED 2, 1)] (noDelay uw)

/-- PresenceSegmentsAreCheckedAndCollected (R150, R151): a first and only segment, one of eight, a wrong CRC, z1 of 63 and of 64, a newer and an older SEQ. -/
theorem test_segments :
    (let p := segOf 0 1 [1, 2, 3, 4, 5, 63, 0, 0]
     segHeaderOk 2 p = true ∧ shSt.segCrcOk 2 p = true ∧ segBoxesOk p = true ∧ (shSt.sensor 2).last = none ∧ (shSt.sensor 2).inc = none ∧ leAt p 9 1 = 1 ∧
     after (exec (.presenceSegment 2 false ⟨p, ⟨0, 0, 0⟩⟩) shSt) (fun t => match (t.sensor 2).scan with | some c => c.boxes.length == 1 && c.fault | none => false) ∧
     after (exec (.presenceSegment 2 true ⟨p, ⟨0, 0, 0⟩⟩) shSt) (fun t => t.fld (SH_SENS_CNT_BADFRAME 2) == 1) ∧
     after (exec (.presenceSegment 2 false ⟨(p.take 20), ⟨0, 0, 0⟩⟩) shSt) (fun t => t.fld (SH_SENS_CNT_BADFRAME 2) == 1) ∧ segHeaderOk 2 (p.take 20) = false ∧
     uw.fld (SH_SENS_CFG_USED 2) = 0 ∧ 0 < diff32 (leAt p 4 4) 6 ∧ ¬ 0 < diff32 (leAt p 4 4) 7) ∧
    (let p := (segOf 0 1 [1, 2, 3, 4, 5, 63, 0, 0]).set 20 0
     segHeaderOk 2 p = true ∧ shSt.segCrcOk 2 p = false) ∧
    (let p := segOf 0 1 [1, 2, 3, 4, 5, 64, 0, 0]
     segHeaderOk 2 p = true ∧ shSt.segCrcOk 2 p = true ∧ segBoxesOk p = false) ∧
    (let p := segOf 7 8 [1, 2, 3, 4, 5, 63, 0, 0]
     segHeaderOk 2 p = true ∧ shSt.segCrcOk 2 p = true ∧ segBoxesOk p = true ∧ 1 < leAt p 9 1) := by decide +kernel

/-- A module with a snapshot taken at 0 ns. -/
def snapSt (r1 : Option (List (Nat × Option ChRes))) : State := { uw with shroud := { ShroudSt.reset with snap := some ⟨0, [], [], r1, none⟩ } }

/-- ChannelResultsAndDisagreementsForceTheArm (R153, R155, R163 to R165): at the end of the shroud period and after it, a second result, both sides of an apply time, RECOV, DCOUNT. -/
theorem test_channels :
    uw.shPeriod = 500000 ∧
    (let s := at_ 500000 (snapSt none)
     s.underWay = true ∧ s.shroud.snap = some ⟨0, [], [], none, none⟩ ∧ s.nowNs ≤ 0 + s.shPeriod ∧ s.scHalted 0 = false ∧ s.scHalted 1 = false ∧
     after (exec .channel1Result s) (fun t => t.fld SH_C1TIME_LAST == 50000) ∧ after (exec .channel2Result s) (fun t => t.fld SH_C2TIME_LAST == 50000)) ∧
    (let s := at_ 500001 (snapSt none); 0 + s.shPeriod < s.nowNs ∧ after (exec .channel1Result s) (fun t => t = s)) ∧
    (let s := snapSt (some []); after (exec .channel1Result s) (fun t => t = s)) ∧
    uw.shroud.snap = none ∧ ({ uw with cores := { uw.cores with halted := [(1, true)] } } : State).scHalted 1 = true ∧ reached 0 uw.now = true ∧ reached 1 uw.now = false ∧
    (let s := sets [(SH_ARM_STAT_FORCED 7, 1), (SH_ARM_STAT_AGREECNT 7, 8)] uw
     uw.fld (SH_ARM_STAT_FORCED 7) = 0 ∧ max 1 (s.fld SH_MISC_RECOV) ≤ s.fld (SH_ARM_STAT_AGREECNT 7)) ∧
    (let s := sets [(SH_ARM_STAT_FORCED 7, 1), (SH_ARM_STAT_AGREECNT 7, 7)] uw; s.fld (SH_ARM_STAT_AGREECNT 7) < max 1 (s.fld SH_MISC_RECOV)) ∧
    (let s := sets [(SH_ARM_STAT_DCOUNT 7, 1)] uw; s.fld (SH_ARM_STAT_DCOUNT 7) = 1 ∧ s.fld (SH_ARM_STAT_FORCED 7) = 0 ∧ (s.countDis 7 true).fld (SH_ARM_STAT_FORCED 7) = 1) ∧
    uw.fld (SH_ARM_STAT_DCOUNT 0) = 0 := by decide +kernel

/-- SafeOutputFaultsSwitchThePairOff (R166, R167). -/
theorem test_safe_outputs :
    (let s := sets [(SH_SO_STAT_ON 1, 1), (SH_SO_TEST_TPW 1, 1)] uw
     s.underWay = true ∧ s.flag (SH_SO_STAT_ON 1) = true ∧ s.fld (SH_SO_STAT_ON 1) = 1 ∧ s.fld (SH_SO_TEST_TPW 1) ≠ 0 ∧ s.fld (SH_SO_STAT_FBFAULT 1) = 0 ∧
     after (exec (.safeOutputReadback 1 true true) s) (fun t => t.fld (SH_SO_STAT_ON 1) == 1) ∧
     after (exec (.safeOutputReadback 1 true false) s) (fun t => t.fld (SH_SO_STAT_ON 1) == 0 && t.fld (SH_SO_STAT_FBFAULT 1) == 1) ∧
     after (exec (.testPulse 1 false false) s) (fun t => t.fld (SH_SO_STAT_ON 1) == 1)) ∧
    after (exec (.soClear .host 1 false false) (sets [(SH_SO_STAT_FBFAULT 1, 1)] uw)) (fun t => t.fld (SH_SO_STAT_FBFAULT 1) == 0) ∧
    (let s := sets [(SH_SO_CFG_ARMS 1, 128), (SH_ARM_OUT_PSTOP 7, 1)] uw; (s.fld (SH_SO_CFG_ARMS 1)).testBit 7 = true ∧ s.fld (SH_ARM_OUT_PSTOP 7) = 1) ∧
    2 ≤ (sets [(PR_STAT_ROLE, 2)] uw).role := by decide +kernel

/-- A frame of 8 + 40 bytes and more on line 3 at end A: type, SRC, HOPS, LEN, body, SFD stamp in ns. -/
def lf (ty src by2 hops : Nat) (body : List Byte) (ns : Nat) : LineFrame :=
  ⟨false, true, false, 0x88B5, [BitVec.ofNat 8 (16 + ty), BitVec.ofNat 8 (16 * src + 3), BitVec.ofNat 8 by2, BitVec.ofNat 8 hops, BitVec.ofNat 8 body.length, 0, 0, 0] ++ body, ⟨BitVec.ofNat 32 ns, 0, 0⟩⟩

/-- Line 3 with one node, end A driven and its window enabled at 1 000 ns ± 100 ns, in a state. -/
def lineSt (st : Nat) : State :=
  sets [(PR_STAT_ROLE, 0), (TL_LSTAT_STATE 3, st), (TL_LCTL_NNODE 3, 1), (TL_LCTL_ENDA 3, 1), (TL_SLOT_ENA 3 0, 1), (TL_SLOT_SLOT 3 0, 1000), (TL_HOP_G 3, 100), (TL_MBRSP_V 3, 2000), (TL_MBRSP_MBMAX 3, 1),
    (TL_MBREQ_MBEN 3, 1)] (noDelay uw)

/-- A reply of node `src` whose SFD stands at a time. -/
def rep (src ns : Nat) : LineFrame := lf 2 src 0 0 (List.replicate 40 0) ns

/-- RepliesAreJudgedByTheirWindows (R176, R186 to R188): one ns before the window, at its first and last ns, at its end; node 2 of one; a request where a reply is awaited. -/
theorem test_replies :
    uw.frameValid 3 (rep 1 1000) = true ∧ frameType (rep 1 1000) = 2 ∧ frameSrc (rep 1 1000) = 1 ∧ (lineSt 4).replying 3 = true ∧ (lineSt 4).nodes 3 ≤ 10 ∧ (lineSt 4).hasWin 3 1 false = true ∧
    (lineSt 1).replying 3 = false ∧ uw.frameValid 3 (rep 2 1000) = true ∧ (lineSt 4).nodes 3 < frameSrc (rep 2 1000) ∧ uw.frameValid 4 (rep 1 1000) = false ∧ (rep 1 1000).fcsOk = true ∧
    (let e := (((lineSt 4).slot 3 1 + (lineSt 4).offEnd 3 1 false : Nat) : Int) * 65536
     let g := (((lineSt 4).fld (TL_HOP_G 3) : Nat) : Int) * 65536
     let at_ := fun ns => sinceStart ((lineSt 4).stamped 3 (rep 1 ns)).sfd ((lineSt 4).line 3).cycAt
     at_ 899 < e - g ∧ e - g ≤ at_ 900 ∧ at_ 1099 < e + g ∧ e + g ≤ at_ 1100 ∧ ¬ at_ 1100 < e - g) ∧
    tabGet (fun _ => []) (((lineSt 4).line 3).acc false) 1 = [] ∧
    after (exec (.reply 3 (rep 1 899)) (lineSt 4)) (fun t => t.fld (TL_PCNT_EARLY 3) == 1 && t.fld (TL_LCNT_WRONGSRC 3) == 1 && t.fld (TL_NODE_STAT_LATE 3 0) == 1) ∧
    after (exec (.reply 3 (rep 1 900)) (lineSt 4)) (fun t => tabGet (fun _ => []) ((t.line 3).acc false) 1 == List.replicate 40 0) ∧
    after (exec (.reply 3 (rep 1 1099)) (lineSt 4)) (fun t => tabGet (fun _ => []) ((t.line 3).acc false) 1 == List.replicate 40 0) ∧
    after (exec (.reply 3 (rep 1 1100)) (lineSt 4)) (fun t => t.fld (TL_PCNT_LATE 3) == 1 && t.fld (TL_LCNT_WRONGSRC 3) == 1) ∧
    after (exec (.reply 3 (rep 2 1000)) (lineSt 4)) (fun t => t.fld (TL_LCNT_WRONGSRC 3) == 1) ∧
    after (exec (.reply 3 { rep 1 1000 with fcsOk := false }) uw) (fun t => t.fld (TL_PCNT_FCSERR 3) == 1) := by decide +kernel

/-- A read exchange with node 1, tag 9. -/
def exch (count : Nat) (sent : Bool) : MbEx := ⟨1, 1, 8, 5, 9, [], count, false, sent⟩

/-- A mailbox response of node 1 of a status at 2 000 ns, tag 9. -/
def mbf (st : Nat) (ns : Nat) : LineFrame := lf 5 1 0 0 ([0, 9, 0, 0, 8, 0, BitVec.ofNat 8 st, 0] ++ List.replicate 8 0xAB) ns

/-- MailboxExchangesRunToTheirEnd (R181): DLEN at MBMAX and above, the 256th request and one more, a response PENDING and OK in its window. -/
theorem test_mailbox :
    (let s := lineSt 4
     (s.line 3).mb = none ∧ s.role = 0 ∧ bits (0x50811 : Word).toNat 8 8 ≤ 8 * s.fld (TL_MBRSP_MBMAX 3) ∧ 8 * s.fld (TL_MBRSP_MBMAX 3) < bits (0x50911 : Word).toNat 8 8 ∧
     after (exec (.mbRead .host 3 0x50811) s) (fun t => (t.line 3).mb == some ⟨1, 1, 8, 5, 1, [], 0, false, false⟩) ∧
     after (exec (.mbRead .host 3 0x50911) s) (fun t => t.fld (TL_MBSTAT_STATUS 3) == 7) ∧ after (exec (.mbWrite .host 3 0x50811) (sets [(PR_STAT_ROLE, 2)] s)) (fun t => t.fld (TL_MBSTAT_STATUS 3) == 7 && (t.line 3).mb.isNone) ∧
     after (exec (.mbIdent .host 3 0x10) s) (fun t => (t.line 3).mb == some ⟨3, 1, 0, 0, 1, [], 0, false, false⟩)) ∧
    (let s := fun (c : Nat) (b : Bool) => (lineSt 4).setLine 3 { Line.reset with mb := some (exch c b) }
     (s 255 false).fld (TL_LSTAT_STATE 3) = 4 ∧ (s 255 false).fld (TL_MBREQ_MBEN 3) = 1 ∧ (s 255 false).commands = true ∧ (s 255 false).pair.muted = false ∧
     after (exec (.mbreq 3) (s 255 false)) (fun t => (t.line 3).mb == some (exch 256 true)) ∧ after (exec (.mbreq 3) (s 256 false)) (fun t => (t.line 3).mb.isNone && t.fld (TL_MBSTAT_STATUS 3) == 6) ∧
     uw.frameValid 3 (mbf 1 2000) = true ∧ frameType (mbf 1 2000) = 5 ∧ frameSrc (mbf 1 2000) = 1 ∧ leAt (mbf 1 2000).payload 9 1 = 9 ∧ leAt (mbf 1 2000).payload 14 1 = 1 ∧
     (s 1 true).mbWindow 3 1 ((s 1 true).stamped 3 (mbf 1 1900)) = true ∧ (s 1 true).mbWindow 3 1 ((s 1 true).stamped 3 (mbf 1 2100)) = false ∧
     after (exec (.mbrsp 3 (mbf 1 1900)) (s 1 true)) (fun t => (t.line 3).mb == some (exch 1 false)) ∧
     after (exec (.mbrsp 3 (mbf 2 1900)) (s 1 true)) (fun t => (t.line 3).mb.isNone && t.fld (TL_MBSTAT_STATUS 3) == 2)) := by decide +kernel

/-- LinesStartAndStopByRun (R211, R212): IDLE, LISTEN and RUNNING; PTP never stepped; the listening time reached and 1 ns short; deferred. -/
theorem test_line_run :
    (let s := lineSt 0
     s.fld (TL_LSTAT_STATE 3) = 0 ∧ ¬ (s.fld CT_CTL_CFGSRC = 2 ∧ s.fld CT_STAT_STEPPED = 0) ∧ after (exec (.lineRun .host 3 1) s) (fun t => t.fld (TL_LSTAT_STATE 3) == 1)) ∧
    (let s := sets [(CT_CTL_CFGSRC, 2)] (lineSt 0)
     s.fld CT_CTL_CFGSRC = 2 ∧ s.fld CT_STAT_STEPPED = 0 ∧ after (exec (.lineRun .host 3 1) s) (fun t => t.fld (TL_LSTAT_STATE 3) == 0 && t.fld (TL_TSTAT_NOSTEP 3) == 1)) ∧
    after (exec (.lineStop .host 3 0) (lineSt 4)) (fun t => (t.line 3).stopReq && t.fld (TL_LSTAT_STATE 3) == 4) ∧
    (let s := lineSt 1
     s.fld (TL_TSTAT_DEFER 3) = 0 ∧ s.drives 3 false = true ∧ s.listenTime 3 = s.tListen) ∧
    (let s := fun ns => at_ ns (sets [(TL_FTA_CTL_TLISTEN, 1)] ((lineSt 1).setLine 3 { Line.reset with listenAt := some 0 }))
     (s 125000).listenTime 3 ≤ (s 125000).listenedNs 3 ∧ (s 124999).listenedNs 3 < (s 124999).listenTime 3 ∧
     after (exec (.listenEnd 3) (s 125000)) (fun t => t.fld (TL_LSTAT_STATE 3) == 2 && t.fld (TL_TSTAT_PHASE 3) == 1) ∧ after (exec (.listenEnd 3) (s 124999)) (fun t => t = s 124999) ∧
     (let x := (s 125000).setLine 3 { (s 125000).line 3 with heard := true }
      after (exec (.listenEnd 3) x) (fun t => t.fld (TL_LSTAT_STATE 3) == 1 && (t.line 3).listened == 0 && !(t.line 3).heard))) ∧
    (let s := at_ 125000 (sets [(TL_FTA_CTL_TLISTEN, 1), (TL_TSTAT_DEFER 3, 1)] (lineSt 1))
     s.tListen ≤ s.nowNs - (s.line 3).heardAt ∧ after (exec (.listenEnd 3) s) (fun t => t.fld (TL_TSTAT_DEFER 3) == 0)) := by decide +kernel

/-- ColdStartAnnouncesConfiguresOrFails (R213 to R215, R217): a collision, the 8th and 9th cold cycle, no answer, the last of 8 exchanges, the answers, the waits and time-outs. -/
theorem test_cold_start :
    (let s := fun (ph : Nat) (l : Line) => (sets [(TL_TSTAT_PHASE 3, ph)] (lineSt 2)).setLine 3 l
     (s 1 Line.reset).pair.muted = false ∧ (s 1 Line.reset).fld (TL_LSTAT_STATE 3) = 2 ∧ (s 1 Line.reset).nodes 3 ≠ 0 ∧
     after (exec (.coldCycleStart 3) (s 1 { Line.reset with coll := true })) (fun t => (t.line 3).waitEnd == some 250000 && t.fld (TL_TSTAT_COLLCNT 3) == 1) ∧
     after (exec (.coldCycleStart 3) (s 1 { Line.reset with coldN := 7 })) (fun t => (t.line 3).coldN == 8 && (t.line 3).frameA.length == 60 && (t.line 3).frameB.isEmpty) ∧
     after (exec (.coldCycleStart 3) (s 1 { Line.reset with coldN := 8 })) (fun t => t.fld (TL_TSTAT_PHASE 3) == 2 && t.fld (TL_TSTAT_CFGNODE 3) == 1) ∧
     after (exec (.coldCycleStart 3) (s 2 { Line.reset with cmb := some (exch 1 true) })) (fun t => t.fld (TL_LSTAT_STATE 3) == 0 && t.fld (TL_TSTAT_FAIL 3) == 1) ∧
     after (exec (.coldCycleStart 3) (s 2 { Line.reset with cmb := some (exch 1 true), cfgAns := 1, cfgEx := 7 })) (fun t => t.fld (TL_TSTAT_PHASE 3) == 3) ∧
     (let x := s 2 { Line.reset with cmb := some (exch 1 true) }
      x.coldWindow 3 1 (x.stamped 3 (mbf 0 55000)) = true ∧ x.coldWindow 3 1 (x.stamped 3 (mbf 0 65000)) = false ∧
      after (exec (.coldMbrsp 3 (mbf 0 55000)) x) (fun t => (t.line 3).cfgAns == 1) ∧ after (exec (.coldMbrsp 3 (mbf 1 55000)) x) (fun t => (t.line 3).cfgAns == 2) ∧
      after (exec (.coldMbrsp 3 (mbf 2 55000)) x) (fun t => t.fld (TL_TSTAT_FAIL 3) == 1)) ∧
     (let x := at_ 7 (s 0 { Line.reset with waitEnd := some 7 })
      7 ≤ x.nowNs ∧ after (exec (.collisionWaitEnd 3) x) (fun t => t.fld (TL_LSTAT_STATE 3) == 1 && t.listenTime 3 == 250000)) ∧
     after (exec (.verifyTimeout 3) (s 3 { Line.reset with verN := 64 })) (fun t => t.fld (TL_TSTAT_FAIL 3) == 2) ∧
     after (exec (.verifyTimeout 3) (s 3 { Line.reset with verN := 63 })) (fun t => t.fld (TL_TSTAT_PHASE 3) == 3)) ∧
    (let s := fun ns => at_ ns (lineSt 3)
     after (exec (.integTimeout 3) (s 20000000)) (fun t => t.fld (TL_TSTAT_FAIL 3) == 3) ∧ after (exec (.integTimeout 3) (s 19999999)) (fun t => t = s 19999999)) := by decide +kernel

/-- A CYCLE frame without nodes and a COLD frame, of the other PAIR_ID or not, of an epoch. -/
def cyc (by2 hops epoch : Nat) : LineFrame := lf 1 0 by2 hops (List.replicate 4 0 ++ [BitVec.ofNat 8 epoch] ++ List.replicate 19 0) 0
def coldF (by2 : Nat) : LineFrame := lf 3 0 by2 0 (List.replicate 24 0) 0

/-- FramesOfThePartnerAndTheFarEnd (R172, R209, R212, R214 to R216, R240). -/
theorem test_partner_frames :
    (let s := sets [(PR_CTL_PAIREN, 1)] (lineSt 4)
     let f := cyc 32 0 1
     uw.frameValid 3 f = true ∧ s.foreign 3 f = false ∧ (framePair f == s.flag PR_CTL_PAIRID) = false ∧ frameType f = 1 ∧ s.commands = true ∧ s.fld PR_EPOCH_EPOCH < leAt f.payload 12 4 ∧
     (s.reg (GLB_FAULT_HALT 4)).getLsbD 1 = false ∧ after (exec (.partnerCycleFrame 3 f) s) (fun t => t.role == 4 && t.fld PR_STAT_HALTCAUSE == 2)) ∧
    (let s := sets [(TL_LCTL_ENDB 3, 1)] (lineSt 1)
     uw.frameValid 3 (cyc 32 0 0) = true ∧ uw.frameValid 3 (coldF 32) = true ∧ s.foreign 3 (cyc 32 0 0) = true ∧ frameType (coldF 32) = 3 ∧
     after (exec (.partnerCycleFrame 3 (cyc 32 0 0)) s) (fun t => t.fld (TL_TSTAT_FAIL 3) == 4) ∧ after (exec (.coldFrame 3 (coldF 32)) s) (fun t => t.fld (TL_TSTAT_FAIL 3) == 4)) ∧
    (let s := sets [(PR_CTL_PAIREN, 1), (PR_STAT_ROLE, 2)] (lineSt 3)
     s.foreign 3 (cyc 32 0 5) = false ∧ s.role = 2 ∧ s.fld (TL_LSTAT_STATE 3) = 3 ∧ after (exec (.partnerCycleFrame 3 (cyc 32 0 5)) s) (fun t => t.fld PR_EPOCH_EPOCH == 5)) ∧
    (let s := sets [(PR_CTL_PAIREN, 1)] (lineSt 1)
     s.foreign 3 (coldF 32) = false ∧ leAt (coldF 32).payload 21 1 ≠ 4 ∧ after (exec (.coldFrame 3 (coldF 32)) s) (fun t => t.fld (TL_TSTAT_DEFER 3) == 1)) ∧
    (let s := sets [(PR_CTL_PAIREN, 1), (TL_TSTAT_PHASE 3, 1)] (lineSt 2)
     (s.line 3).runNext = false ∧ (s.line 3).waitEnd = none ∧ after (exec (.coldFrame 3 (coldF 32)) s) (fun t => (t.line 3).coll) ∧
     after (exec (.coldFrame 5 { coldF 32 with payload := (coldF 32).payload.set 1 5 }) (sets [(TL_LCTL_NNODE 5, 1), (TL_LCTL_ENDA 5, 1)] s)) (fun t => (t.line 3).coll && !(t.line 5).coll)) ∧
    (let s := lineSt 4
     s.drives 3 (cyc 16 2 0).endB = true ∧ s.ownFrame (cyc 16 2 0) = true ∧ frameHops (cyc 16 2 0) ≠ s.nodes 3 ∧ frameHops (cyc 16 1 0) = s.nodes 3 ∧
     after (exec (.ownFrameAtFarEnd 3 (cyc 16 2 0)) s) (fun t => (t.line 3).farA && t.fld (TL_LSTAT_TOPO 3) == 1) ∧
     s.drives ((3 : Fin 16).val % 8) (decide (8 ≤ (3 : Fin 16).val)) = true ∧ after (exec (.linkUp 3 true) s) (fun t => t.fld (TL_LSTAT_LINKA 3) == 1) ∧
     after (exec (.linkDown 3) s) (fun t => (t.reg (GLB_FAULT_STICKY 4)).getLsbD 5)) := by decide +kernel

/-- RoundsAverageAndPairTimeIsMeasured (R205, R206, R208 to R210): the same round and the next, three values at K = 1 and two. -/
theorem test_rounds :
    (let s := fun (k : Nat) (l : List (Nat × (Int × Nat))) =>
       at_ 125000 ((sets [(TL_SYNC_SYNCMASK 3, 3), (TL_LCTL_NNODE 3, 2), (TL_FTA_CTL_RINT, 1), (TL_FTA_CTL_K, k)] (lineSt 4)).setLine 3 { Line.reset with theta := l })
     (s 1 []).fta.roundAt ≠ (s 1 []).cycleStart (s 1 []).roundLen ∧ uw.fta.roundAt = uw.cycleStart uw.roundLen ∧
     (s 1 [(1, (131072 * 5, 1)), (2, (131072 * 9, 1))]).roundValues = [0, 5, 9] ∧ (s 1 [(1, (131072 * 5, 1))]).roundValues.length < 2 * 1 + 1 ∧
     after (exec .ftaRound (s 1 [(1, (131072 * 5, 1)), (2, (131072 * 9, 1))])) (fun t => t.reg TL_FTA_DELTA == 5 && t.fld TL_FTA_STAT_USED == 1) ∧
     after (exec .ftaRound (s 1 [(1, (131072 * 5, 1))])) (fun t => t.fld TL_FTA_STAT_SHORT == 1)) ∧
    (let s := (sets [(PR_CTL_PAIREN, 1), (PR_STAT_ROLE, 2)] (lineSt 3)).setLine 3 { Line.reset with mOwn := [(0, 131072 * 24)], psyncRun := 15 }
     s.refLine = some 3 ∧ s.commands = false ∧ after (exec (.stayPairMeasurement 3 ⟨1, 0⟩) s) (fun t => t = s) ∧ after (exec (.stayPairMeasurement 2 ⟨0, 0⟩) s) (fun t => t = s) ∧ (s.line 3).mOwn.head? = some (0, 131072 * 24) ∧ after (exec (.stayPairMeasurement 3 ⟨0, 0⟩) s) (fun t => t.reg (TL_PAIR_DELTA 3) == 24 && t.fld (TL_TSTAT_PSYNC 3) == 1)) ∧
    (let s := sets [(PR_CTL_PAIREN, 1)] (lineSt 4)
     (s.line 3).mOwn = [] ∧ s.commands = true ∧ s.drives 3 false = true ∧ s.drives 4 false = false ∧
     after (exec (.stayNodeDelayMeans 3 ⟨true, ([] ++ [(1, 6)])⟩) s) (fun t => tabGet (fun _ => 0) (t.line 3).dB 1 == 6 && (t.line 3).autoQ.any (fun x => x.1 == 1)) ∧
     after (exec (.stayNodeDelayMeans 3 ⟨false, [(1, 129)]⟩) s) (fun t => t = s) ∧ after (exec (.stayNodeDelayMeans 3 ⟨false, [(1, 128)]⟩) (sets [(TL_SYNC_AUTODLY 3, 1)] s)) (fun t => t.lines == s.lines) ∧
     after (exec (.stayNodeDelayMeans 3 ⟨false, [(1, 129)]⟩) (sets [(TL_SYNC_AUTODLY 3, 1)] s)) (fun t => t.farDelay 3 1 == 129)) := by decide +kernel

/-! ### Pair, halyard, cores, PWM -/

/-- A module of a pair in a role. -/
def pr (role : Nat) : State := sets [(PR_CTL_PAIREN, 1), (PR_STAT_ROLE, role)] uw

/-- A heartbeat of the other module: role, epoch 9, rig digest. -/
def hb (role : Fin 5) (d : BitVec 64) : HeartbeatMsg := ⟨true, role, 9, d, true, 0⟩

/-- PairRolesFollowTheirEvents (R220, R222 to R224, R234, R240 to R242): its own and the other PAIR_ID, the same and another rig, a miss and none, the hand-over instant and 1 ns before. -/
theorem test_pair_roles :
    (let s := pr 1
     s.underWay = true ∧ s.fld PR_CTL_PAIREN = 1 ∧ s.pair.muted = false ∧ after (exec .heartbeatSend s) (fun t => t.pair.hbSent == some s.myHeartbeat) ∧
     false = s.flag PR_CTL_PAIRID ∧ (0 : BitVec 64) = s.digest8 ∧ (1 : BitVec 64) ≠ s.digest8 ∧
     after (exec (.heartbeat { hb 0 0 with pairId := false }) s) (fun t => t.role == 4) ∧
     after (exec (.heartbeat (hb 2 0)) (pr 0)) (fun t => t.role == 1 && t.fld PR_STAT_PROLE == 2) ∧ after (exec (.heartbeat (hb 1 0)) (pr 0)) (fun t => t.role == 0) ∧
     after (exec (.heartbeat (hb 1 0)) (pr 4)) (fun t => t.role == 3 && t.reg PR_EPOCH == 9 && t.fld PR_STAT_STALECAUSE == 7) ∧
     after (exec (.heartbeat (hb 1 0)) { pr 4 with pair := { PairSt.reset with maxEpoch := 12 } }) (fun t => t.role == 3 && t.reg PR_EPOCH == 12) ∧
     after (exec (.heartbeat (hb 1 0)) { pr 4 with pair := { PairSt.reset with muted := true } }) (fun t => t.role == 4) ∧
     after (exec .heartbeatSend (sets [(PR_STAT_HALTCAUSE, 2)] { pr 4 with pair := { PairSt.reset with muted := true } })) (fun t => t.pair.hbSent.isSome) ∧
     after (exec .heartbeatSend (sets [(PR_STAT_HALTCAUSE, 1)] { pr 4 with pair := { PairSt.reset with muted := true } })) (fun t => t.pair.hbSent == none) ∧
     after (exec (.heartbeat (hb 1 1)) (pr 2)) (fun t => t.role == 3 && t.fld PR_STAT_STALECAUSE == 6 && t.fld PR_STAT_RIGDIFF == 1) ∧
     after (exec (.stayLinkUp 1 0) s) (fun t => t.fld PR_STAT_SL1UP == 1) ∧ after (exec (.stayLinkDown 0) s) (fun t => t.fld PR_STAT_SL0UP == 0) ∧
     (sets [(PR_STAT_PROLE, 2)] s).fld PR_STAT_PROLE ≠ 7) ∧
    (let s := fun (q : Nat) => at_ 127000 { pr 1 with pair := { PairSt.reset with hbPoints := [q] } }
     (127000 - 2000) / 31250 * 31250 - 3 * 31250 = 31250 ∧ (s 0).hbNone 31250 4 = true ∧ (s 31250).hbNone 31250 4 = false ∧ (s 125000).hbNone 31250 4 = false ∧
     (s 0).nowNs = 127000 ∧ seenSince (s 0).pair.frameAt 31250 = false ∧
     after (exec .heartbeatLoss (s 0)) (fun t => t.role == 0) ∧ after (exec .heartbeatLoss (s 125000)) (fun t => t = s 125000)) ∧
    (let s := { pr 1 with pair := { PairSt.reset with hb := some (hb 2 0) } }
     s.pair.hb = some (hb 2 0) ∧ (hb 2 0).psync = true ∧ after (exec (.handover .host) s) (fun t => t.pair.hoAt == some 1000000 && t.role == 1)) ∧
    (let s := fun (ns : Nat) => at_ ns { sets [(PR_STAT_PROLE, 2)] (pr 1) with pair := { PairSt.reset with hoAt := some 1000000 } }
     after (exec .handoverInstant (s 1000000)) (fun t => t.role == 2 && t.fld PR_EPOCH_EPOCH == 1) ∧ after (exec .handoverInstant (s 999999)) (fun t => t = s 999999)) ∧
    after (exec .handoverInstant (sets [(PR_STAT_PROLE, 1)] (pr 2))) (fun t => t.role == 1) ∧ after (exec (.pairHalt .host) (pr 1)) (fun t => t.role == 4 && t.pair.muted) ∧
    after (exec (.unhalt .host) { pr 4 with pair := { PairSt.reset with muted := true } }) (fun t => !t.pair.muted) := by decide +kernel

/-- A cycle message with an output CRC. -/
def cmsg (crc : Word) : CycleMsg := ⟨0, [], false, 0, false, false, false, crc, []⟩

/-- ReplicationAndStayReachThePartner (R138, R147, R170, R226, R227, R229 to R233, R242, R303). -/
theorem test_replication :
    (let s := pr 2
     s.follows = true ∧ (s.eng 3).crc = 0 ∧ (0 : Word).toNat = (s.eng 3).crc ∧ (1 : Word).toNat ≠ (s.eng 3).crc ∧
     after (exec (.cycleMessage 3 (cmsg 0)) s) (fun t => t.role == 2 && (t.pline 3).msg == some (cmsg 0)) ∧
     after (exec (.cycleMessage 3 (cmsg 1)) s) (fun t => t.role == 3 && t.fld PR_STAT_STALECAUSE == 2) ∧
     after (exec (.partnerMask 3 5 []) s) (fun t => (t.pline 3).mask == some (5, [])) ∧
     seOf 0x01010000 = some (0, 0) ∧ after (exec (.forwardedWrite 0x01010000 7) s) (fun t => t.rd32 0x01010000 == 7) ∧
     seOf 0x30048 = none ∧ shadowJoint 0x30048 = some 0 ∧ after (exec (.forwardedWrite 0x30048 7) s) (fun t => t.fld (JC_STAT_PEND 0) == 1) ∧
     after (exec .backlogTimeout s) (fun t => t.role == 3 && t.fld PR_STAT_STALECAUSE == 4)) ∧
    (let s := sets [(PR_MIRLEN_LEN, 1)] (pr 2)
     15 < 16 * min 128 (s.fld PR_MIRLEN_LEN) ∧ after (exec (.checkpointPage 15 [5] true) s) (fun t => (tabGet (fun _ => []) t.pair.ckIn 15).head? == some 5 && t.pair.ckLast)) ∧
    (let w : Stalled := ⟨.host, 0x45000FFC, [1, 2, 3, 4]⟩
     let s := (sets [(PR_MIRLEN_LEN, 1)] ({ pr 1 with pair := { PairSt.reset with unsent := [0], stalled := [w] } } : State)).setReg PR_MIRBASE 0x45000000
     s.pair.unsent = 0 :: [] ∧ s.pair.stalled = [w] ∧ s.mirPage w.addr = some 0 ∧ s.role = 1 ∧ ([] : List Nat).contains 0 = false ∧
     after (exec .checkpointPageSent s) (fun t => t.rdBytes 0x45000FFC 4 == [1, 2, 3, 4])) ∧
    (let w : Stalled := ⟨.host, 0x01010000, [1]⟩
     let s := { pr 1 with pair := { PairSt.reset with fwd := [(0, [])], fwdWait := [w] } }
     s.pair.fwdWait = w :: [] ∧ uw.pair.fwdWait = [] ∧ after (exec .forwardQueueRoom s) (fun t => t.pair.fwd == [(0x01010000, [1])])) ∧
    (let s := { pr 1 with pair := { PairSt.reset with hb := some (hb 3 0), joinReq := true } }
     s.fld PR_STAT_RESYNC = 0 ∧ s.pair.hb = some (hb 3 0) ∧ (∀ n, n < 8 → s.nodes n = 0 ∨ (s.fld (TL_LSTAT_STATE n) = 4 ∧ s.partnerRuns n = true)) ∧ s.pair.joinReq = true ∧
     after (exec .resyncStart s) (fun t => t.fld PR_STAT_RESYNC == 1)) ∧
    (let s := fun (r : Nat) => sets [(PR_STAT_RESYNC, r)] (pr 1)
     let b := fun (n : Nat) => { s 2 with pair := { (s 2).pair with passBytes := n } }
     after (exec (.resyncPassEnd [0x01010000 / 64, 0x01010040 / 64, 0]) ((s 1).wrB 0x01010000 5)) (fun t => t.fld PR_STAT_RESYNC == 2 && t.pair.passBytes == 128 && tabGet memDefault t.pair.copyMem 0x01010000 == 5) ∧
     after (exec (.resyncPassEnd []) (b 65536)) (fun t => t.fld PR_STAT_RESYNC == 3) ∧ after (exec (.resyncPassEnd []) (b 65537)) (fun t => t.fld PR_STAT_RESYNC == 2 && t.pair.passBytes == 0)) ∧
    (let s := pr 3
     s.fld PR_STAT_RIGDIFF = 0 ∧ after (exec (.resyncGranules false ([] ++ [(0x100000, 5)]) []) s) (fun t => t.rdB 0x100000 == 5 && t.fld PR_STAT_RESYNC == 1) ∧
     after (exec (.resyncGranules true [] []) s) (fun t => t.pair.adoptAt.isSome)) ∧
    (let s := pr 2
     entriesOk (s.spHdrAt (spDesc [] 0).slot) [] = true ∧ after (exec (.staySparRecord (.submission [] [])) s) (fun t => (t.spInst 0).bound == some 0) ∧
     spStores ((1 : Word).toNat % 16) = true ∧ after (exec (.staySparRecord (.result 127 [0x11])) s) (fun t => (t.spInst 127).sol.isSome && t.fld (SP_INST_STAT_HASSOLVE 127) == 1) ∧
     after (exec (.stayCanvasRecord ⟨[] ++ [(9, 0x12)], [], []⟩) s) (fun t => t.vox 9 == 0x12) ∧
     after (exec (.stayCanvasRecord ⟨[], [] ++ [⟨1023, 5, false, 0, [], 0⟩], []⟩) s) (fun t => t.fld (CV_TKT_STAT_LIVE 1023) == 1 && t.fld (CV_TKT_STAT_ARM 1023) == 5) ∧
     after (exec (.stayCanvasRecord ⟨[], [], [4]⟩) (sets [(CV_TKT_STAT_LIVE 4, 1)] s)) (fun t => t.fld (CV_TKT_STAT_LIVE 4) == 0) ∧
     after (exec (.stayShroudOutputs [(2, 5, false)] (some 6)) s) (fun t => t.pair.shGot == some [(2, 5, false)] && t.shroud.applyAt == some 6)) ∧
    (let s := fun (r : Nat) => sets [(PR_OUTMASK_STEP, 128)] (pr r)
     ((s 2).fld PR_OUTMASK_STEP).testBit 7 = true ∧
     after (exec (.stayAxisState 7 ⟨{ StAxis.reset with pend := some 1 }, 1, 100, 200, 300, false, false, true, 5, false⟩) (s 2)) (fun t => t.fld (ST_S_POS_V 7) == 100 && t.reg (ST_S_VEL 7) == 200 && t.fld (ST_S_STAT_HOMED 7) == 1 && (t.axis 7).pend == some 1) ∧
     after (exec .axisStateSend (s 1)) (fun t => (tabGet (fun _ => none) t.pair.axisSent 7).isSome)) := by decide +kernel

/-- The halyard running, flow 5 in use, a target time for the host. -/
def hl (target : Word) : State := (sets [(HAL_CTL_RUN, 1), (HAL_FLOW_CFG_USED 5, 1)] uw).setIni .host { IniSt.reset with ptime := target }

/-- An item of flow 5. -/
def it5 : Item := ⟨5, 0, 0, 0, 1, false, 11, 12, 0, 0, 0⟩

/-- PostsAreQueuedDelayedOrWait (R253 to R258): not running, an unused flow, no slot, at the present tick and one later, a full delay list, counts of 0 and 1, saturation. -/
theorem test_posts :
    insertReady { it5 with rank := 1 } [{ it5 with rank := 2 }] = [{ it5 with rank := 1 }, { it5 with rank := 2 }] ∧
    insertReady { it5 with rank := 1, tick := 1 } [{ it5 with rank := 2 }] = [{ it5 with rank := 2 }, { it5 with rank := 1, tick := 1 }] ∧
    uw.fld HAL_CTL_RUN = 0 ∧ after (exec (.postNow .host 5) uw) (fun t => (t.inis .host).halOut == 5) ∧ (hl 0).fld (HAL_FLOW_CFG_USED ((6 : Word).toNat % 256)) = 0 ∧
    after (exec (.postDelay .host 6) (hl 0)) (fun t => (t.inis .host).halOut == 4) ∧
    (let s := sets [(HAL_CTL_HWRES, 256)] (hl 0)
     (s.atQuota 5 = false ∧ s.fld HAL_CTL_HWRES < s.freeSlots) ∧ after (exec (.postNow .host 5) s) (fun t => t.hal.ready.length == 1)) ∧
    (let s := { hl 1 with hal := { HalSt.reset with ready := List.replicate 4096 it5 } }
     s.freeSlots ≤ s.fld HAL_CTL_HWRES ∧ after (exec (.postNow .host 5) s) (fun t => (t.inis .host).halOut == 2)) ∧
    reached ((hl 0).inis .host).ptime.toNat (hl 0).now = true ∧ reached ((hl 1).inis .host).ptime.toNat (hl 1).now = false ∧ (hl 1).delaysUsed < 1024 ∧
    after (exec (.postDelay .host 5) (hl 0)) (fun t => (t.inis .host).halOut == 9 && t.hal.ready.length == 1) ∧
    after (exec (.postDelay .host 5) (hl 1)) (fun t => (t.inis .host).halOut == 1 && t.hal.delays.length == 1) ∧
    after (exec (.postWait .host 0x70005) (hl 1)) (fun t => (t.wobj 7).queue.length == 1) ∧ ((hl 1).wobj (bits (0x70005 : Word).toNat 16 8)).count = 0 ∧
    (let s := { hl 1 with hal := { HalSt.reset with delays := List.replicate 1024 ⟨1, 1, 0, it5⟩ } }
     s.atQuota 5 = false ∧ s.fld HAL_CTL_HWRES < s.freeSlots ∧ 1024 ≤ s.delaysUsed ∧ after (exec (.postDelay .host 5) s) (fun t => (t.inis .host).halOut == 3)) ∧
    (let s := (hl 1).setWobj 7 ⟨1, []⟩
     0 < (s.wobj 7).count ∧ after (exec (.postWait .host 0x70005) s) (fun t => (t.wobj 7).count == 0 && t.hal.ready.length == 1) ∧ (s.wobj ((7 : Word).toNat % 256)).queue = [] ∧
     after (exec (.signal .host 7) s) (fun t => (t.wobj 7).count == 2)) ∧
    after (exec (.signal .host 0x207) ((hl 1).setWobj 7 ⟨65534, []⟩)) (fun t => (t.wobj 7).count == 65535 && t.fld HAL_STAT_WSAT == 1) ∧
    (let s := (hl 1).setWobj 7 ⟨0, [⟨1, 1, 0, it5⟩]⟩
     (s.wobj 7).queue = ⟨1, 1, 0, it5⟩ :: [] ∧ after (exec (.signal .host 7) s) (fun t => t.hal.ready.map (fun x => (x.flow, x.result, x.arg0)) == [(5, 2, 11)])) ∧
    (let s := { hl 1 with hal := { HalSt.reset with delays := [⟨0, 0, 0, it5⟩, ⟨1, 1, 1, it5⟩] } }
     reached 0 s.tickBoundary = true ∧ after (exec .delayExpiry s) (fun t => t.hal.delays == [⟨1, 1, 1, it5⟩] && t.hal.ready.map (fun x => (x.flow, x.result, x.arg0)) == [(5, 1, 11)])) ∧
    (let s := (hl 1).setWobj 7 ⟨0, [⟨0, 0, 0, it5⟩]⟩
     s.waiters = [⟨0, 0, 0, it5⟩] ∧ after (exec .waitTimeout s) (fun t => t.hal.ready.map (fun x => (x.flow, x.result, x.arg0)) == [(5, 3, 11)])) := by decide +kernel

/-- CoresTakeServeWriteBackAndHalt (R248, R249, R252, R257, R259, R262, R264, R267). -/
theorem test_cores :
    (let sv : Service := ⟨it5, false, false, 0⟩
     let base := sets [(HAL_C_CTL_EN 2, 1), (HAL_C_CTL_SVCLIM 2, 1), (HAL_FLOW_CFG_CORES 5, 15)] (hl 0)
     let s := { base with hal := { HalSt.reset with ready := [it5], serv := [(0, some sv), (1, some sv), (3, some sv)] } }
     s.serv 2 = none ∧ s.hal.stopped = false ∧ (∀ d : Fin 4, d ≠ 2 → (s.serv d).isSome = true) ∧ s.selectItem 2 8 0 = some (it5, []) ∧
     after (exec .delivery s) (fun t => (t.serv 2).isSome && t.reg (HAL_C_ARG0 2) == 11) ∧
     (∀ d : Fin 4, ((base.setServ 0 (some sv)).setServ 1 (some sv) |>.setServ 2 (some sv) |>.setServ 3 (some sv)).serv d ≠ none) ∧
     s.power.reefWait = false ∧ after (exec (.done .host 2) s) (fun t => t.fld (HAL_C_STAT_BADDONE 2) == 1) ∧
     after (exec (.done (.ac 1) 1) (at_ 5000 s)) (fun t => (t.serv 1).isNone && t.fld (HAL_C_STAT_SVC 1) == 5) ∧
     after (exec (.itemAcknowledge (.ac 1) 1) s) (fun t => (t.serv 1).any (fun x => x.acked)) ∧
     (let u := base.setServ 2 (some sv)
      u.serv 2 = some sv ∧ u.fld (HAL_C_CTL_SVCLIM 2) ≠ 0 ∧ u.fld (HAL_C_CTL_SVCLIM 2) * 1000 ≤ (at_ 1000 u).nowNs - 0 ∧ (at_ 999 u).nowNs - 0 < u.fld (HAL_C_CTL_SVCLIM 2) * 1000 ∧
      after (exec (.serviceOverrun 2) (at_ 1000 u)) (fun t => t.fld (HAL_C_STAT_OVERRUN 2) == 1) ∧ after (exec (.serviceOverrun 2) (at_ 999 u)) (fun t => t = at_ 999 u))) ∧
    (let s := sets [(HAL_EV_CFG_EN 63, 1), (HAL_EV_CFG_FLOW 63, 5)] (hl 0)
     s.fld (HAL_EV_CFG_MODE 63) = 0 ∧ s.hal.held = [] ∧ s.hwSlot (s.fld (HAL_EV_CFG_FLOW 63)) = true ∧ after (exec (.eventPost 63 77) s) (fun t => t.hal.ready.any (fun x => x.arg1 == 77)) ∧
     (let u := sets [(HAL_CTL_RUN, 0)] s
      u.hwSlot (u.fld (HAL_EV_CFG_FLOW 63)) = false ∧ after (exec (.eventPost 63 77) u) (fun t => t.hal.held.length == 1 &&
        after (exec (.eventPost 63 78) t) (fun w => w.hal.held.all (fun h => h.item.count == 2) && w.fld HAL_CNT_MERGES == 1) &&
        after (exec .heldItemSlot t) (fun w => w = t) && after (exec .heldItemSlot (sets [(HAL_CTL_RUN, 1)] t)) (fun w => w.hal.held.isEmpty && w.hal.ready.length == 1)))) ∧
    (let s := sets [(HAL_EV_CFG_EN 63, 1), (HAL_EV_CFG_FLOW 63, 7), (HAL_EV_CFG_MODE 63, 1)] (hl 0)
     after (exec (.eventSignal 63) s) (fun t => (t.wobj 7).count == 1)) ∧
    (let l : CacheLine := ⟨0x45000000, true, List.replicate 64 9⟩
     let s := sets [(SP_STRBASE_STRBASE, 0x41000000), (SP_INSTBASE_INSTBASE, 0x42000000)] (uw.setCache 1 [l])
     s.findLine 1 0x4500003F = some l ∧ s.findLine 1 0x45000040 = none ∧ s.sparArea l.addr = false ∧ s.cache 1 = [l] ∧ lineOf 0x45000040 ≠ lineOf 0x4500003F ∧
     after (exec (.cacheLineWriteback 1 0x4500003F) s) (fun t => t.rdBytes 0x45000000 64 == List.replicate 64 9) ∧
     (let u := sets [(SP_STRBASE_STRBASE, 0x45000000)] s
      u.sparArea l.addr = true ∧ l.dirty = true ∧ after (exec (.cacheLineWriteback 1 0x4500003F) u) (fun t => t.rdB 0x4500003F == 0 && (t.reg (GLB_FAULT_STICKY 1)).getLsbD 5)) ∧
     after (exec (.cacheLineDiscard 1 0x45000000) s) (fun t => t.mem == [] && t.cache 1 == []) ∧
     after (exec (.cacheFlush 1) s) (fun t => t.rdB 0x4500003F == 9 && t.cache 1 == [])) ∧
    after (exec (.lockstepError 1 0x100) uw) (fun t => t.scHalted 1 && !t.scHalted 0 && (t.reg (GLB_FAULT_STICKY 2)).getLsbD 4) := by decide +kernel

/-- GroupsRunAndTripsLatch (R269, R273 to R277, R282, R296). -/
theorem test_groups :
    uw.fld (PW_G_CTL_EN 7) = 0 ∧ uw.fld PW_STAT_DLLOCK = 0 ∧ (1 : Word).getLsbD 0 = true ∧ after (exec (.groupEnable .host 7 1) uw) (fun t => t.fld (PW_G_STAT_NOLOCK 7) == 1) ∧
    after (exec (.groupEnable .host 7 1) (sets [(PW_G_CTL_EN 7, 1)] uw)) (fun t => t.fld (PW_G_STAT_NOLOCK 7) == 1 && t.fld (PW_G_CTL_EN 7) == 1) ∧
    (let s := fun (st : Nat) => sets [(PW_STAT_DLLOCK, 1), (PW_G_START_V 7, st)] uw
     reached ((s 1).fld (PW_G_START_V 7)) (s 1).now = false ∧ reached ((s 0).fld (PW_G_START_V 7)) (s 0).now = true ∧
     after (exec (.groupEnable .host 7 1) (s 1)) (fun t => t.fld (PW_G_CTL_EN 7) == 1 && t.fld (PW_G_STAT_RUN 7) == 0) ∧
     after (exec (.groupEnable .host 7 1) (s 0)) (fun t => t.fld (PW_G_STAT_LATESTART 7) == 1 && t.fld (PW_G_STAT_RUN 7) == 1)) ∧
    (let s := (sets [(PW_G_CTL_EN 7, 1)] uw).setPwg 7 { PwGroup.reset with stage := some [100, 2, 3, 4, 5, 6] }
     s.pwDue 7 = some 0 ∧ uw.pwDue 7 = none ∧ after (exec (.periodBoundary 7) s) (fun t => t.fld (PW_G_STAT_RUN 7) == 1 && t.effReg (PW_G_CMP 7 3) == 6)) ∧
    (let s := sets [(PW_G_STAT_RUN 7, 1), (PW_G_CMD_COMMIT 7, 1)] uw
     s.pwMicro 7 = false ∧ s.pwOwned 7 = false ∧ s.pwPeakDue 7 = false ∧ (at_ 39 s).pwPeakDue 7 = false ∧ (at_ 40 s).pwPeakDue 7 = true ∧ after (exec (.carrierPeak 7) s) (fun t => t = s) ∧
     after (exec (.carrierPeak 7) (at_ 40 s)) (fun t => t.fld (PW_G_STAT_COMMITPEND 7) == 1 && t.fld (PW_G_CMD_COMMIT 7) == 0)) ∧
    (sets [(PW_G_CTL_OWNED 7, 1)] uw).pwOwned 7 = true ∧ after (exec (.dllLost 127) (sets [(PW_STAT_DLLOCK, 1)] uw)) (fun t => t.fld PW_STAT_DLLOCK == 0) ∧
    (let s := sets [(PW_G_CTL_TG1 7, 1)] uw
     s.tripReaches 9 7 = true ∧ s.tripReaches 9 6 = false ∧ s.tripReaches 6 6 = true ∧
     after (exec (.trip 9 false) s) (fun t => t.fld (PW_G_STAT_TRIPPED 7) == 1 && t.fld (PW_G_STAT_TRIPPED 6) == 0 && after (exec (.pwClear .host 7) t) (fun u => u.fld (PW_G_STAT_TRIP_STILL 7) == 1) &&
       after (exec (.tripRelease 9) t) (fun u => u.fld PW_STAT_TRIPIN == 0 && after (exec (.pwClear .host 7) u) (fun w => w.fld (PW_G_STAT_TRIPPED 7) == 0 && w.pwInTrip 7)))) ∧
    after (exec (.strip .host 7) uw) (fun t => t.fld (PW_G_STAT_CAUSE 7) == 8 && (t.reg (GLB_FAULT_STICKY 5)).getLsbD 0) ∧
    (sets [(PW_G_STAT_TRIPPED 7, 1)] uw).fld (PW_G_STAT_TRIPPED 7) = 1 := by decide +kernel

/-! ### Sampling, local axes, field inputs and outputs, CAN -/

/-- ChannelsHoldAndConvert (R278 to R280): a count that comes to DIV, a hold that waits, a raw value of 1 at zero offset and a gain of 1. -/
theorem test_adc :
    (let s := sets [(AD_CH_CFG_SRC 23, 3), (AD_CH_CFG_NET 23, 511), (AD_CH_CFG_DIV 23, 2)] (at_ 50 uw)
     let u := s.setAdc 23 { AdcCh.reset with cnt := 1 }
     max 1 (u.fld (AD_CH_CFG_DIV 23)) ≤ (u.adc 23).cnt + 1 ∧ (u.adc 23).held = none ∧ after (exec (.adcHold 511) u) (fun t => (t.adc 23).held == some 50) ∧
     after (exec (.adcHold 511) s) (fun t => (t.adc 23).held == none && (t.adc 23).cnt == 1) ∧ after (exec (.conversionEnd 23 1) s) (fun t => t = s) ∧
     (let w := s.setAdc 23 { AdcCh.reset with cnt := 1, held := some 50 }
      let x := fun (ns : Nat) => noDelay { at_ ns w with pwm := { w.pwm with conv := [(3, some (23, 100))] } }
      (w.adc 23).held = some 50 ∧ w.convDone 23 = false ∧ (x 299).convDone 23 = false ∧ (x 300).convDone 23 = true ∧ after (exec (.adcHold 511) w) (fun t => t.fld (AD_CH_STAT_OVR 23) == 1) ∧
      after (exec (.conversionEnd 23 1) w) (fun t => t = w) ∧
      after (exec (.conversionEnd 23 1) (x 300)) (fun t => t.fld (AD_CH_RES_RAW 23) == 1 && t.fld (AD_CH_STAT_FRESH 23) == 1 && after (exec (.resRead .host 23) t) (fun v => v.fld (AD_CH_STAT_FRESH 23) == 0)))) := by
  decide +kernel

/-- FeedbackPortsCountFrameAndCompare (R284 to R287, R289 to R294): steps of 0, 1, 2 and 3, at TZERO and without a change, frame gaps of 25 µs and 1 ns less, both compare units. -/
theorem test_feedback :
    (let s := sets [(FB_P_CFG_MODE 7, 1), (FB_P_POS_V 7, 5), (FB_P_CFG_ZQUAL 7, 1)] uw
     s.fld (FB_P_CFG_MODE 7) = 1 ∧ (s.port 7).a.raw = (s.port 7).a.flt ∧ (s.port 7).b.raw = (s.port 7).b.flt ∧ (s.port 7).z.raw = (s.port 7).z.flt ∧ (s.port 7).a.last = none ∧ (s.port 7).b.last = none ∧
     (quadIdx true false + 4 - quadIdx false false) % 4 = 1 ∧ (quadIdx true true + 4 - quadIdx false false) % 4 = 2 ∧ (quadIdx false true + 4 - quadIdx false false) % 4 = 3 ∧
     after (exec (.feedbackEdge 7 true true false ⟨1, 0, 0⟩) s) (fun t => t.fld (FB_P_POS_V 7) == 5 && t.fld (FB_P_STAT_ILL 7) == 1) ∧
     after (exec (.indexEdge 7 true true ⟨9, 0, 0⟩) s) (fun t => t.fld (FB_P_IDX_V 7) == 5 && t.fld (FB_P_IDXTS_V 7) == 9) ∧ after (exec (.indexEdge 7 true false ⟨9, 0, 0⟩) s) (fun t => t = s) ∧
     s.fbUses 7 2 = true ∧ after (exec (.lineflt 7 2) s) (fun t => t.fld (FB_P_STAT_LINEFLT 7) == 1 && (t.port 7).faults == 2 ^ 2 && after (exec (.linefltEnd 7 2) t) (fun u => u.fld (FB_P_STAT_LINEFLT 7) == 0)) ∧
     after (exec (.fbPosWrite .host 7 0xFFFFFFFF) s) (fun t => t.fld (FB_P_POS_V 7) == 0xFFFFFFFF)) ∧
    reefed.underWay = false ∧ reefed.power.furled = false ∧ uw.fld (FB_P_CFG_ZQUAL 7) = 0 ∧ (uw.port 7).chg = none ∧
    (let s := fun (ns : Nat) => at_ ns ((sets [(FB_P_SPD_TZERO 7, 1)] uw).setPort 7 { FbPort.reset with chg := some 0 })
     (((s 0).fld (FB_P_SPD_TZERO 7) * 65536000 : Nat) : Int) ≤ (((s 1000).time.ct / 2 ^ 16 : Nat) : Int) - 0 ∧ ¬ (((s 0).fld (FB_P_SPD_TZERO 7) * 65536000 : Nat) : Int) ≤ (((s 999).time.ct / 2 ^ 16 : Nat) : Int) - 0) ∧
    (let s := fun (x : FbPort) => at_ 30000 ((sets [(FB_P_CFG_MODE 7, 3), (FB_P_SSI_BITS 7, 8), (FB_P_SSI_CLKDIV 7, 500)] uw).setPort 7 x)
     let run := fun (at0 : Int) => { FbPort.reset with ssiRun := true, ssiAt := at0 * 65536 }
     after (exec (.ssiTrigger 7 true ⟨3, 0, 0⟩) (s { FbPort.reset with ssiEnd := some 5000 })) (fun t => (t.port 7).ssiRun) ∧
     after (exec (.ssiTrigger 7 true ⟨3, 0, 0⟩) (s { FbPort.reset with ssiEnd := some 5001 })) (fun t => !(t.port 7).ssiRun && t.fld (FB_P_STAT_SSIERR 7) == 1) ∧
     after (exec (.ssiTrigger 7 false ⟨3, 0, 0⟩) (s FbPort.reset)) (fun t => t.fld (FB_P_ERRCNT_SSICNT 7) == 1) ∧
     (s (run 7500)).ssiOver 7 = true ∧ (s (run 7501)).ssiOver 7 = false ∧ after (exec (.ssiFrameEnd 7 0x1FF false) (s (run 7501))) (fun t => t = s (run 7501)) ∧
     after (exec (.ssiFrameEnd 7 0x1FF false) (s (run 7500))) (fun t => t.fld (FB_P_POS_V 7) == 255 && (t.port 7).ssiPrev == some 255) ∧
     after (exec (.ssiFrameEnd 7 0x180 false) (sets [(FB_P_SSI_GRAY 7, 1)] (s (run 7500)))) (fun t => t.fld (FB_P_POS_V 7) == 255) ∧
     after (exec (.ssiFrameEnd 7 1 false) (s { run 7500 with ssiPrev := some 255, chg := some 0 })) (fun t => t.fld (FB_P_POS_V 7) == 2) ∧
     after (exec (.ssiFrameEnd 7 1 true) (sets [(FB_P_SSI_ERRBIT 7, 1)] (s (run 5000)))) (fun t => t.fld (FB_P_STAT_SSIERR 7) == 1 && t.fld (FB_P_POS_V 7) == 0)) ∧
    (let s := sets [(FB_P_CMPCTL_EN 7, 1), (FB_P_CMPCTL_NET 7, 9), (ST_S_CMPCTL_EN 7, 1)] uw
     (0 : Word).toNat = (s.fbUpTo 7).fld (FB_P_POS_V 7) ∧ (s.fbUpTo 7).fld (FB_P_CMPCTL_EN 7) = 1 ∧ (s.fbUpTo 7).fld (FB_P_CMPPER_V 7) = 0 ∧ (1 : Word).toNat ≠ (s.fbUpTo 7).fld (FB_P_POS_V 7) ∧
     after (exec (.compareWrite .host (.fb 7) 0) s) (fun t => t.fld (FB_P_STAT_CMPFIRED 7) == 1 && t.fld (FB_P_CMPCTL_EN 7) == 0 && (t.net 9).left == 4) ∧
     (0 : Word).toNat = ofS 32 (s.stPosNow 7) ∧ after (exec (.compareWrite .host (.st 7) 0) s) (fun t => t.fld (ST_S_STAT_CMPFIRED 7) == 1) ∧
     after (exec (.compareWrite .host (.st 7) 1) s) (fun t => t.fld (ST_S_STAT_CMPFIRED 7) == 0)) := by decide +kernel

/-- AxisCommandsWaitOrStopAtOnce (R296 to R301, R304): owned, accepted, homing, a target 1 above the limit; a speed at VSS and above; a smaller and a larger DLIM while slowing down. -/
theorem test_axes :
    after (exec (.axisStop .host 7) (sets [(ST_S_CTL_OWNED 7, 1)] uw)) (fun t => t.fld (ST_S_STAT_REFUSED 7) == 1 && t.fld (ST_S_STAT_REASON 7) == 4) ∧
    uw.fld (ST_S_CTL_OWNED 7) = 0 ∧ uw.stJudge 7 1 = 0 ∧ after (exec (.axisMove .host 7) uw) (fun t => (t.axis 7).pend == some 1) ∧ after (exec (.axisStop .host 7) uw) (fun t => (t.axis 7).pend == some 3) ∧
    after (exec (.vel .host 7) (sets [(ST_S_STAT_STATE 7, 4)] uw)) (fun t => t.fld (ST_S_STAT_REASON 7) == 1) ∧
    (let s := sets [(ST_S_STAT_HOMED 7, 1), (ST_S_PMIN_V 7, 0), (ST_S_PMAX_V 7, 10), (ST_S_TGT_V 7, 11)] uw
     s.fld (ST_S_STAT_STATE 7) ≠ 4 ∧ s.inLimits 7 (toS 32 (s.fld (ST_S_TGT_V 7))) = false ∧ s.inLimits 7 10 = true ∧ after (exec (.axisMove .host 7) s) (fun t => t.fld (ST_S_STAT_REASON 7) == 2)) ∧
    (let s := fun (v : Int) => (sets [(ST_S_VSS_V 7, 1), (ST_S_STAT_HOMED 7, 1), (ST_S_CTL_STOPNETEN 7, 1)] uw).setAxis 7 { StAxis.reset with v := v }
     (s 0).stRuns 7 = true ∧ (s 0).stVss 7 < (((s ((s 0).stVss 7 + 1)).axis 7).v.natAbs : Int) ∧ ¬ (s 0).stVss 7 < (((s ((s 0).stVss 7)).axis 7).v.natAbs : Int) ∧
     after (exec (.hardstop .host 7) (s ((s 0).stVss 7 + 1))) (fun t => (t.axis 7).v == 0 && t.fld (ST_S_STAT_POSLOST 7) == 1 && t.fld (ST_S_STAT_HOMED 7) == 0) ∧
     after (exec (.stopnetEdge 7) (s ((s 0).stVss 7))) (fun t => (t.axis 7).v == 0 && t.fld (ST_S_STAT_POSLOST 7) == 0)) ∧
    uw.fld (ST_S_CTL_STOPNETEN 7) = 0 ∧ (uw.axis 7).falling = false ∧
    (let s := (uw.setEff (ST_S_DLIM 7) 5).setAxis 7 { StAxis.reset with v := 1, falling := true }
     (4 : Word).toNat < s.effFld (ST_S_DLIM_V 7) ∧ s.effFld (ST_S_DLIM_V 7) < (6 : Word).toNat ∧ after (exec (.dlimWrite .host 7 4) s) (fun t => t.fld (ST_S_STAT_DEFERRED 7) == 1) ∧
     after (exec (.dlimWrite .host 7 6) s) (fun t => t.effReg (ST_S_DLIM 7) == 6)) := by decide +kernel

/-- A module whose input terminal 31 reads 1, its edge at 40 ns. -/
def fiSt (n : Nat) : State :=
  { sets [(FI_COSEN_V, 2 ^ 31), (FI_DI_CFG_LIM 31, 0)] uw with field := { FieldSt.reset with pins := 2 ^ 31, ins := [(31, { FiIn.reset with rise := 40 })], cos := List.replicate n ⟨3, true, 0, 20⟩, cosRead := true } }

/-- InputChangesAreStampedAndQueued (R306 to R310): both edges, 127 and 128 entries, a filter that is and is not due, a pending input that enters. -/
theorem test_inputs :
    after (exec (.rawEdge 31 true ⟨40, 0, 0⟩) (noDelay uw)) (fun t => t.field.pins == 2 ^ 31 && (t.fin 31).rise == 40) ∧ after (exec (.rawEdge 31 false ⟨41, 0, 0⟩) (noDelay uw)) (fun t => (t.fin 31).fall == 41) ∧
    (noDelay uw).fieldOn = true ∧ furledSt.fieldOn = false ∧
    (fiSt 127).fiDue 31 = true ∧ (fiSt 127).flag (FI_DI_CFG_WAKE 31) = false ∧ ((fiSt 127).fld FI_COSEN_V).testBit 31 = true ∧ (fiSt 127).field.cos.length = 127 ∧
    after (exec (.inputChange 31) (fiSt 127)) (fun t => t.field.cos.length == 128 && t.reg (FI_DI_TS 31) == 40 && (t.fld FI_DIN_V).testBit 31) ∧
    after (exec (.inputChange 31) (fiSt 128)) (fun t => t.field.cos.length == 128 && (t.fin 31).pend == some (true, 40)) ∧ (uw.fld FI_COSEN_V).testBit 31 = false ∧
    uw.fiDue 31 = false ∧ after (exec (.inputChange 31) uw) (fun t => t = uw) ∧
    (let s := { sets [(FI_DI_CFG_WAKE 31, 1), (FI_DI_CFG_LIM 31, 0), (GLB_WAKE_CFG_DI, 1)] reefed with field := { FieldSt.reset with pins := 2 ^ 31 } }
     s.flag (FI_DI_CFG_WAKE 31) = true ∧ s.flag GLB_WAKE_CFG_DI = true ∧ s.underWay = false ∧ s.fieldOn = true ∧ s.fiDue 31 = true ∧
     (s.setFld GLB_WAKE_CFG_DI 0).flag GLB_WAKE_CFG_DI = false ∧ after (exec (.inputChange 31) (s.setFld GLB_WAKE_CFG_DI 0)) (fun t => t.fld FI_DIN_V == 2 ^ 31 && !t.underWay)) ∧
    (uw.field.cos = [] ∧ after (exec (.cos0Read .host) uw) (fun t => t.data == 0) ∧ uw.field.cosRead = false) ∧
    (fiSt 1).field.cos = ⟨3, true, 0, 20⟩ :: [] ∧ (∀ j, j < 32 → ((fiSt 1).fin j).pend = none) ∧ after (exec (.cos0Read .host) (fiSt 1)) (fun t => t.data == 0x80000103) ∧
    after (exec (.cos1Read .host) (fiSt 1)) (fun t => t.data == 20 && t.field.cos == []) ∧
    (let s := (fiSt 1).setFin 31 { FiIn.reset with pend := some (true, 44), merged := 2 }
     (s.fin 31).pend = some (true, 44) ∧ (∀ j, j < 31 → (s.fin j).pend = none) ∧ after (exec (.cos1Read .host) s) (fun t => t.field.cos == [⟨31, false, 2, 44⟩] && t.fld FI_STAT_COSOVF == 1)) := by decide +kernel

/-- OutputsSwitchAndTheSupplyCutsThem (R311 to R319): at each threshold and one millivolt beside it. -/
theorem test_outputs :
    after (exec (.doSet .host 0x8001) uw) (fun t => t.fld FI_DO_OUT_V == 0x8001 && after (exec (.doRes .host 1) t) (fun u => u.fld FI_DO_OUT_V == 0x8000)) ∧
    (let s := sets [(FI_DO_OUT_V, 0x8000), (FI_STAT_VFCUT, 0)] uw
     s.doOn 15 = true ∧ s.doOn 14 = false ∧ s.flag (FI_DO_CFG_OLEN 15) = false ∧ after (exec (.outputOverload 15 false) s) (fun t => (t.fld FI_DO_FLT_SHORT).testBit 15 && !t.doOn 15) ∧
     after (exec (.openLoad 15) (sets [(FI_DO_CFG_OLEN 15, 1)] s)) (fun t => (t.fld FI_DO_FLT_OPENLD).testBit 15)) ∧
    (17999 : BitVec 16).toNat < 18000 ∧ ¬ (18000 : BitVec 16).toNat < 18000 ∧ (sets [(FI_STAT_VFLOW, 0)] uw).fld FI_STAT_VFLOW = 0 ∧
    after (exec (.vfieldLow 17999) (sets [(FI_STAT_VFLOW, 0)] uw)) (fun t => t.fld FI_STAT_VFLOW == 1) ∧ after (exec (.vfieldCut 14999) uw) (fun t => t.fld FI_STAT_VFCUT == 1) ∧
    after (exec (.vfok 19001) uw) (fun t => t.fld FI_STAT_VFOK == 1) ∧ after (exec (.vflowEnd 18001) uw) (fun t => t.fld FI_STAT_VFLOW == 0) ∧
    after (exec (.vfokLoss 19000) (sets [(FI_STAT_VFOK, 1)] uw)) (fun t => t.fld FI_STAT_VFOK == 0) ∧
    after (exec (.vfrearm .host) (sets [(FI_STAT_VFOK, 1), (FI_STAT_VFCUT, 1)] uw)) (fun t => t.fld FI_STAT_VFCUT == 0) ∧
    after (exec (.vfrearm .host) (sets [(FI_STAT_VFOK, 0)] uw)) (fun t => t.fld FI_STAT_REARMREF == 1) := by decide +kernel

/-- Controller 3 integrated and enabled, on a module that is ALONE. -/
def cnSt (l : List (Fld × Nat)) (c : CanSt) : State := (sets ([(PR_STAT_ROLE, 0), (CN_CTL_EN 3, 1)] ++ l) uw).setCn 3 c

/-- A frame of another node. -/
def cf : CanFrame := ⟨0x123, false, false, 1, false, false, false, [7]⟩

/-- CanBuffersSendAndCountErrors (R323 to R328, R333, R334). -/
theorem test_can_tx :
    (let s := cnSt [] { CanSt.reset with integ := true }
     s.canListen 3 = false ∧ (cnSt [(PR_STAT_ROLE, 2)] CanSt.reset).canListen 3 = true ∧ s.txState 3 2 ≠ 1 ∧ s.txState 3 2 ≠ 2 ∧
     after (exec (.req .host 3 2) (cnSt [(PR_STAT_ROLE, 2)] CanSt.reset)) (fun t => t.txState 3 2 == 6)) ∧
    (let s := fun (st : Nat) (l : List (Fld × Nat)) (c : CanSt) => cnSt ([(CN_TX_STAT_STATE 3 2, st)] ++ l) { c with active := some 2 }
     (s 1 [] .reset).txState 3 2 = 1 ∧ (s 2 [] .reset).txRan 3 2 = true ∧ (s 2 [] .reset).txRan 3 1 = false ∧
     after (exec (.abort .host 3 2) (s 1 [] .reset)) (fun t => t.txState 3 2 == 4) ∧ after (exec (.abort .host 3 2) (s 2 [] .reset)) (fun t => (t.cn 3).abortAct) ∧
     (let u := s 1 [(CN_TX_CTRL_LAUNCHEN 3 2, 1)] .reset
      reached (u.fld (CN_TX_LAUNCH_T 3 2)) u.now = true ∧ tabGet (fun _ => false) (u.cn 3).early 2 = false ∧ after (exec (.canLaunch 3 2 false) u) (fun t => t.fld (CN_CNT_LATE 3) == 1)) ∧
     after (exec (.canTxEnd 3 2 true 0 77) (s 2 [] .reset)) (fun t => t.txState 3 2 == 3 && t.fld (CN_TX_TS_T 3 2) == 77) ∧
     (let u := s 2 [(CN_TX_CTRL_RLIM 3 2, 2), (CN_TX_STAT_ERRS 3 2, 1)] { CanSt.reset with tec := 248, abortAct := true }
      u.txRan 3 2 = true ∧ (u.cn 3).abortAct = true ∧ (u.cn 3).active = some 2 ∧ u.fld (CN_TX_CTRL_RLIM 3 2) ≠ 0 ∧ u.fld (CN_TX_CTRL_RLIM 3 2) ≤ u.fld (CN_TX_STAT_ERRS 3 2) + 1 ∧
      247 < (u.cn 3).tec ∧ u.fld (CN_STAT_STATE 3) < 2) ∧ ((s 2 [] .reset).cn 3).abortAct = false ∧ (s 2 [] .reset).fld (CN_TX_CTRL_RLIM 3 2) = 0 ∧
     after (exec (.arbitrationLost 3 2) (s 2 [] .reset)) (fun t => t.txState 3 2 == 1 && (t.cn 3).active == none)) ∧
    after (exec (.recover .host 3) (cnSt [(CN_STAT_STATE 3, 2)] .reset)) (fun t => t.fld (CN_STAT_STATE 3) == 3) ∧
    after (exec (.recoveryEnd 3) (cnSt [(CN_STAT_STATE 3, 3)] { CanSt.reset with tec := 256 })) (fun t => t.fld (CN_STAT_STATE 3) == 0 && t.fld (CN_STAT_TEC 3) == 0) ∧
    after (exec (.canBusIntegration 3) (cnSt [] .reset)) (fun t => (t.cn 3).integ) ∧ uw.fld (CN_CTL_EN 3) = 0 := by decide +kernel

/-- CanFramesAreFilteredQueuedAndRead (R327, R329 to R331): no filter, the lowest of two, none that matches; 63 and 64 entries; the reader, another one, the last word; 20 µs and 1 ns less. -/
theorem test_can_rx :
    (let s := fun (l : List (Fld × Nat)) (n : Nat) => cnSt l { CanSt.reset with integ := true, fifo := List.replicate n [1, 2, 3] }
     (s [] 0).canHear 3 = true ∧ ((s [] 0).cn 3).active = none ∧ cf.fdf = false ∧ (∀ y, y < 16 → (s [] 0).fld (CN_FLT_ID_EN 3 y) = 0) ∧
     after (exec (.canFrameRx 3 cf 9) (s [] 63)) (fun t => t.fld (CN_RXSTAT_COUNT 3) == 64) ∧
     (let u := s [(CN_FLT_ID_EN 3 14, 1), (CN_FLT_ID_EN 3 15, 1), (CN_FLT_ID_ID 3 14, 5), (CN_FLT_MASK_MASK 3 14, 2 ^ 29 - 1)]
      (u 0).fltMatch 3 cf 15 = true ∧ (∀ y, y < 15 → (u 0).fltMatch 3 cf y = false) ∧ after (exec (.canFrameRx 3 cf 9) (u 0)) (fun t => (t.cn 3).fifo == [canEntry cf 15 9]) ∧
      after (exec (.canFrameRx 3 cf 9) (u 64)) (fun t => t.fld (CN_CNT_RXOVF 3) == 1 && (t.cn 3).fifo.length == 64)) ∧
     (let u := s [(CN_FLT_ID_EN 3 14, 1), (CN_FLT_ID_ID 3 14, 5), (CN_FLT_MASK_MASK 3 14, 2 ^ 29 - 1)] 0
      u.fld (CN_FLT_ID_EN 3 14) = 1 ∧ (∀ x, x < 16 → u.fltMatch 3 cf x = false) ∧ after (exec (.canFrameRx 3 cf 9) u) (fun t => (t.cn 3).fifo == []))) ∧
    (let s := fun (l : Option (Initiator × Nat)) => at_ 20000 (cnSt [] { CanSt.reset with fifo := [[1, 2, 3]], lock := l })
     ((s none).cn 3).fifo = [1, 2, 3] :: [] ∧ (uw.cn 3).fifo = [] ∧ after (exec (.rxwRead .host 3 0) (s none)) (fun t => t.data == 1 && (t.cn 3).lock == some (.host, 20000)) ∧
     after (exec (.rxwRead .host 3 2) (s (some (.host, 0)))) (fun t => t.data == 3 && (t.cn 3).fifo == []) ∧ after (exec (.rxwRead .host 3 1) (s (some (.host, 0)))) (fun t => t.data == 2) ∧
     after (exec (.rxwRead (.ac 1) 3 1) (s (some (.host, 0)))) (fun t => t.data == 0 && t.fld (CN_STAT_RXCONFL 3) == 1) ∧
     after (exec (.rxLockTimeout 3) (s (some (.host, 0)))) (fun t => t.fld (CN_STAT_RXLTO 3) == 1) ∧ after (exec (.rxLockTimeout 3) (s (some (.host, 1)))) (fun t => t = s (some (.host, 1))) ∧
     after (exec (.rxunlock .host 3) (s (some (.host, 0)))) (fun t => (t.cn 3).lock == none)) := by decide +kernel

/-! ### Rig, host access, power -/

/-- FlashOperationsRunOneAtATime (R336, R337): each refusal, the ends of the image areas, a read and an erase that end. -/
theorem test_flash :
    (let s := fun (a : Nat) => sets [(RG_FL_ADDR_V, a)] reefed
     (s 0).power.furled = false ∧ (s 0).rig.flash = none ∧ (s 0).rig.job = none ∧ after (exec (.flashRead .host) (s 0)) (fun t => t.rig.flash == some ⟨1, 0, 0⟩) ∧
     (s 0x1FF000).fld RG_FL_ADDR_V < 0x200000 ∧ after (exec (.flashErase .host) (s 0x1FF000)) (fun t => t.fld RG_FL_STAT_REFUSED == 1) ∧ (s 0x200000).hasRig = true ∧
     (s 0x200000).fld RG_STAT_SLOT ≠ 1 ∧ (s 0x200000).fld RG_STAT_SLOT = 0 ∧ after (exec (.flashErase .host) (s 0x200000)) (fun t => t.fld RG_FL_STAT_REFUSED == 1) ∧
     after (exec (.flashErase .host) (s 0x3FFF000)) (fun t => t.rig.flash == some ⟨3, 0x3FFF000, 0⟩) ∧ after (exec (.flashProgram .host) (s 0x2000000)) (fun t => t.fld RG_FL_STAT_REFUSED == 1) ∧
     after (exec (.flashProgram .host) (s 0x3FFF001)) (fun t => t.fld RG_FL_STAT_REFUSED == 1)) ∧
    (let s := fun (j : FlashJob) => { reefed with rig := { reefed.rig with flash := some j } }
     (s ⟨1, 0, 0x08000000⟩).rig.flash.isSome = true ∧ 0x08000000 ≤ (⟨1, 0, 0x08FFF000⟩ : FlashJob).src ∧ (⟨1, 0, 0x08FFF000⟩ : FlashJob).src + 4096 ≤ 0x09000000 ∧
     after (exec (.flashOpEnd true) (s ⟨2, 0x200000, 0x08000000⟩)) (fun t => t.fld RG_FL_STAT_ERROR == 1 && t.fld RG_FL_STAT_DONE == 1)) ∧
    ({ reefed with rig := { reefed.rig with job := some ⟨0, [], true, 0, 0, true⟩ } } : State).rig.job.isSome = true := by decide +kernel

/-- RigCommandsReportTheirOutcomes (R341, R342, R346, R353, R354): each outcome; ROLLUP at 64 and above; a key slot once; the ends of an apply. -/
theorem test_rig :
    bits (0xC0DE0020 : Word).toNat 16 16 = 0xC0DE ∧ bits (0x20 : Word).toNat 16 16 ≠ 0xC0DE ∧ reefed.rgBusy = false ∧ reefed.hasRig = true ∧ (∀ x, x < 2 → reefed.slotMagic x = false) ∧
    after (exec (.rollup .host 2) reefed) (fun t => t.fld RG_CMDSTAT_OUTCOME == 4 && t.fld RG_CMDSTAT_LASTOP == 2) ∧
    after (exec (.rollup .host 0xC0DE0000) (sets [(RG_SECVER_V, 65)] reefed)) (fun t => t.rig.roll == 64 && t.fld RG_CMDSTAT_OUTCOME == 1) ∧
    after (exec (.rollup .host 0xC0DE0000) reefed) (fun t => t.fld RG_CMDSTAT_OUTCOME == 5) ∧
    (let s := { reefed with rig := { reefed.rig with job := some ⟨1, [], true, 0, 2, true⟩ } }
     s.rgBusy = true ∧ after (exec (.keylock .host 0xC0DE0000) s) (fun t => t.fld RG_CMDSTAT_OUTCOME == 2) ∧ s.underWay = false ∧
      after (exec (.rigApply .host 0) s) (fun t => t.fld RG_CMDSTAT_OUTCOME == 2) ∧ after (exec (.calwrite .host 0xC0DE0000) s) (fun t => t.fld RG_CMDSTAT_OUTCOME == 2) ∧ s.power.uwAfterApply = false ∧ s.rig.job = some ⟨1, [], true, 0, 2, true⟩) ∧
    (let s := { reefed with rig := { reefed.rig with job := some ⟨0, [], true, 0, 2, false⟩ } }
     after (exec (.rigApplyEnd false) s) (fun t => t.fld RG_STAT_STATE == 0 && (t.reg (GLB_FAULT_STICKY 0)).getLsbD 3)) ∧
    after (exec (.rigApply .host 0) uw) (fun t => t.fld RG_CMDSTAT_OUTCOME == 3) ∧ after (exec (.calwrite .host 0xC0DE0000) uw) (fun t => t.fld RG_CMDSTAT_OUTCOME == 3) ∧ after (exec (.rigApply .host 0) reefed) (fun t => t.fld RG_STAT_STATE == 1 && t.rig.job == some ⟨0, [], true, 0, 2, false⟩) ∧
    after (exec (.calwrite .host 0xC0DE0000) reefed) (fun t => t.rig.calJob) ∧
    (let s := reefed
     s.rig.keylock = false ∧ s.rig.keyset.getLsbD (bits (0xC0DE0060 : Word).toNat 5 2) = false ∧
     after (exec (.keyprog .host 0xC0DE0060) s) (fun t => t.rig.keyset == 8 && after (exec (.keyprog .host 0xC0DE0060) t) (fun u => u.fld RG_CMDSTAT_OUTCOME == 5))) ∧
    after (exec (.keyrev .host 0xC0DE0060) reefed) (fun t => t.rig.keyrev == 8) ∧ after (exec (.keylock .host 0xC0DE0000) reefed) (fun t => t.rig.keylock) ∧
    ({ reefed with rig := { reefed.rig with calJob := true } } : State).rig.calJob = true := by decide +kernel

/-- HostRequestsAccessRegistersAndMemory (R356 to R362, R396, R397): aligned and not, a vector with and without its cause, both alignments of eight bytes. -/
theorem test_host :
    uw.host.inReset = false ∧ uw.stuck .host = false ∧ inBar 0x10000000 = false ∧ inBar 0x4FFFFFFF = true ∧ (0x08000004 : Word).toNat % 8 = 4 ∧
    after (exec (.pcieRequest true 2 true 4 [1, 2, 3, 4]) uw) (fun t => (t.reg (GLB_FAULT_STICKY 0)).getLsbD 0) ∧
    after (exec (.pcieRequest false 0 true 8 []) uw) (fun t => t.data == 0 && (t.reg (GLB_FAULT_STICKY 0)).getLsbD 0) ∧
    after (exec (.pcieRequest true 0x08000004 true 8 [1, 2, 3, 4, 5, 6, 7, 8]) uw) (fun t => t.rdBytes 0x08000004 8 == [1, 2, 3, 4, 5, 6, 7, 8]) ∧
    after (exec (.pcieRequest true 0x10010C true 1 [0]) uw) (fun t => !t.host.mask.getLsbD 16) ∧
    (let s := (uw.setReg GLB_HIRQ_STAT 0x100)
     let u := { s with host := { HostSt.reset with inReset := false, pba := 0x100 } }
     u.host.mask.getLsbD 8 = true ∧ u.host.pba.getLsbD 8 = true ∧ u.host.msixEn = true ∧ after (exec (.msixUnmask 8) u) (fun t => tabGet (fun _ => 0) t.host.sent 8 == 1 && t.host.pba == 0)) ∧
    ({ uw with host := { HostSt.reset with mask := 0 } } : State).host.mask.getLsbD 8 = false ∧
    after (exec (.doorbell .host 0x80) uw) (fun t => t.reg GLB_HIRQ_STAT == 0x8000) ∧
    after (exec .perst uw) (fun t => t.host.inReset && after (exec .perstRelease t) (fun u => !u.host.inReset && u.host.training)) := by decide +kernel

/-- Plant port 1 on, its link up. -/
def peSt (x : PePort) : State := (sets [(PE_P_CTL_EN 1, 1), (PE_P_STAT_LINK 1, 1), (PE_HDS_CTL_PORTS, 2)] (noDelay uw)).setPe 1 x

/-- A broadcast frame of 60 bytes. -/
def bc : List Byte := List.replicate 6 0xFF ++ List.replicate 54 0

/-- PlantPortsReceiveAndSend (R51, R52, R363 to R366): lengths 14, 1 518 and beside them, full lists, a head not completed and a completed one. -/
theorem test_plant_ports :
    (let s := peSt { PePort.reset with free := [0x08000000], filled := [0x08001000] }
     s.power.furled = false ∧ s.fld (PE_P_CTL_EN 1) = 1 ∧ s.macOk 1 (bc.take 6) = true ∧ s.macOk 1 [2, 9, 9, 9, 9, 9] = false ∧ tagged bc = false ∧ ipAt bc = none ∧ s.domainOn 0x08000000 = true ∧
     after (exec (.peFrameRx 1 true bc ⟨9, 0, 0⟩) s) (fun t => (t.pe 1).filled == [0x08001000, 0x08000000] && t.rd32 0x08000000 == 60 + 2 ^ 31 && t.rd32 0x08000004 == 9) ∧
     after (exec (.peFrameRx 1 true bc ⟨9, 0, 0⟩) (peSt .reset)) (fun t => t.fld (PE_P_CNT_RXNOBUF 1) == 1) ∧ after (exec (.peFrameRx 1 false bc ⟨9, 0, 0⟩) s) (fun t => t.fld (PE_P_CNT_FCSERR 1) == 1) ∧
     after (exec (.rxBufferPush .host 1 0x08FFF800) s) (fun t => (t.pe 1).free == [0x08000000, 0x08FFF800]) ∧ inRam (0x08FFF800 : Word).toNat 2048 = true ∧ inRam (0x08FFF840 : Word).toNat 2048 = false ∧
     after (exec (.rxBufferPop .host 1) s) (fun t => t.data == 0x08001000 && (t.pe 1).filled == [])) ∧
    256 ≤ ((peSt { PePort.reset with free := List.replicate 256 0x08000000 }).pe 1).free.length ∧
    (let s := fun (n : Nat) => ((peSt { PePort.reset with queues := [(7, ⟨[]⟩)] }).wr32 0x08000020 0x08004000).wr32 0x08000024 n
     let pu := fun (n : Nat) (b : Bool) => after (exec (.txDescriptorPush .host 1 7 0x08000020) (s n)) (fun t => ((t.txq 1 7).length == 1) == b)
     pu 13 false ∧ pu 14 true ∧ pu 1518 true ∧ pu 1519 false ∧ (s 14).rd32 (0x08000020 + 4) = 14 ∧ (s 14).rd32 (0x08000020 + 0xC) = 0) ∧
    (let s := fun (b : Bool) => ((peSt { PePort.reset with queues := [(7, ⟨[(0x08000020, b)]⟩)] }).wr32 0x08000020 0x08004000).wr32 0x08000024 60
     (s true).txq 1 7 = (0x08000020, true) :: [] ∧ after (exec (.txDescriptorPop .host 1 7) (s true)) (fun t => t.data == 0x08000020 && t.txq 1 7 == []) ∧ (s true).txDue 1 7 = false ∧
     (s false).txHead 1 7 = some 0x08000020 ∧ (s false).txDue 1 7 = true ∧ (∀ r, r < 8 → 7 < r → (s false).txDue 1 r = false) ∧ ((s false).pe 1).sending = none ∧
     after (exec (.launchTime 1 7) (s false)) (fun t => (t.pe 1).sending == some (7, 0x08000020, false) && (t.pe 1).sent.take 60 == (s false).rdBytes 0x08004000 60 &&
       after (exec (.frameTransmitted 1 ⟨77, 0, 0⟩) t) (fun u => u.txq 1 7 == [(0x08000020, true)] && u.rd32 0x08000034 == 77 && u.rd32 0x08000030 == 1))) ∧
    (let d := List.replicate 64 (0x08000020, false)
     64 ≤ ((peSt { PePort.reset with queues := [(7, ⟨d⟩)] }).txq 1 7).length) ∧
    after (exec (.peLinkUp 1 2 true) uw) (fun t => t.fld (PE_P_STAT_SPEED 1) == 2 && after (exec (.peLinkDown 1) t) (fun u => u.reg (PE_P_STAT 1) == 0)) := by decide +kernel

/-- A request for the register at 0, tag 5, and one with another tag that writes SRAM. -/
def hq : List Byte := [0x53, 0x4B, 1, 0, 5, 0, 0, 0, 0, 0, 0, 0, 1, 0, 0, 0]
def hw : List Byte := [0x53, 0x4B, 2, 0, 6, 0, 0, 0, 0, 0, 0, 8, 1, 0, 0, 0, 1, 2, 3, 4]

/-- DatagramServiceAnswersItsSources (R367 to R369). -/
theorem test_datagrams :
    (let s := fun (en wr : Nat) => (sets [(PE_HDS_CTL_EN, en), (PE_HDS_CTL_WREN, wr)] (peSt .reset)).setReg (PE_HDS_ALLOW 3) 0x0A000001
     (s 1 0).hdsPort 1 = true ∧ (s 1 0).hdsPort 0 = false ∧ (s 1 0).stuck .host = false ∧ (s 1 0).hdsEntry 0x0A000001 = some 3 ∧ (s 1 0).hdsEntry 0x0A000002 = none ∧
     hdsFormat (hdsRow hq 1) = true ∧ hdsFormat (hdsRow hw 2) = true ∧ hdsFormat (hdsRow (hq.take 15) 1) = false ∧ leAt (hdsRow hq 1) 12 2 = 1 ∧ leAt (hdsRow hq 1) 8 4 < 0x100000 ∧
     after (exec (.hdsRead 1 0x0A000002 hq) (s 1 0)) (fun t => t.fld PE_HDS_CNT_DENY == 1) ∧ after (exec (.hdsRead 1 0x0A000001 hq) (s 0 0)) (fun t => t.fld PE_HDS_CNT_BAD == 1) ∧
     after (exec (.hdsRead 1 0x0A000001 hq) (s 1 0)) (fun t => (t.pe 1).reply.length == 20 && (tabGet (fun _ => HdsLast.reset) t.host.hds 3).tag == 5) ∧
     (let u := { s 1 0 with host := { (s 1 0).host with hds := [(3, ⟨true, 5, [7]⟩)] } }
      (tabGet (fun _ => HdsLast.reset) u.host.hds 3).used = true ∧ (tabGet (fun _ => HdsLast.reset) u.host.hds 3).tag = leAt (hdsRow hq 1) 4 4 ∧
      after (exec (.hdsRead 1 0x0A000001 hq) u) (fun t => (t.pe 1).reply == [7])) ∧
     after (exec (.hdsWrite 1 0x0A000001 hw) (s 1 0)) (fun t => (t.pe 1).reply.getD 3 0 == 1 && t.rd32 0x08000000 == 0) ∧
     after (exec (.hdsWrite 1 0x0A000001 hw) (s 1 1)) (fun t => (t.pe 1).reply.getD 3 9 == 0 && t.rd32 0x08000000 == 0x04030201)) := by decide +kernel

/-- PowerRequestsAreJudgedAndCarriedOut (R388 to R391): each reason, and the accepted requests. -/
theorem test_power :
    (let s := sets [(GLB_PWR_STAT_STATE, 3)] reefed
     s.power.furled = false ∧ 2 ≤ s.fld GLB_PWR_STAT_STATE ∧ after (exec (.reef .host) s) (fun t => t.fld GLB_PWR_STAT_REASON == 8) ∧ s.rig.job = none ∧ after (exec (.underWay .host) s) (fun t => t.fld GLB_PWR_STAT_REASON == 8)) ∧
    (let s := sets [(GLB_PWR_STAT_STATE, 2)] { reefed with rig := { reefed.rig with job := some ⟨0, [], true, 0, 0, true⟩ } }
     s.rig.job.isSome = true ∧ after (exec (.underWay .host) s) (fun t => t.fld GLB_PWR_STAT_REASON == 3)) ∧
    uw.fld GLB_PWR_STAT_STATE = 0 ∧ (∀ k, k < 64 → (uw.joint k).state.live = false) ∧ (∀ g, g < 8 → uw.fld (PW_G_CTL_EN g) = 0) ∧ uw.axesMoving = false ∧ uw.allDone = true ∧ uw.linesIdle = true ∧
    after (exec (.reef .host) uw) (fun t => t.fld GLB_PWR_STAT_STATE == 1 && t.fld CT_STAT_CLKMODE == 1) ∧
    ((uw.setJoint 63 { Joint.reset with state := .enabled }).joint 63).state.live = true ∧ (sets [(PW_G_CTL_EN 7, 1)] uw).fld (PW_G_CTL_EN 7) = 1 ∧ (sets [(ST_S_STAT_STATE 7, 1)] uw).axesMoving = true ∧
    (let s := uw.setServ 3 (some ⟨⟨5, 0, 0, 0, 1, false, 0, 0, 0, 0, 0⟩, false, false, 0⟩)
     s.allDone = false ∧ after (exec (.reef .host) s) (fun t => t.power.reefWait && t.fld GLB_PWR_STAT_STATE == 3)) ∧
    (let s := sets [(TL_LSTAT_STATE 7, 3)] uw
     s.linesIdle = false ∧ after (exec (.reef .host) s) (fun t => t.power.reefLines && t.power.reefWait && t.fld GLB_PWR_STAT_STATE == 3)) ∧
    reefed.fld GLB_PWR_STAT_STATE = 1 ∧ reefed.power.reefWait = false ∧ reefed.rig.job = none ∧ reefed.hasRig = true ∧
    (let s := sets [(GLB_VBAK_AGOOD, 0), (GLB_VBAK_BGOOD, 0)] reefed
     s.fld GLB_VBAK_AGOOD = 0 ∧ s.fld GLB_VBAK_BGOOD = 0 ∧ after (exec (.underWay .host) s) (fun t => t.fld GLB_PWR_STAT_REASON == 6)) ∧
    after (exec (.underWay .host) (sets [(GLB_VBAK_AGOOD, 1)] reefed)) (fun t => t.fld GLB_PWR_STAT_STATE == 0 && t.cores.running) ∧
    (sets [(RG_STAT_STATE, 0)] reefed).hasRig = false ∧ after (exec (.furl .host) reefed) (fun t => t.power.furled && t.fld GLB_PWR_STAT_FURLCAUSE == 1) := by decide +kernel

/-- WakeSourcesAndSuppliesMoveTheModule (R384, R385, R391 to R394, R399): the alarm at its time and 1 ns before, a furled, a reefed and a hot module, WARN and 1 below. -/
theorem test_wake :
    (let s := sets [(GLB_WAKE_CFG_PIN, 1), (GLB_WAKE_CFG_ALARM, 1), (GLB_WAKE_CFG_FEED, 1), (GLB_WAKE_STAT_ARMED, 1)] ((furledSt.setReg GLB_WAKE_AT_HI 0).setReg GLB_WAKE_AT_LO 100)
     s.power.furled = true ∧ s.power.thermal = false ∧ s.power.failed = false ∧ after (exec .wakePin s) (fun t => !t.power.furled && t.fld GLB_PWR_STAT_WAKESRC == 1) ∧
     (s.reg GLB_WAKE_AT_HI).toNat * 2 ^ 32 + (s.reg GLB_WAKE_AT_LO).toNat ≤ (at_ 100 s).nowNs ∧ (at_ 99 s).nowNs < (s.reg GLB_WAKE_AT_HI).toNat * 2 ^ 32 + (s.reg GLB_WAKE_AT_LO).toNat ∧
     after (exec .wakeAlarm (at_ 100 s)) (fun t => t.fld GLB_PWR_STAT_WAKESRC == 2 && t.fld GLB_WAKE_STAT_ARMED == 0) ∧ after (exec .wakeAlarm (at_ 99 s)) (fun t => t = at_ 99 s) ∧
     (let u := at_ 100 (sets [(GLB_WAKE_CFG_ALARM, 1), (GLB_WAKE_STAT_ARMED, 1), (GLB_WAKE_CFG_PIN, 1)] ((reefed.setReg GLB_WAKE_AT_HI 0).setReg GLB_WAKE_AT_LO 100))
      u.power.furled = false ∧ u.fld GLB_PWR_STAT_STATE = 1 ∧ after (exec .wakeAlarm u) (fun t => t.fld GLB_WAKE_STAT_ARMED == 0) ∧
      after (exec .wakeAlarm (u.setFld GLB_WAKE_CFG_ALARM 0)) (fun t => t = (u.setFld GLB_WAKE_CFG_ALARM 0).setFld GLB_WAKE_STAT_ARMED 0)) ∧
     (let u := { s with power := { s.power with failed := true } }
      u.power.failed = true ∧ u.fld GLB_WAKE_CFG_FEED = 1 ∧ after (exec (.feedGood true 24000) u) (fun t => !t.power.furled && t.fld GLB_PWR_STAT_WAKESRC == 3)) ∧
     (let u := { s with power := { s.power with thermal := true } }
      after (exec .wakePin u) (fun t => t = u) ∧ after (exec (.temperatureReading (BitVec.ofNat 16 (u.fld GLB_TEMP_WARN))) u) (fun t => t.power.thermal) ∧
      after (exec (.temperatureReading (BitVec.ofNat 16 (u.fld GLB_TEMP_WARN - 1))) u) (fun t => !t.power.furled && t.fld GLB_RSTCAUSE_CAUSE == 5))) ∧
    (sets [(GLB_WAKE_CFG_PIN, 0)] uw).fld GLB_WAKE_CFG_PIN = 0 ∧ uw.fld GLB_WAKE_STAT_ARMED = 0 ∧ after (exec (.alarmArm .host 7) uw) (fun t => t.reg GLB_WAKE_AT_HI == 7 && t.fld GLB_WAKE_STAT_ARMED == 1) ∧
    after (exec (.feedFail false 17000) uw) (fun t => t.fld GLB_VBAK_AGOOD == 0 && t.fld GLB_FEED_STAT_VA == 17000) ∧ after (exec (.powerFail 20000) uw) (fun t => t.fld GLB_PWR_STAT_FURLCAUSE == 2) ∧
    after (exec .thermalFurl uw) (fun t => t.fld GLB_PWR_STAT_FURLCAUSE == 3 && t.power.thermal) ∧ toS 16 (uw.fld GLB_TEMP_WARN) < (BitVec.ofNat 16 (uw.fld GLB_TEMP_WARN + 1)).toInt := by decide +kernel

/-- ResetsGoThroughFurledWithTheirCause (R37, R382, R385, R394 to R398). -/
theorem test_resets :
    after (exec .por uw) (fun t => t.time.ct == 0 && t.fld CT_STAT_VALID == 0 && (t.reg (GLB_FAULT_STICKY 0)).getLsbD 9) ∧ after (exec .pdAoLoss uw) (fun t => t.power.furled) ∧
    uw.power.thermal = false ∧ after (exec .resetPin uw) (fun t => t.fld GLB_RSTCAUSE_CAUSE == 2) ∧
    (let s := sets [(GLB_WDT_CTL_EN, 1), (GLB_WDT_CTL_TIMEOUT, 1)] { uw with power := { PowerSt.reset with wdtLeft := 1000000 } }
     s.wdtRuns = true ∧ (at_ 1000000 s).wdtNow = 0 ∧ (at_ 999999 s).wdtNow ≠ 0 ∧ after (exec .watchdogExpiry (at_ 1000000 s)) (fun t => t.fld GLB_RSTCAUSE_CAUSE == 4) ∧
     after (exec .watchdogExpiry (at_ 999999 s)) (fun t => t = at_ 999999 s) ∧ after (exec (.watchdogKick .host 0x5A5A) (at_ 5 s)) (fun t => t.wdtNow == 1000000) ∧ (0x5A5A : Word).toNat % 65536 = 0x5A5A) ∧
    (0xC0DE0001 : Word).getLsbD 0 = true ∧ bits (0xC0DE0001 : Word).toNat 16 16 = 0xC0DE ∧ after (exec (.softwareReset .host 0xC0DE0001) uw) (fun t => t.fld GLB_RSTCAUSE_CAUSE == 3) ∧
    after (exec (.softwareReset .host 0xC0DE0000) uw) (fun t => t = uw) ∧
    (∀ x, x < 2 → State.reset.slotMagic x = false) ∧ State.reset.power.furled = false ∧ State.reset.power.pgood = false ∧
    after (exec (.powerGood true false) State.reset) (fun t => t.power.pgood && t.fld PR_CTL_PAIREN == 1 && t.rig.job == some ⟨0, [], false, 0, 2, false⟩) := by decide +kernel

/-- UncorrectableErrorsAreReported (R98, R120, R148, R371): each memory; a corrected error; a lane in service and one that is not; a furled module. -/
theorem test_ecc :
    uw.fld GLB_RING_LEN_LEN = 0 ∧ uw.power.furled = false ∧
    after (exec (.eccError ⟨.gsram, false⟩ 0x08000004 .host) uw) (fun t => (t.reg (GLB_FAULT_STICKY 1)).getLsbD 0 && t.eccBad == [0x08000004]) ∧
    after (exec (.eccError ⟨.gsram, true⟩ 0x08000004 .host) uw) (fun t => t.eccBad == [] && t.fld (eccCounter .gsram) == 1 && (t.reg (GLB_FAULT_STICKY 1)) == 0) ∧
    after (exec (.eccError ⟨.dram, false⟩ 0x40000004 (.core (.ac 3))) uw) (fun t => (t.reg (GLB_FAULT_STICKY 1)).getLsbD 1 && tabGet (fun _ => none) t.cores.exc (Initiator.ac 3).num == some .loadFault) ∧
    after (exec (.eccError ⟨(.tcmAc 2), false⟩ 0x120004 (.core (.ac 2))) uw) (fun t => (t.reg (GLB_FAULT_STICKY 1)).getLsbD 2) ∧
    after (exec (.eccError ⟨(.tcmSc 1), false⟩ 0x100004 (.core (.sc 1))) uw) (fun t => (t.reg (GLB_FAULT_STICKY 1)).getLsbD 2 && t.scHalted 1) ∧
    after (exec (.eccError ⟨(.engine 3), false⟩ 0x04060004 .host) uw) (fun t => t = uw.markBad 0x04060004) ∧ after (exec (.eccError ⟨.tickets, false⟩ 0 .host) uw) (fun t => t = uw) ∧
    (let s := { uw with spar := { uw.spar with lanes := [(31, { SparLane.reset with out := true })] } }
     s.spServ 31 = false ∧ after (exec (.eccError ⟨(.lane 31), false⟩ 0 .host) s) (fun t => t = s)) ∧
    uw.spServ 31 = true ∧ after (exec (.eccError ⟨(.lane 31), false⟩ 0 .host) uw) (fun t => (t.spLane 31).out && !t.spServ 31 && (t.reg (GLB_FAULT_STICKY 1)).getLsbD 3) ∧
    after (exec (.eccError ⟨.dram, false⟩ 0x40000000 .host) furledSt) (fun t => t = furledSt) := by
  decide +kernel

end Sys2Proof.Tests
end

section
/-! Registers, fields and records: the laws that the proofs about cell time share beside those of the model. -/

namespace Sys2Proof.Machine

variable (s : State)

/-! ### Fields -/

theorem State.fld_lt (f : Fld) : s.fld f < 2 ^ f.width := bits_lt _ _ _

/-- A field whose register is unchanged. -/
theorem State.fld_of_reg (t : State) (f : Fld) (h : t.reg f.addr = s.reg f.addr) : t.fld f = s.fld f := by
  simp only [State.fld, h]

theorem State.flag_of_fld (t : State) (f : Fld) (h : t.fld f = s.fld f) : t.flag f = s.flag f := by
  simp only [State.flag, h]

theorem State.flag_eq_false_iff (f : Fld) : s.flag f = false ↔ s.fld f = 0 := by
  simp [State.flag]

theorem State.flag_of_fld_one (f : Fld) (h : s.fld f = 1) : s.flag f = true := by
  simp [State.flag, h]

theorem State.flag_of_fld_zero (f : Fld) (h : s.fld f = 0) : s.flag f = false := (s.flag_eq_false_iff f).2 h

theorem State.flag_iff_one (f : Fld) (hw : f.width = 1) : s.flag f = true ↔ s.fld f = 1 := by
  have hlt := s.fld_lt f
  rw [hw] at hlt
  simp only [State.flag, bne_iff_ne]
  omega

theorem bits_bit_zero (v : Word) : bits v.toNat 0 1 = v.toNat % 2 := rfl

/-- A flag at bit 0 that reads what was written. -/
theorem State.flag_of_bit_zero (f : Fld) (v : Word) (h : s.fld f = bits v.toNat 0 1) : s.flag f = v.getLsbD 0 := by
  rw [State.flag, h, bits_bit_zero, BitVec.getLsbD, Nat.testBit_zero]
  rcases Nat.mod_two_eq_zero_or_one v.toNat with h | h <;> rw [h] <;> rfl

/-- A one-bit field that was set to 1. -/
theorem State.fld_setFld_one (f : Fld) (h : f.lo + f.width ≤ 32) (hw : f.width = 1) : (s.setFld f 1).fld f = 1 := by
  rw [s.fld_setFld f 1 h, hw, Nat.pow_one]

/-- A field that was set to 0. -/
theorem State.fld_setFld_zero (f : Fld) (h : f.lo + f.width ≤ 32) : (s.setFld f 0).fld f = 0 := by
  rw [s.fld_setFld f 0 h, Nat.zero_mod]

theorem State.incFld_mem (f : Fld) : (s.incFld f).mem = s.mem := s.setFld_mem _ _

/-! ### Records -/

@[simp] theorem State.inis_setIni (i : Initiator) (x : IniSt) : (s.setIni i x).inis i = x := tabGet_set_same _ _ _ _

theorem State.inis_setIni_ne (i j : Initiator) (x : IniSt) (h : j.num ≠ i.num) : (s.setIni i x).inis j = s.inis j :=
  tabGet_set_ne _ _ _ _ _ h

theorem State.inis_of_ini (t : State) (h : t.ini = s.ini) (i : Initiator) : t.inis i = s.inis i := by
  simp only [State.inis, h]

@[simp] theorem State.tmr_setTmr (n : Nat) (x : Timer) : (s.setTmr n x).tmr n = x := tabGet_set_same _ _ _ _

theorem State.tmr_setTmr_ne (n m : Nat) (x : Timer) (h : m ≠ n) : (s.setTmr n x).tmr m = s.tmr m :=
  tabGet_set_ne _ _ _ _ _ h

theorem State.tmr_of_time (t : State) (h : t.time = s.time) (n : Nat) : t.tmr n = s.tmr n := by
  simp only [State.tmr, h]

@[simp] theorem State.win_setWin (n : Nat) (x : Window) : (s.setWin n x).win n = x := tabGet_set_same _ _ _ _

theorem State.win_setWin_ne (n m : Nat) (x : Window) (h : m ≠ n) : (s.setWin n x).win m = s.win m :=
  tabGet_set_ne _ _ _ _ _ h

theorem State.win_of_time (t : State) (h : t.time = s.time) (n : Nat) : t.win n = s.win n := by
  simp only [State.win, h]

/-! ### Registers whose fields are all RW (R6) -/

/-- Every field that a row lists is RW. -/
def RegRow.plain (r : RegRow) : Bool := r.fields.all (fun f => f.acc == .rw)

/-- The word that a write of `v` leaves in a register of such fields. -/
def rwWord (fs : List FieldRow) (w v : Nat) : Nat := fs.foldl (fun w f => putBits w f.lo f.width (bits v f.lo f.width)) w

theorem foldl_fieldWrite_rw (isSealed : Bool) (fs : List FieldRow) (w v : Nat) (b : Bool)
    (h : fs.all (fun f => f.acc == .rw) = true) :
    fs.foldl (fun w f => fieldWrite isSealed w v f) (w, b) = (rwWord fs w v, b) := by
  induction fs generalizing w with
  | nil => rfl
  | cons f fs ih =>
    simp only [List.all_cons, Bool.and_eq_true, beq_iff_eq] at h
    obtain ⟨hf, hfs⟩ := h
    have hstep : fieldWrite isSealed (w, b) v f = (putBits w f.lo f.width (bits v f.lo f.width), b) := by
      simp only [fieldWrite, hf]
    rw [List.foldl_cons, hstep, ih _ hfs]
    rfl

/-- A write to a register of RW fields replaces its word. -/
theorem State.plainWrite_rw (i : Initiator) (a : Nat) (v : Word) (r : RegRow) (hr : findRow a = some r) (hp : r.plain = true) :
    s.plainWrite i a v = s.setReg a (BitVec.ofNat 32 (rwWord r.fields (s.reg a).toNat v.toNat)) := by
  simp only [State.plainWrite, hr, foldl_fieldWrite_rw _ _ _ _ _ hp]
  rfl

/-- A bit of the written word comes from the value where a field covers it, from the old word elsewhere. -/
theorem testBit_rwWord (fs : List FieldRow) (w v i : Nat) :
    (rwWord fs w v).testBit i = if ∃ f ∈ fs, f.lo ≤ i ∧ i < f.lo + f.width then v.testBit i else w.testBit i := by
  induction fs generalizing w with
  | nil => simp [rwWord]
  | cons f fs ih =>
    have hf : (putBits w f.lo f.width (bits v f.lo f.width)).testBit i =
        if f.lo ≤ i ∧ i < f.lo + f.width then v.testBit i else w.testBit i := by
      rw [testBit_putBits, testBit_bits]
      split
      · next h => rw [Nat.add_sub_cancel' h.1, decide_eq_true (by omega), Bool.true_and]
      · rfl
    rw [rwWord, List.foldl_cons]
    refine (ih _).trans ?_
    rw [hf]
    simp only [List.mem_cons, exists_eq_or_imp]
    by_cases hc : f.lo ≤ i ∧ i < f.lo + f.width <;> simp [hc]

/-- A listed field of the written word is the value's. -/
theorem bits_rwWord (fs : List FieldRow) (w v : Nat) (f : FieldRow) (hf : f ∈ fs) :
    bits (rwWord fs w v) f.lo f.width = bits v f.lo f.width := by
  apply Nat.eq_of_testBit_eq
  intro i
  rw [testBit_bits, testBit_bits, testBit_rwWord]
  by_cases hi : i < f.width
  · rw [if_pos ⟨f, hf, by omega⟩]
  · simp [hi]

/-- The bits of a word as a register holds it. -/
theorem bits_mod_word (x lo w : Nat) (h : lo + w ≤ 32) : bits (x % 2 ^ 32) lo w = bits x lo w := by
  apply Nat.eq_of_testBit_eq
  intro i
  rw [testBit_bits, testBit_bits, Nat.testBit_mod_two_pow]
  by_cases hi : i < w
  · simp [show lo + i < 32 by omega]
  · simp [hi]

/-- A field that the tables list in a register all of whose fields are RW. -/
def rwFld (g : Fld) : Bool :=
  (findRow g.addr).any fun r => r.plain && r.fields.any fun f => f.lo == g.lo && f.width == g.width

theorem rwFld_row (g : Fld) (h : rwFld g = true) :
    ∃ r, findRow g.addr = some r ∧ r.plain = true ∧ ∃ f ∈ r.fields, f.lo = g.lo ∧ f.width = g.width := by
  unfold rwFld at h
  cases hr : findRow g.addr with
  | none => simp [hr] at h
  | some r =>
    simp only [hr, Option.any_some, Bool.and_eq_true, List.any_eq_true, beq_iff_eq] at h
    exact ⟨r, rfl, h⟩

/-- A write to the register of such a field replaces its word and leaves the rest. -/
theorem State.plainWrite_rwFld (i : Initiator) (g : Fld) (v : Word) (h : rwFld g = true) :
    ∃ w, s.plainWrite i g.addr v = s.setReg g.addr w := by
  obtain ⟨r, hr, hp, -⟩ := rwFld_row g h
  exact ⟨_, s.plainWrite_rw i g.addr v r hr hp⟩

/-- The field reads the value written. -/
theorem State.fld_plainWrite_rwFld (i : Initiator) (g : Fld) (v : Word) (h : rwFld g = true) (hg : g.lo + g.width ≤ 32) :
    (s.plainWrite i g.addr v).fld g = bits v.toNat g.lo g.width := by
  obtain ⟨r, hr, hp, f, hf, hlo, hw⟩ := rwFld_row g h
  rw [s.plainWrite_rw i g.addr v r hr hp, State.fld_setReg, BitVec.toNat_ofNat, bits_mod_word _ _ _ hg, ← hlo, ← hw,
    bits_rwWord _ _ _ f hf]

end Sys2Proof.Machine
end

section
/-! Which registers a fault event writes beside its own sticky word (R372 to R379): the laws that say so for each operation that it
is made of, beside `Near`, which says the same of the state's other parts. -/

namespace Sys2Proof.Machine

/-- The registers that a sticky bit can write beside its own word: the log's and the ring's counters, the interrupt causes, the role, the
corrections of time keeping, the halyard's merges. -/
def faultRegs : List Nat := [GLB_LOG_STAT, GLB_RING_WR, GLB_HIRQ_STAT, HAL_CNT, TL_FTA_STAT, TL_FTA_RATE, PR_STAT]

/-- The states whose registers differ at most in `faultRegs`. -/
structure RegsNear (s t : State) : Prop where
  reg : ∀ a, a ∉ faultRegs → t.reg a = s.reg a

theorem RegsNear.refl (s : State) : RegsNear s s := ⟨fun _ _ => rfl⟩

theorem RegsNear.trans {s t u : State} (h : RegsNear s t) (k : RegsNear t u) : RegsNear s u :=
  ⟨fun a ha => (k.reg a ha).trans (h.reg a ha)⟩

theorem RegsNear.of_regs {s t : State} (h : t.regs = s.regs) : RegsNear s t :=
  ⟨fun a _ => State.reg_of_regs s t h a⟩

variable (s : State)

theorem regsNear_pair (x : PairSt) : RegsNear s { s with pair := x } := .of_regs rfl
theorem regsNear_fta (x : FtaSt) : RegsNear s { s with fta := x } := .of_regs rfl
theorem regsNear_log (x : LogSt) : RegsNear s { s with log := x } := .of_regs rfl

theorem regsNear_setReg (a : Nat) (v : Word) (h : a ∈ faultRegs) : RegsNear s (s.setReg a v) :=
  ⟨fun _ hb => s.reg_setReg_ne _ _ _ (fun e => hb (e ▸ h))⟩

theorem regsNear_setFld (f : Fld) (v : Nat) (h : f.addr ∈ faultRegs) : RegsNear s (s.setFld f v) :=
  regsNear_setReg s _ _ h

theorem regsNear_foldl {α : Type} (f : State → α → State) (hf : ∀ t x, (f t x).regs = t.regs) (l : List α) (s : State) :
    RegsNear s (l.foldl f s) := by
  induction l generalizing s with
  | nil => exact RegsNear.refl s
  | cons x l ih => exact (RegsNear.of_regs (hf s x)).trans (ih (f s x))

/-! ### Interrupts and halyard events -/

/-- An interrupt cause writes GLB_HIRQ_STAT alone. -/
theorem State.reg_cause_ne (v a : Nat) (h : a ≠ GLB_HIRQ_STAT) : (s.cause v).reg a = s.reg a := by
  simp only [State.cause]
  split
  · rfl
  · split
    · exact s.reg_setReg_ne _ _ _ h
    · split <;> exact s.reg_setReg_ne _ _ _ h

/-- An event of a hardware source writes HAL_CNT alone. -/
theorem State.reg_hwPost_ne (src : HalSrc) (flow prio kind arg0 arg1 a : Nat) (h : a ≠ HAL_CNT) :
    (s.hwPost src flow prio kind arg0 arg1).reg a = s.reg a := by
  simp only [State.hwPost]
  split
  · rfl
  · split
    · exact State.reg_setReg_ne _ _ _ _ h
    · split <;> rfl

theorem regsNear_cause (v : Nat) : RegsNear s (s.cause v) :=
  ⟨fun _ ha => s.reg_cause_ne _ _ (fun e => ha (e ▸ by decide))⟩

theorem regsNear_hwPost (src : HalSrc) (flow prio kind arg0 arg1 : Nat) : RegsNear s (s.hwPost src flow prio kind arg0 arg1) :=
  ⟨fun _ ha => s.reg_hwPost_ne _ _ _ _ _ _ _ (fun e => ha (e ▸ by decide))⟩

/-! ### A change of role -/

theorem regsNear_canResume (was now : Nat) : RegsNear s (s.canResume was now) := by
  simp only [State.canResume]
  split
  · exact regsNear_foldl (fun (t : State) k => t.setCn k { t.cn k with wait := true }) (fun _ _ => rfl) _ _
  · exact RegsNear.refl s

theorem regsNear_beginRate : RegsNear s s.beginRate :=
  (regsNear_setReg s TL_FTA_RATE 0 (by decide)).trans (regsNear_fta _ _)

theorem regsNear_refreshApplied : RegsNear s s.refreshApplied := by
  simp only [State.refreshApplied, State.setFlag]
  split
  · exact RegsNear.refl s
  · split
    · exact (regsNear_beginRate s).trans (regsNear_setFld _ _ _ (by decide))
    · exact regsNear_setFld _ _ _ (by decide)

theorem regsNear_roleTime : RegsNear s s.roleTime := by
  simp only [State.roleTime]
  refine RegsNear.trans ?_ (regsNear_refreshApplied _)
  split
  · exact (regsNear_beginRate s).trans (regsNear_fta _ _)
  · exact regsNear_fta _ _

theorem regsNear_setRole (r : Nat) : RegsNear s (s.setRole r) := by
  simp only [State.setRole]
  split
  · exact RegsNear.refl s
  · have h := ((regsNear_setFld s PR_STAT_ROLE r (by decide)).trans (regsNear_canResume _ s.role r)).trans (regsNear_roleTime _)
    split
    · exact (h.trans (regsNear_cause _ _)).trans (regsNear_hwPost _ _ _ _ _ _ _)
    · exact h.trans (regsNear_hwPost _ _ _ _ _ _ _)

theorem regsNear_goHalted (cause : Nat) : RegsNear s (s.goHalted cause) := by
  simp only [State.goHalted]
  have h := ((regsNear_setRole s 4).trans (regsNear_setFld _ PR_STAT_HALTCAUSE cause (by decide))).trans
    (regsNear_setFld _ PR_STAT_RESYNC 0 (by decide))
  exact (h.trans (regsNear_foldl (fun (t : State) (g : Nat) => t.setPwg g { t.pwg g with open_ := false })
    (fun _ _ => rfl) (List.range 8) _)).trans (regsNear_pair _ _)

/-! ### The log -/

theorem State.regs_wrBytes (a : Nat) (bs : List Byte) : (s.wrBytes a bs).regs = s.regs := by
  rw [State.wrBytes_eq]

theorem regsNear_wrBytes (a : Nat) (bs : List Byte) : RegsNear s (s.wrBytes a bs) := .of_regs (s.regs_wrBytes a bs)

theorem regsNear_ringNew (e : LogEntry) : RegsNear s (s.ringNew e) := by
  simp only [State.ringNew]
  exact ((regsNear_wrBytes s _ _).trans (regsNear_setFld _ GLB_RING_WR_WR _ (by decide))).trans (regsNear_log _ _)

theorem regsNear_ringPut (e : LogEntry) (merge : Bool) : RegsNear s (s.ringPut e merge) := by
  simp only [State.ringPut]
  split
  · split
    · exact RegsNear.refl s
    · exact regsNear_log _ _
  · split
    · split
      · exact regsNear_wrBytes _ _ _
      · exact regsNear_ringNew _ _
    · split
      · exact RegsNear.refl s
      · exact (regsNear_setFld s GLB_LOG_STAT_RINGSKIP _ (by decide)).trans (regsNear_log _ _)

theorem regsNear_logIt (bit inst detail : Nat) : RegsNear s (s.logIt bit inst detail) := by
  have put (l : LogSt) (e : LogEntry) (merge : Bool) : RegsNear s ({ s with log := l }.ringPut e merge) :=
    (regsNear_log s l).trans (regsNear_ringPut _ _ _)
  simp only [State.logIt]
  split
  · split <;> exact put _ _ _
  · exact put _ _ _

theorem regsNear_escalate : RegsNear s s.escalate := by
  simp only [State.escalate]
  split
  · exact regsNear_log _ _
  · exact regsNear_goHalted _ _

/-! ### A sticky bit -/

/-- The registers after a sticky bit are those with its bit set in its own word, and `faultRegs`. -/
theorem regsNear_sticky (b inst detail : Nat) :
    RegsNear (s.setReg (GLB_FAULT_STICKY (b / 32)) (s.reg (GLB_FAULT_STICKY (b / 32)) ||| BitVec.ofNat 32 (2 ^ (b % 32))))
      (s.sticky b inst detail) := by
  simp only [State.sticky]
  refine RegsNear.trans (regsNear_logIt _ b inst (detail % 2 ^ 32)) ?_
  split
  · exact RegsNear.refl _
  · split <;> split
    · exact (regsNear_cause _ _).trans (regsNear_escalate _)
    · exact regsNear_cause _ _
    · exact regsNear_escalate _
    · exact RegsNear.refl _

theorem getLsbD_or_twoPow (w : Word) (v : Nat) (h : v < 32) : (w ||| BitVec.ofNat 32 (2 ^ v)).getLsbD v = true := by
  rw [BitVec.getLsbD_or, BitVec.getLsbD_ofNat]
  simp [h]

/-- A sticky bit is set by its occurrence (R372). -/
theorem State.sticky_sets (b inst detail : Nat) (hb : b < 256) :
    ((s.sticky b inst detail).reg (GLB_FAULT_STICKY (b / 32))).getLsbD (b % 32) = true := by
  have hown : GLB_FAULT_STICKY (b / 32) ∉ faultRegs := by
    simp only [faultRegs, GLB_FAULT_STICKY, GLB_LOG_STAT, GLB_RING_WR, GLB_HIRQ_STAT, HAL_CNT, TL_FTA_STAT, TL_FTA_RATE, PR_STAT,
      List.mem_cons, List.not_mem_nil, or_false]
    omega
  rw [(regsNear_sticky s b inst detail).reg _ hown, State.reg_setReg]
  exact getLsbD_or_twoPow _ _ (Nat.mod_lt _ (by decide))

/-- A cause's bit stands in GLB_HIRQ_STAT (R360). -/
theorem State.cause_sets (v : Nat) (h : v < 32) : ((s.cause v).reg GLB_HIRQ_STAT).getLsbD v = true := by
  have hset : ((s.setReg GLB_HIRQ_STAT (s.reg GLB_HIRQ_STAT ||| BitVec.ofNat 32 (2 ^ v))).reg GLB_HIRQ_STAT).getLsbD v = true := by
    rw [State.reg_setReg]; exact getLsbD_or_twoPow _ _ h
  simp only [State.cause]
  split
  · assumption
  · split
    · exact hset
    · split <;> exact hset

end Sys2Proof.Machine
end

section
/-! Cell time, accesses: the time registers that the LINE source owns, and the reads of short time (R30, R38, R261). -/

namespace Sys2Proof.Machine

variable (s : State)

/-- Every register below the memories is reached while the module is under way. -/
theorem State.gated_underWay (i : Initiator) (a : Nat) (f : State → State) (hu : s.underWay = true) (ha : a < 0x02000000) :
    s.gated i a f = f s := s.gated_on i a f (s.domainOn_underWay a hu ha)

/-! ### Ownership (R30) -/

theorem State.owned_line (t : State) (h : s.effSrc = 1) : s.owned t = s.setFld CT_STAT_OWNED_WRITE 1 := by
  simp [State.owned, h]

theorem State.owned_other (t : State) (h : s.effSrc ≠ 1) : s.owned t = t := by
  simp [State.owned, h]

/-- A module that follows its partner follows LINE (R30). -/
theorem State.effSrc_follower (h : s.role = 2 ∨ s.role = 3) : s.effSrc = 1 := by
  simp [State.effSrc, h]

/-- Any other module follows the source that CFGSRC names, 3 acting as FREE (R30). -/
theorem State.effSrc_configured (h2 : s.role ≠ 2) (h3 : s.role ≠ 3) :
    s.effSrc = if s.fld CT_CTL_CFGSRC = 3 then 0 else s.fld CT_CTL_CFGSRC := by
  have hlt : s.fld CT_CTL_CFGSRC < 4 := s.fld_lt _
  simp only [State.effSrc, h2, h3, or_self, if_false]
  generalize s.fld CT_CTL_CFGSRC = c at hlt
  obtain rfl | rfl | rfl | rfl : c = 0 ∨ c = 1 ∨ c = 2 ∨ c = 3 := by omega
  all_goals rfl

theorem State.effSrc_lt : s.effSrc < 4 := by
  by_cases h : s.role = 2 ∨ s.role = 3
  · simp [s.effSrc_follower h]
  · have hlt : s.fld CT_CTL_CFGSRC < 4 := s.fld_lt _
    rw [s.effSrc_configured (fun e => h (.inl e)) (fun e => h (.inr e))]
    split <;> omega

/-! ### The increment (R27, R28) -/

theorem clampI_within {lo hi x : Int} (h : lo ≤ x) (k : x ≤ hi) : clampI lo hi x = x := by
  simp [clampI, Int.not_lt.2 h, Int.not_lt.2 k]

theorem clampI_outside {lo hi x : Int} (h : x < lo ∨ hi < x) :
    clampI lo hi x = if x < lo then lo else hi := by
  unfold clampI
  split
  · rfl
  · next hx => simp [h.resolve_left hx]

/-- A requested increment within the bounds is put into effect as it is. -/
theorem State.reqIncr_within (x frac : Nat) (hmin : incrMin ≤ x) (hmax : x ≤ incrMax) : s.reqIncr x frac = s.putIncr x := by
  have hc : clampIncr (x : Int) = x := by
    rw [clampIncr, clampI_within (Int.ofNat_le.2 hmin) (Int.ofNat_le.2 hmax), Int.toNat_natCast]
  simp [State.reqIncr, hc]

/-- The bound that a requested increment out of the bounds gives way to (R27). -/
def nearerBound (x : Nat) : Nat := if x < incrMin then incrMin else incrMax

theorem nearerBound_ne {x : Nat} (h : x < incrMin ∨ incrMax < x) : nearerBound x ≠ x := by
  unfold nearerBound
  split
  · next hx => exact (Nat.ne_of_lt hx).symm
  · next hx => exact Nat.ne_of_lt (h.resolve_left hx)

theorem clampIncr_outside {x : Nat} (h : x < incrMin ∨ incrMax < x) : clampIncr (x : Int) = nearerBound x := by
  have hout : (x : Int) < incrMin ∨ (incrMax : Int) < x := h.imp Int.ofNat_lt.2 Int.ofNat_lt.2
  rw [clampIncr, clampI_outside hout, nearerBound]
  simp only [Int.ofNat_lt]
  split <;> exact Int.toNat_natCast _

/-- A requested increment out of the bounds gives way to the nearer bound, with INCR_CLAMP. -/
theorem State.reqIncr_outside (x frac : Nat) (h : x < incrMin ∨ incrMax < x) :
    s.reqIncr x frac = (s.putIncr (nearerBound x)).sticky 7 0 frac := by
  have hne : ((nearerBound x : Nat) : Int) ≠ x := fun e => nearerBound_ne h (Int.ofNat.inj e)
  simp only [State.reqIncr, clampIncr_outside h, hne, if_false]

/-- What a write of CT_INCR does while LINE is not in effect. -/
theorem State.ctIncrWrite_eq (i : Initiator) (v : Word) (hd : s.domainOn CT_INCR = true) (he : s.effSrc ≠ 1) :
    exec (.ctIncrWrite i v) s = .next (s.reqIncr (s.time.heldInt * 2 ^ 32 + v.toNat : Nat) v.toNat) := by
  show Host.Outcome.next _ = _
  rw [s.gated_on i CT_INCR _ hd, State.writeIncr, s.owned_other _ he]

/-- What a write of CT_INCRI does while LINE is not in effect. -/
theorem State.ctIncriWrite_eq (i : Initiator) (v : Word) (hd : s.domainOn CT_INCRI = true) (he : s.effSrc ≠ 1) :
    exec (.ctIncriWrite i v) s = .next { s.setFld CT_INCRI_INT (v.toNat % 256) with
      time := { s.time with heldInt := v.toNat % 256 } } := by
  show Host.Outcome.next _ = _
  rw [s.gated_on i CT_INCRI _ hd, State.writeIncri, s.owned_other _ he]
  rfl

@[simp] theorem State.putIncr_mem (x : Nat) : (s.putIncr x).mem = s.mem := rfl
@[simp] theorem State.putIncr_hal (x : Nat) : (s.putIncr x).hal = s.hal := rfl
theorem State.putIncr_time (x : Nat) : (s.putIncr x).time = { s.time with incr := x, heldInt := x / 2 ^ 32 } := rfl

theorem State.reg_putIncr_ne (x a : Nat) (h : a ≠ CT_INCR) (hi : a ≠ CT_INCRI) : (s.putIncr x).reg a = s.reg a :=
  (State.reg_setFld_ne _ CT_INCRI_INT _ a hi).trans (s.reg_setFld_ne CT_INCR_FRAC _ a h)

/-- CT_INCR reads the fraction of the increment in effect. -/
theorem State.fld_putIncr_frac (x : Nat) : (s.putIncr x).fld CT_INCR_FRAC = x % 2 ^ 32 := by
  show ((s.setFld CT_INCR_FRAC (x % 2 ^ 32)).setFld CT_INCRI_INT (x / 2 ^ 32)).fld CT_INCR_FRAC = _
  rw [State.fld_setFld_ne _ _ _ _ (by decide) (.inl (by decide)), State.fld_setFld _ _ _ (by decide)]
  exact Nat.mod_mod _ _

/-- CT_INCRI reads its integer part. -/
theorem State.fld_putIncr_int (x : Nat) : (s.putIncr x).fld CT_INCRI_INT = x / 2 ^ 32 % 256 :=
  State.fld_setFld _ CT_INCRI_INT _ (by decide)

/-- Settles O12: FRAC puts the held INT and itself into effect through `reqIncr`, within the bounds and outside them. -/
theorem incrementPartsTakeEffectTogether : Obligations.IncrementPartsTakeEffectTogether := by
  unfold Obligations.IncrementPartsTakeEffectTogether
  refine ⟨fun s i v hd he => ?_, fun s i v hd he hmin hmax => ?_, fun s i v hd he hout => ?_⟩
  · refine ⟨_, s.ctIncriWrite_eq i v hd he, rfl, ?_, fun a ha => s.reg_setFld_ne CT_INCRI_INT _ a ha, rfl, rfl⟩
    exact (s.fld_setFld CT_INCRI_INT (v.toNat % 256) (by decide)).trans (Nat.mod_mod _ _)
  · have hv := v.isLt
    have hint : (s.time.heldInt * 2 ^ 32 + v.toNat) / 2 ^ 32 = s.time.heldInt := by omega
    refine ⟨_, s.ctIncrWrite_eq i v hd he, ?_⟩
    rw [s.reqIncr_within _ _ hmin hmax, State.fld_putIncr_frac, State.fld_putIncr_int, State.putIncr_time, hint]
    have hsmall : s.time.heldInt < 256 := by
      have hbound : incrMax < 256 * 2 ^ 32 := by decide
      omega
    exact ⟨rfl, by omega, Nat.mod_eq_of_lt hsmall, fun a ha hi => s.reg_putIncr_ne _ a ha hi, s.putIncr_mem _, s.putIncr_hal _⟩
  · refine ⟨_, s.ctIncrWrite_eq i v hd he, ?_⟩
    rw [s.reqIncr_outside _ _ hout, (near_sticky _ _ _ _).time, State.putIncr_time]
    exact ⟨rfl, rfl, State.sticky_sets _ 7 0 _ (by decide)⟩

/-! ### A word that a read computes -/

theorem toNat_withFld (w : Word) (f : Fld) (x : Nat) (hf : f.lo + f.width ≤ 32) :
    (withFld w f x).toNat = putBits w.toNat f.lo f.width x := by
  rw [withFld, BitVec.toNat_ofNat, Nat.mod_eq_of_lt (putBits_lt _ _ _ _ _ w.isLt hf)]

/-- What a read of CT_STAT shows in EFFSRC. -/
theorem State.regView_effSrc (i : Initiator) : bits (s.regView i CT_STAT).toNat 2 2 = s.effSrc := by
  have hview : s.regView i CT_STAT =
      withFld (withFld (s.plainValue CT_STAT) CT_STAT_EFFSRC s.effSrc) CT_STAT_SLEWING (b2n (s.time.slew != 0)) := rfl
  rw [hview, toNat_withFld _ _ _ (by decide), bits_putBits_disjoint _ _ _ _ _ _ (by decide),
    toNat_withFld _ _ _ (by decide)]
  exact (bits_putBits _ _ _ _).trans (Nat.mod_eq_of_lt s.effSrc_lt)

@[simp] theorem State.clearRc_data (a : Nat) : (s.clearRc a).data = s.data := by
  unfold State.clearRc
  split <;> rfl

/-- An aligned read of a register without an effect of its own answers what the register shows. -/
theorem State.busRead_ctStat (i : Initiator) (hst : s.stuck i = false) (hu : s.underWay = true)
    (he : s.coreExc i .load CT_STAT 4 = none) :
    s.busRead i CT_STAT 4 = (((s.answer 0).answer ((s.answer 0).regView i CT_STAT)).clearRc CT_STAT) := by
  have hread : s.busRead i CT_STAT 4 = s.regRead i CT_STAT := by
    simp only [State.busRead, he, State.devRead, hst]
    simp [CT_STAT]
  rw [hread]
  exact (s.answer 0).gated_underWay i CT_STAT _ hu (by decide)

/-- Settles O13: under LINE each of the four writes ends in the `owned` branch; the source in effect follows role and CFGSRC. -/
theorem lineSourceOwnsTheTimeRegisters : Obligations.LineSourceOwnsTheTimeRegisters := by
  unfold Obligations.LineSourceOwnsTheTimeRegisters
  refine ⟨fun s i v hu hl => ?_, fun s h => s.effSrc_follower h, fun s h2 h3 => s.effSrc_configured h2 h3,
    fun s i hst hu he => ?_⟩
  · have hwrite (a : Nat) (f : State → State) (ha : a < 0x02000000) :
        Host.Outcome.next (φ := Fault) (ρ := Refusal) (s.gated i a fun s => s.owned (f s)) =
          .next (s.setFld CT_STAT_OWNED_WRITE 1) := by
      rw [s.gated_underWay i a _ hu ha, s.owned_line _ hl]
    exact ⟨hwrite CT_INCRI _ (by decide), hwrite CT_INCR _ (by decide), hwrite CT_SLEW _ (by decide),
      hwrite CT_SLEW_CTL _ (by decide)⟩
  · refine ⟨s.busRead i CT_STAT 4, rfl, ?_⟩
    rw [s.busRead_ctStat i hst hu he, State.clearRc_data]
    exact (s.answer 0).regView_effSrc i

/-! ### Short time (R38, R261) -/

/-- A read of CT_NOW_HI returns the reader's shadow of the high word. -/
theorem State.regView_nowHi (i : Initiator) : s.regView i CT_NOW_HI = (s.inis i).nowHi := rfl

/-- Settles O15: both reads write the reader's record alone, each its own half of it. -/
theorem shortTimeReadLatchesTheHighWord : Obligations.ShortTimeReadLatchesTheHighWord := by
  unfold Obligations.ShortTimeReadLatchesTheHighWord
  refine ⟨fun s i hd => ?_, fun s c => ?_⟩
  · have hlatch : ((s.readNowLo i).inis i).nowHi = BitVec.ofNat 32 (s.nowNs / 2 ^ 32) :=
      congrArg IniSt.nowHi (s.inis_setIni i _)
    refine ⟨s.readNowLo i, congrArg Host.Outcome.next (s.gated_on i CT_NOW_LO _ hd), rfl, hlatch,
      fun j hj => s.inis_setIni_ne i j _ hj, rfl, rfl, rfl, fun u hu => ?_⟩
    rw [u.regView_nowHi, State.inis_of_ini _ u hu, hlatch]
  · have hlatch := s.inis_setIni (.ac c) { s.inis (.ac c) with timeh := BitVec.ofNat 32 (s.nowNs / 2 ^ 32) }
    exact ⟨_, rfl, rfl, congrArg IniSt.timeh hlatch, (congrArg IniSt.nowHi hlatch :), rfl, rfl, rfl⟩

end Sys2Proof.Machine
end

section
/-! What a firing timer or a moving window announces beside its own registers: a pulse, a pin edge, a halyard event, an interrupt (R41,
R43 to R45). -/

namespace Sys2Proof.Machine

/-- The states that differ at most by announcements: pulses and pin edges, with `ev` a halyard event, with `irq` an interrupt. -/
structure Announced (ev irq : Bool) (s t : State) : Prop where
  reg : ∀ a, (ev = true → a ≠ HAL_CNT) → (irq = true → a ≠ GLB_HIRQ_STAT) → t.reg a = s.reg a
  time : t.time = s.time
  mem : t.mem = s.mem
  hal : ev = false → t.hal = s.hal

variable {ev irq : Bool} (s : State)

theorem Announced.refl : Announced ev irq s s := ⟨fun _ _ _ => rfl, rfl, rfl, fun _ => rfl⟩

variable {s} {t u : State}

theorem Announced.trans (h : Announced ev irq s t) (k : Announced ev irq t u) : Announced ev irq s u :=
  ⟨fun a ha hb => (k.reg a ha hb).trans (h.reg a ha hb), k.time.trans h.time, k.mem.trans h.mem,
    fun hh => (k.hal hh).trans (h.hal hh)⟩

/-- A register of the block of cell time is none that an announcement writes. -/
theorem Announced.ctReg (h : Announced ev irq s t) {a : Nat} (ha : 0x10000 ≤ a ∧ a < 0x20000) : t.reg a = s.reg a :=
  h.reg a (fun _ e => by simp only [HAL_CNT] at e; omega) (fun _ e => by simp only [GLB_HIRQ_STAT] at e; omega)

theorem Announced.ctFld (h : Announced ev irq s t) {f : Fld} (ha : 0x10000 ≤ f.addr ∧ f.addr < 0x20000) : t.fld f = s.fld f :=
  State.fld_of_reg s t f (h.ctReg ha)

theorem Announced.ctFlag (h : Announced ev irq s t) {f : Fld} (ha : 0x10000 ≤ f.addr ∧ f.addr < 0x20000) : t.flag f = s.flag f :=
  State.flag_of_fld s t f (h.ctFld ha)

/-- An announcement that is made on a condition. -/
theorem Announced.ite {c : Prop} [Decidable c] (h : c → Announced ev irq s t) : Announced ev irq s (if c then t else s) := by
  split
  · next hc => exact h hc
  · exact Announced.refl s

variable (s)

theorem announced_placeEdge (net : Nat) (e : Stamp) : Announced ev irq s (s.placeEdge net e) :=
  ⟨fun _ _ _ => rfl, rfl, rfl, fun _ => rfl⟩

theorem announced_pulseNet (net w : Nat) : Announced ev irq s (s.pulseNet net w) :=
  ⟨fun _ _ _ => rfl, rfl, rfl, fun _ => rfl⟩

theorem State.mem_hwPost (src : HalSrc) (flow prio kind arg0 arg1 : Nat) :
    (s.hwPost src flow prio kind arg0 arg1).mem = s.mem := by
  simp only [State.hwPost]
  split
  · rfl
  · split
    · exact State.incFld_mem _ _
    · split <;> rfl

theorem announced_hwPost (h : ev = true) (src : HalSrc) (flow prio kind arg0 arg1 : Nat) :
    Announced ev irq s (s.hwPost src flow prio kind arg0 arg1) :=
  ⟨fun a ha _ => s.reg_hwPost_ne _ _ _ _ _ _ a (ha h), (near_hwPost s _ _ _ _ _ _).time, s.mem_hwPost _ _ _ _ _ _,
    fun hh => by simp [h] at hh⟩

/-- An interrupt cause writes the registers and the host side alone. -/
theorem State.cause_eq (v : Nat) : s.cause v = { s with regs := (s.cause v).regs, host := (s.cause v).host } := by
  simp only [State.cause]
  split
  · rfl
  · split
    · rfl
    · split <;> rfl

theorem announced_cause (h : irq = true) (v : Nat) : Announced ev irq s (s.cause v) :=
  ⟨fun a _ ha => s.reg_cause_ne v a (ha h), (near_cause s v).time, (congrArg State.mem (s.cause_eq v) :),
    fun _ => (congrArg State.hal (s.cause_eq v) :)⟩

end Sys2Proof.Machine
end

section
/-! Timers: a write of the control register, a firing, a write of the target (R41 to R44). -/

namespace Sys2Proof.Machine

/-! ### The timers' registers -/

theorem tmrReg_ne (n : Nat) : CT_TMR_CTL n ≠ CT_TMR_STAT n ∧ CT_TMR_CTL n ≠ CT_TMR_TGT n ∧ CT_TMR_PER n ≠ CT_TMR_STAT n ∧
    CT_TMR_TGT n ≠ CT_TMR_STAT n ∧ CT_TMR_STAT n ≠ CT_TMR_TGT n := by
  simp only [CT_TMR_CTL, CT_TMR_STAT, CT_TMR_TGT, CT_TMR_PER]
  omega

theorem tmrReg_ct (n : Nat) (hn : n < 16) :
    (0x10000 ≤ CT_TMR_CTL n ∧ CT_TMR_CTL n < 0x20000) ∧ (0x10000 ≤ CT_TMR_STAT n ∧ CT_TMR_STAT n < 0x20000) ∧
    (0x10000 ≤ CT_TMR_TGT n ∧ CT_TMR_TGT n < 0x20000) ∧ (0x10000 ≤ CT_TMR_PER n ∧ CT_TMR_PER n < 0x20000) := by
  simp only [CT_TMR_CTL, CT_TMR_STAT, CT_TMR_TGT, CT_TMR_PER]
  omega

theorem rwFld_tmrEn : ∀ n : Fin 16, rwFld (CT_TMR_CTL_EN n) = true := by decide

variable (s : State)

/-! ### The parts of a firing (R41, R43, R44) -/

/-- FIRED is set; with FIRED already set OVER counts. -/
def State.countFiring (n : Nat) : State :=
  (if s.flag (CT_TMR_STAT_FIRED n) then s.incFld (CT_TMR_STAT_OVER n) else s).setFld (CT_TMR_STAT_FIRED n) 1

/-- The net pulse, the halyard event and the interrupt of a firing at `tgt`. -/
def State.announceFiring (n tgt : Nat) : State :=
  let s := if s.flag (CT_TMR_CTL_NETEN n) then
    s.pulseNet (s.fld (CT_TMR_CTL_NET n)) (max 1 (s.fld (CT_TMR_CTL_WIDTH n))) else s
  let s := if s.flag (CT_TMR_CTL_HAL n) then
    s.hwPost (.tmr n) (s.fld (HAL_CTSRC_FLOW n)) (s.fld (HAL_CTSRC_PRIO n)) 2 n tgt else s
  if s.flag (CT_TMR_CTL_IRQ n) then s.cause (16 + n) else s

/-- The disarming of a one-shot timer, or the next target of a periodic one. -/
def State.nextTarget (n tgt per : Nat) : State :=
  if per = 0 then s.setTmr n ⟨false, none, none⟩
  else (s.setReg (CT_TMR_TGT n) (BitVec.ofNat 32 (tgt + per))).setTmr n ⟨true, none, none⟩

/-- The pin edge of a firing. -/
def State.placeFiring (n : Nat) : State :=
  if s.fineOn n then s.placeEdge (s.fld (CT_TMR_CTL_NET n)) (s.fineEdge n) else s

theorem State.fireTimer_eq (n : Nat) :
    s.fireTimer n = (((s.placeFiring n).countFiring n).announceFiring n (s.reg (CT_TMR_TGT n)).toNat).nextTarget n
      (s.reg (CT_TMR_TGT n)).toNat (timerPer (s.reg (CT_TMR_PER n)).toNat) := rfl

theorem announced_placeFiring (n : Nat) : Announced false false s (s.placeFiring n) :=
  Announced.ite fun _ => announced_placeEdge s _ _

theorem announced_announceFiring (n tgt : Nat) (hn : n < 16) :
    Announced (s.flag (CT_TMR_CTL_HAL n)) (s.flag (CT_TMR_CTL_IRQ n)) s (s.announceFiring n tgt) ∧
      (s.flag (CT_TMR_CTL_IRQ n) = true → ((s.announceFiring n tgt).reg GLB_HIRQ_STAT).getLsbD (16 + n) = true) := by
  have hctl := (tmrReg_ct n hn).1
  let p := if s.flag (CT_TMR_CTL_NETEN n) then
    s.pulseNet (s.fld (CT_TMR_CTL_NET n)) (max 1 (s.fld (CT_TMR_CTL_WIDTH n))) else s
  let q := if p.flag (CT_TMR_CTL_HAL n) then
    p.hwPost (.tmr n) (p.fld (HAL_CTSRC_FLOW n)) (p.fld (HAL_CTSRC_PRIO n)) 2 n tgt else p
  have hp : Announced (s.flag (CT_TMR_CTL_HAL n)) (s.flag (CT_TMR_CTL_IRQ n)) s p := Announced.ite fun _ => announced_pulseNet s _ _
  have hhal : p.flag (CT_TMR_CTL_HAL n) = s.flag (CT_TMR_CTL_HAL n) := hp.ctFlag hctl
  have hq : Announced (s.flag (CT_TMR_CTL_HAL n)) (s.flag (CT_TMR_CTL_IRQ n)) s q :=
    hp.trans (Announced.ite fun hc => announced_hwPost p (hhal ▸ hc) _ _ _ _ _ _)
  have hirq : q.flag (CT_TMR_CTL_IRQ n) = s.flag (CT_TMR_CTL_IRQ n) := hq.ctFlag hctl
  have ht : s.announceFiring n tgt = if q.flag (CT_TMR_CTL_IRQ n) then q.cause (16 + n) else q := rfl
  rw [ht]
  refine ⟨hq.trans (Announced.ite fun hc => announced_cause q (hirq ▸ hc) _), fun h => ?_⟩
  rw [if_pos (hirq.trans h)]
  exact q.cause_sets _ (by omega)

theorem State.reg_countFiring_ne (n a : Nat) (h : a ≠ CT_TMR_STAT n) : (s.countFiring n).reg a = s.reg a := by
  refine (State.reg_setFld_ne _ (CT_TMR_STAT_FIRED n) 1 a h).trans ?_
  split
  · exact s.reg_setFld_ne (CT_TMR_STAT_OVER n) _ a h
  · rfl

theorem State.fld_countFiring_fired (n : Nat) : (s.countFiring n).fld (CT_TMR_STAT_FIRED n) = 1 :=
  State.fld_setFld_one _ _ (by simp [CT_TMR_STAT_FIRED]) rfl

/-- OVER counts up to 255 the firings that meet FIRED set. -/
theorem State.fld_countFiring_over (n : Nat) : (s.countFiring n).fld (CT_TMR_STAT_OVER n) =
    if s.fld (CT_TMR_STAT_FIRED n) = 1 then min 255 (s.fld (CT_TMR_STAT_OVER n) + 1) else s.fld (CT_TMR_STAT_OVER n) := by
  rw [State.countFiring, State.fld_setFld_ne _ _ _ _ (by simp [CT_TMR_STAT_FIRED])
    (.inr (.inl (by simp [CT_TMR_STAT_FIRED, CT_TMR_STAT_OVER])))]
  by_cases hf : s.fld (CT_TMR_STAT_FIRED n) = 1
  · rw [if_pos hf, if_pos (s.flag_of_fld_one _ hf), State.incFld, State.fld_setFld _ _ _ (by simp [CT_TMR_STAT_OVER])]
    simp only [satInc, CT_TMR_STAT_OVER]
    omega
  · rw [if_neg hf, if_neg (fun h => hf ((s.flag_iff_one _ rfl).1 h))]

theorem State.countFiring_rest (n : Nat) :
    (s.countFiring n).mem = s.mem ∧ (s.countFiring n).hal = s.hal ∧ (s.countFiring n).time = s.time := by
  unfold State.countFiring
  split <;> simp [State.incFld]

/-! ### A firing -/

/-- What a firing does: `s` fires timer `n` and is `t` then. -/
structure Fired (n : Nat) (s t : State) : Prop where
  fired : t.fld (CT_TMR_STAT_FIRED n) = 1
  overruns : t.fld (CT_TMR_STAT_OVER n) =
    if s.fld (CT_TMR_STAT_FIRED n) = 1 then min 255 (s.fld (CT_TMR_STAT_OVER n) + 1) else s.fld (CT_TMR_STAT_OVER n)
  oneShot : (s.reg (CT_TMR_PER n)).toNat = 0 → (t.tmr n).armed = false ∧ t.reg (CT_TMR_TGT n) = s.reg (CT_TMR_TGT n)
  periodic : (s.reg (CT_TMR_PER n)).toNat ≠ 0 → (t.tmr n).armed = true ∧
    t.reg (CT_TMR_TGT n) = s.reg (CT_TMR_TGT n) + BitVec.ofNat 32 (max 100 (s.reg (CT_TMR_PER n)).toNat)
  irq : s.fld (CT_TMR_CTL_IRQ n) = 1 → (t.reg GLB_HIRQ_STAT).getLsbD (16 + n) = true
  reg : ∀ a, a ≠ CT_TMR_TGT n → a ≠ CT_TMR_STAT n → (s.flag (CT_TMR_CTL_HAL n) = true → a ≠ HAL_CNT) →
    (s.flag (CT_TMR_CTL_IRQ n) = true → a ≠ GLB_HIRQ_STAT) → t.reg a = s.reg a
  others : ∀ m, m ≠ n → t.tmr m = s.tmr m
  mem : t.mem = s.mem
  hal : s.fld (CT_TMR_CTL_HAL n) = 0 → t.hal = s.hal

/-- The next target writes the target alone, and nothing in one-shot mode. -/
theorem State.reg_nextTarget_ne (n tgt per a : Nat) (h : a ≠ CT_TMR_TGT n) : (s.nextTarget n tgt per).reg a = s.reg a := by
  unfold State.nextTarget
  split
  · rfl
  · exact s.reg_setReg_ne _ _ _ h

theorem State.nextTarget_rest (n tgt per : Nat) :
    (∀ m, m ≠ n → (s.nextTarget n tgt per).tmr m = s.tmr m) ∧ (s.nextTarget n tgt per).mem = s.mem ∧
      (s.nextTarget n tgt per).hal = s.hal := by
  unfold State.nextTarget
  split
  · exact ⟨fun m hm => s.tmr_setTmr_ne n m _ hm, rfl, rfl⟩
  · exact ⟨fun m hm => State.tmr_setTmr_ne _ n m _ hm, rfl, rfl⟩

theorem State.nextTarget_periodic (n tgt per : Nat) (h : per ≠ 0) :
    s.nextTarget n tgt per = (s.setReg (CT_TMR_TGT n) (BitVec.ofNat 32 (tgt + per))).setTmr n ⟨true, none, none⟩ := if_neg h

theorem timerPer_periodic (p : Nat) (h : p ≠ 0) : timerPer p = max 100 p := by
  rw [timerPer, if_neg h, Nat.max_comm]

/-- The state that a firing reaches before its next target: `c` with the status counted, `f` with all announced. -/
theorem State.fireTimer_parts (n : Nat) (hn : n < 16) : ∃ c f : State,
    s.fireTimer n = f.nextTarget n (s.reg (CT_TMR_TGT n)).toNat (timerPer (s.reg (CT_TMR_PER n)).toNat) ∧
    c.fld (CT_TMR_STAT_FIRED n) = 1 ∧
    c.fld (CT_TMR_STAT_OVER n) =
      (if s.fld (CT_TMR_STAT_FIRED n) = 1 then min 255 (s.fld (CT_TMR_STAT_OVER n) + 1) else s.fld (CT_TMR_STAT_OVER n)) ∧
    (∀ a, a ≠ CT_TMR_STAT n → c.reg a = s.reg a) ∧ (c.mem = s.mem ∧ c.hal = s.hal ∧ c.time = s.time) ∧
    Announced (s.flag (CT_TMR_CTL_HAL n)) (s.flag (CT_TMR_CTL_IRQ n)) c f ∧
    (s.flag (CT_TMR_CTL_IRQ n) = true → (f.reg GLB_HIRQ_STAT).getLsbD (16 + n) = true) := by
  have hplace := announced_placeFiring s n
  let c := (s.placeFiring n).countFiring n
  have hstat {f : Fld} (hf : f.addr = CT_TMR_STAT n) : (s.placeFiring n).fld f = s.fld f :=
    hplace.ctFld (hf ▸ (tmrReg_ct n hn).2.1)
  have hover := (s.placeFiring n).fld_countFiring_over n
  rw [hstat rfl, hstat rfl] at hover
  have hreg (a : Nat) (ha : a ≠ CT_TMR_STAT n) : c.reg a = s.reg a :=
    ((s.placeFiring n).reg_countFiring_ne n a ha).trans (hplace.reg a nofun nofun)
  have hctl {f : Fld} (hf : f.addr = CT_TMR_CTL n) : c.flag f = s.flag f :=
    State.flag_of_fld s c f (State.fld_of_reg s c f (hreg _ (hf ▸ (tmrReg_ne n).1)))
  obtain ⟨hmem, hhal, htime⟩ := (s.placeFiring n).countFiring_rest n
  obtain ⟨hann, hirq⟩ := announced_announceFiring c n (s.reg (CT_TMR_TGT n)).toNat hn
  rw [hctl rfl, hctl rfl] at hann
  rw [hctl rfl] at hirq
  exact ⟨c, _, s.fireTimer_eq n, State.fld_countFiring_fired _ n, hover, hreg,
    ⟨hmem.trans hplace.mem, hhal.trans (hplace.hal rfl), htime.trans hplace.time⟩, hann, hirq⟩

theorem State.fireTimer_fired (n : Nat) (hn : n < 16) : Fired n s (s.fireTimer n) := by
  obtain ⟨c, f, ht, hfired, hover, hreg, ⟨hmem, hhal, htime⟩, hann, hirq⟩ := s.fireTimer_parts n hn
  obtain ⟨-, hctStat, hctTgt, -⟩ := tmrReg_ct n hn
  obtain ⟨-, -, -, htgtStat, hstatTgt⟩ := tmrReg_ne n
  have hstat {g : Fld} (hg : g.addr = CT_TMR_STAT n) : (s.fireTimer n).fld g = c.fld g := by
    rw [ht]
    exact (State.fld_of_reg f _ g (f.reg_nextTarget_ne n _ _ _ (hg ▸ hstatTgt))).trans (hann.ctFld (hg ▸ hctStat))
  have htgt : f.reg (CT_TMR_TGT n) = s.reg (CT_TMR_TGT n) := (hann.ctReg hctTgt).trans (hreg _ htgtStat)
  obtain ⟨hothers, hnmem, hnhal⟩ := f.nextTarget_rest n (s.reg (CT_TMR_TGT n)).toNat (timerPer (s.reg (CT_TMR_PER n)).toNat)
  refine ⟨(hstat rfl).trans hfired, (hstat rfl).trans hover, fun hp => ?_, fun hp => ?_, fun hi => ?_,
    fun a ha hb hh hq => ?_, fun m hm => ?_, ?_, fun hh => ?_⟩
  · rw [ht, hp]
    exact ⟨congrArg Timer.armed (f.tmr_setTmr n _), htgt⟩
  · rw [ht, timerPer_periodic _ hp, f.nextTarget_periodic _ _ _ (by omega)]
    refine ⟨congrArg Timer.armed (State.tmr_setTmr _ n _), (f.reg_setReg _ _).trans ?_⟩
    rw [BitVec.ofNat_add, BitVec.ofNat_toNat, BitVec.setWidth_eq]
  · rw [ht, f.reg_nextTarget_ne n _ _ _ (by simp only [GLB_HIRQ_STAT, CT_TMR_TGT]; omega)]
    exact hirq (s.flag_of_fld_one _ hi)
  · rw [ht, f.reg_nextTarget_ne n _ _ a ha, hann.reg a hh hq, hreg a hb]
  · rw [ht, hothers m hm]
    exact State.tmr_of_time s f (hann.time.trans htime) m
  · rw [ht, hnmem, hann.mem, hmem]
  · rw [ht, hnhal, hann.hal (s.flag_of_fld_zero _ hh), hhal]

/-- A firing keeps the control register. -/
theorem Fired.ctl {n : Nat} {s t : State} (h : Fired n s t) (hn : n < 16) : t.reg (CT_TMR_CTL n) = s.reg (CT_TMR_CTL n) := by
  obtain ⟨hstat, htgt, -⟩ := tmrReg_ne n
  exact h.reg _ htgt hstat (fun _ => by simp only [CT_TMR_CTL, HAL_CNT]; omega)
    (fun _ => by simp only [CT_TMR_CTL, GLB_HIRQ_STAT]; omega)

/-! ### A write of the control register (R41) -/

/-- A write of the control register takes the written EN, arms or disarms by it, and leaves the rest. -/
theorem State.writeTmrCtl_spec (i : Initiator) (n : Fin 16) (v : Word) :
    let t := s.writeTmrCtl i n v
    (t.tmr n).armed = v.getLsbD 0 ∧ t.fld (CT_TMR_CTL_EN n) = v.toNat % 2 ∧
      (∀ a, a ≠ CT_TMR_CTL n → t.reg a = s.reg a) ∧ (∀ m, m ≠ n.val → t.tmr m = s.tmr m) ∧ t.mem = s.mem := by
  intro t
  let u := s.plainWrite i (CT_TMR_CTL n) v
  have hen := s.fld_plainWrite_rwFld i (CT_TMR_CTL_EN n) v (rwFld_tmrEn n) (by simp [CT_TMR_CTL_EN])
  obtain ⟨w, hw⟩ := s.plainWrite_rwFld i (CT_TMR_CTL_EN n) v (rwFld_tmrEn n)
  have hu : u = s.setReg (CT_TMR_CTL n) w := hw
  refine ⟨?_, hen.trans (bits_bit_zero v), fun a ha => ?_, fun m hm => ?_, ?_⟩
  · have harmed : (t.tmr n).armed = u.flag (CT_TMR_CTL_EN n) := congrArg Timer.armed (u.tmr_setTmr n _)
    exact harmed.trans (u.flag_of_bit_zero _ v hen)
  · exact (congrArg (fun x => x.reg a) hu).trans (s.reg_setReg_ne _ _ _ ha)
  · exact (u.tmr_setTmr_ne n m _ hm).trans (congrArg (fun x => x.tmr m) hu)
  · exact (congrArg State.mem hu :)

/-! ### A write of the target (R42) -/

/-- The new target, armed for where EN is 1. -/
def State.retarget (n : Nat) (v : Word) : State :=
  let s := s.setReg (CT_TMR_TGT n) v
  if s.flag (CT_TMR_CTL_EN n) then s.setTmr n ⟨true, s.tmrLate v.toNat, none⟩ else s

theorem State.writeTmrTgt_eq (n : Nat) (v : Word) : s.writeTmrTgt n v =
    (if (s.tmr n).armed && reached (s.reg (CT_TMR_TGT n)).toNat s.now then s.fireTimer n else s).retarget n v := rfl

theorem State.retarget_frame (n : Nat) (v : Word) : (s.retarget n v).reg (CT_TMR_TGT n) = v ∧
    (∀ a, a ≠ CT_TMR_TGT n → (s.retarget n v).reg a = s.reg a) ∧ (∀ m, m ≠ n → (s.retarget n v).tmr m = s.tmr m) ∧
    (s.retarget n v).mem = s.mem := by
  simp only [State.retarget]
  split
  · exact ⟨s.reg_setReg _ _, fun a ha => s.reg_setReg_ne _ _ _ ha, fun m hm => State.tmr_setTmr_ne _ n m _ hm, rfl⟩
  · exact ⟨s.reg_setReg _ _, fun a ha => s.reg_setReg_ne _ _ _ ha, fun m _ => rfl, rfl⟩

theorem State.flag_retargeted_en (n : Nat) (v : Word) :
    (s.setReg (CT_TMR_TGT n) v).flag (CT_TMR_CTL_EN n) = s.flag (CT_TMR_CTL_EN n) :=
  State.flag_of_fld s _ _ (s.fld_setReg_ne (CT_TMR_TGT n) v (CT_TMR_CTL_EN n) (tmrReg_ne n).2.1)

/-- With EN 1 the new target arms the timer. -/
theorem State.retarget_enabled (n : Nat) (v : Word) (h : s.fld (CT_TMR_CTL_EN n) = 1) :
    ((s.retarget n v).tmr n).armed = true := by
  rw [State.retarget, if_pos ((s.flag_retargeted_en n v).trans (s.flag_of_fld_one _ h))]
  exact congrArg Timer.armed (State.tmr_setTmr _ n _)

/-- With EN 0 it arms nothing. -/
theorem State.retarget_disabled (n : Nat) (v : Word) (h : s.fld (CT_TMR_CTL_EN n) = 0) :
    (s.retarget n v).tmr n = s.tmr n := by
  have hoff : ¬ (s.setReg (CT_TMR_TGT n) v).flag (CT_TMR_CTL_EN n) = true := by
    rw [s.flag_retargeted_en n v, s.flag_of_fld_zero _ h]
    exact Bool.false_ne_true
  rw [State.retarget, if_neg hoff]
  rfl

/-- A target written to a timer whose old one is reached: it fires for the old one first. -/
theorem State.writeTmrTgt_due (n : Nat) (v : Word) (h : ((s.tmr n).armed && reached (s.reg (CT_TMR_TGT n)).toNat s.now) = true) :
    s.writeTmrTgt n v = (s.fireTimer n).retarget n v := by
  rw [s.writeTmrTgt_eq n v, if_pos h]

theorem State.writeTmrTgt_notDue (n : Nat) (v : Word)
    (h : ((s.tmr n).armed && reached (s.reg (CT_TMR_TGT n)).toNat s.now) = false) : s.writeTmrTgt n v = s.retarget n v := by
  rw [s.writeTmrTgt_eq n v, if_neg (by simp [h])]

/-- What a write of the target does, whether or not the old target is due. -/
theorem State.writeTmrTgt_spec (n : Nat) (hn : n < 16) (v : Word) :
    let t := s.writeTmrTgt n v
    t.reg (CT_TMR_TGT n) = v ∧ (∀ m, m ≠ n → t.tmr m = s.tmr m) ∧ t.mem = s.mem ∧
      (s.fld (CT_TMR_CTL_EN n) = 1 → (t.tmr n).armed = true) ∧
      (((s.tmr n).armed && reached (s.reg (CT_TMR_TGT n)).toNat s.now) = true → t.fld (CT_TMR_STAT_FIRED n) = 1) ∧
      (((s.tmr n).armed && reached (s.reg (CT_TMR_TGT n)).toNat s.now) = false →
        (s.fld (CT_TMR_CTL_EN n) = 0 → t.tmr n = s.tmr n) ∧ (∀ a, a ≠ CT_TMR_TGT n → t.reg a = s.reg a)) := by
  intro t
  cases hdue : (s.tmr n).armed && reached (s.reg (CT_TMR_TGT n)).toNat s.now with
  | true =>
    have ht : t = (s.fireTimer n).retarget n v := s.writeTmrTgt_due n v hdue
    have hf := s.fireTimer_fired n hn
    have hen : (s.fireTimer n).fld (CT_TMR_CTL_EN n) = s.fld (CT_TMR_CTL_EN n) := State.fld_of_reg s _ _ (hf.ctl hn)
    obtain ⟨htgt, hreg, hothers, hmem⟩ := (s.fireTimer n).retarget_frame n v
    rw [ht]
    refine ⟨htgt, fun m hm => (hothers m hm).trans (hf.others m hm), hmem.trans hf.mem,
      fun h => State.retarget_enabled _ n v (hen.trans h), fun _ => ?_, nofun⟩
    exact (State.fld_of_reg (s.fireTimer n) _ (CT_TMR_STAT_FIRED n) (hreg _ (tmrReg_ne n).2.2.2.2)).trans hf.fired
  | false =>
    have ht : t = s.retarget n v := s.writeTmrTgt_notDue n v hdue
    obtain ⟨htgt, hreg, hothers, hmem⟩ := s.retarget_frame n v
    rw [ht]
    exact ⟨htgt, hothers, hmem, s.retarget_enabled n v, nofun, fun _ => ⟨s.retarget_disabled n v, hreg⟩⟩

/-! ### TIMER_FIRE (R41) -/

/-- An armed timer whose target is reached fires under way. -/
theorem State.timerFire_due (n : Fin 16) (hu : s.underWay = true) (ha : (s.tmr n).armed = true)
    (hr : reached (s.reg (CT_TMR_TGT n)).toNat s.now = true) : exec (.timerFire n) s = .next (s.fireTimer n) :=
  congrArg Host.Outcome.next (if_pos (by simp [hu, ha, hr]))

/-- No other does. -/
theorem State.timerFire_notDue (n : Fin 16)
    (h : (s.tmr n).armed = false ∨ reached (s.reg (CT_TMR_TGT n)).toNat s.now = false) : exec (.timerFire n) s = .next s :=
  congrArg Host.Outcome.next (if_neg (by rcases h with h | h <;> simp [h]))

end Sys2Proof.Machine
end

section
/-! Windows: a write of the control register, opening, closing (R45, R46). -/

namespace Sys2Proof.Machine

/-! ### The windows' registers -/

theorem winReg_ne (n : Nat) : CT_WIN_OPEN n ≠ CT_WIN_CTL n ∧ CT_WIN_OPEN n ≠ CT_WIN_STAT n ∧ CT_WIN_CLOSE n ≠ CT_WIN_CTL n ∧
    CT_WIN_CLOSE n ≠ CT_WIN_STAT n ∧ CT_WIN_CTL n ≠ CT_WIN_STAT n ∧ CT_WIN_STAT n ≠ CT_WIN_CTL n ∧
    CT_WIN_STAT n ≠ CT_WIN_OPEN n ∧ CT_WIN_STAT n ≠ CT_WIN_CLOSE n ∧ CT_WIN_OPEN n ≠ CT_WIN_CLOSE n := by
  simp only [CT_WIN_OPEN, CT_WIN_CLOSE, CT_WIN_CTL, CT_WIN_STAT]
  omega

theorem winReg_ct (n : Nat) (hn : n < 8) :
    (0x10000 ≤ CT_WIN_OPEN n ∧ CT_WIN_OPEN n < 0x20000) ∧ (0x10000 ≤ CT_WIN_CLOSE n ∧ CT_WIN_CLOSE n < 0x20000) ∧
    (0x10000 ≤ CT_WIN_CTL n ∧ CT_WIN_CTL n < 0x20000) ∧ (0x10000 ≤ CT_WIN_STAT n ∧ CT_WIN_STAT n < 0x20000) := by
  simp only [CT_WIN_OPEN, CT_WIN_CLOSE, CT_WIN_CTL, CT_WIN_STAT]
  omega

theorem rwFld_winEn : ∀ n : Fin 8, rwFld (CT_WIN_CTL_EN n) = true := by decide
theorem rwFld_winPer : ∀ n : Fin 8, rwFld (CT_WIN_CTL_PER n) = true := by decide

variable {n : Nat} {s t u : State}

/-- What every write of a window's control register leaves alone. -/
structure WinFrame (n : Nat) (s t : State) : Prop where
  reg : ∀ a, a ≠ CT_WIN_CTL n → a ≠ CT_WIN_STAT n → t.reg a = s.reg a
  others : ∀ m, m ≠ n → t.win m = s.win m
  mem : t.mem = s.mem
  hal : t.hal = s.hal
  now : t.now = s.now

theorem WinFrame.refl : WinFrame n s s := ⟨fun _ _ _ => rfl, fun _ _ => rfl, rfl, rfl, rfl⟩

theorem WinFrame.trans (h : WinFrame n s t) (k : WinFrame n t u) : WinFrame n s u :=
  ⟨fun a ha hb => (k.reg a ha hb).trans (h.reg a ha hb), fun m hm => (k.others m hm).trans (h.others m hm),
    k.mem.trans h.mem, k.hal.trans h.hal, k.now.trans h.now⟩

theorem WinFrame.winLen (h : WinFrame n s t) : t.winLen n = s.winLen n := by
  obtain ⟨hoc, hos, hcc, hcs, -⟩ := winReg_ne n
  rw [State.winLen, State.winLen, h.reg _ hoc hos, h.reg _ hcc hcs]

variable (s)

theorem winFrame_setWin (x : Window) : WinFrame n s (s.setWin n x) :=
  ⟨fun _ _ _ => rfl, fun m hm => s.win_setWin_ne n m x hm, rfl, rfl, rfl⟩

theorem winFrame_setStat (f : Fld) (v : Nat) (hf : f.addr = CT_WIN_STAT n) : WinFrame n s (s.setFld f v) :=
  ⟨fun a _ ha => s.reg_setFld_ne f v a (hf ▸ ha), fun _ _ => rfl, rfl, rfl, rfl⟩

theorem winFrame_setCtl (w : Word) : WinFrame n s (s.setReg (CT_WIN_CTL n) w) :=
  ⟨fun a ha _ => s.reg_setReg_ne _ a w ha, fun _ _ => rfl, rfl, rfl, rfl⟩

/-! ### The write of the control register before the window is armed (R45) -/

/-- The quiet closing leaves the window closed and disarmed. -/
theorem State.quietClose_spec (n : Nat) :
    WinFrame n s (s.quietClose n) ∧ (s.quietClose n).fld (CT_WIN_STAT_ACTIVE n) = 0 ∧ ((s.quietClose n).win n).armed = false := by
  simp only [State.quietClose]
  split
  · exact ⟨(winFrame_setStat s (CT_WIN_STAT_ACTIVE n) 0 rfl).trans (winFrame_setWin _ _),
      s.fld_setFld_zero (CT_WIN_STAT_ACTIVE n) (by simp [CT_WIN_STAT_ACTIVE]), congrArg Window.armed (State.win_setWin _ n _)⟩
  · next h =>
    exact ⟨winFrame_setWin s _, (s.flag_eq_false_iff _).1 (Bool.eq_false_iff.2 h), congrArg Window.armed (s.win_setWin n _)⟩

/-- The state `u` in which a write of `v` to the control register of window `n` decides on the arming. -/
structure WinWritten (n : Nat) (v : Word) (s u : State) : Prop where
  frame : WinFrame n s u
  active : u.fld (CT_WIN_STAT_ACTIVE n) = 0
  disarmed : (u.win n).armed = false
  en : u.flag (CT_WIN_CTL_EN n) = v.getLsbD 0
  per : u.fld (CT_WIN_CTL_PER n) = v.toNat / 2 ^ 13

theorem bits_winPer (v : Word) : bits v.toNat 13 19 = v.toNat / 2 ^ 13 := by
  have hv := v.isLt
  rw [bits, Nat.shiftRight_eq_div_pow]
  omega

theorem State.winWritten (i : Initiator) (n : Fin 8) (v : Word) :
    WinWritten n v s ((s.quietClose n).plainWrite i (CT_WIN_CTL n) v) := by
  obtain ⟨hframe, hactive, hdis⟩ := s.quietClose_spec n
  obtain ⟨w, hw⟩ := (s.quietClose n).plainWrite_rwFld i (CT_WIN_CTL_EN n) v (rwFld_winEn n)
  have hen := (s.quietClose n).fld_plainWrite_rwFld i (CT_WIN_CTL_EN n) v (rwFld_winEn n) (by simp [CT_WIN_CTL_EN])
  have hper := (s.quietClose n).fld_plainWrite_rwFld i (CT_WIN_CTL_PER n) v (rwFld_winPer n) (by simp [CT_WIN_CTL_PER])
  have hu : (s.quietClose n).plainWrite i (CT_WIN_CTL n) v = (s.quietClose n).setReg (CT_WIN_CTL n) w := hw
  refine ⟨?_, ?_, ?_, ?_, hper.trans (bits_winPer v)⟩
  · rw [hu]
    exact hframe.trans (winFrame_setCtl _ w)
  · rw [hu, State.fld_setReg_ne _ _ _ (CT_WIN_STAT_ACTIVE n) (winReg_ne n).2.2.2.2.2.1, hactive]
  · rw [hu]
    exact hdis
  · exact State.flag_of_bit_zero _ _ v hen

/-! ### Arming (R45, R46) -/

/-- The arming that a write of the control register ends in. -/
def State.armWin (n : Nat) : State :=
  if s.flag (CT_WIN_CTL_EN n) then
    if s.winLen n ≤ 0 then (s.setFld (CT_WIN_STAT_EMPTY n) 1).winDead n
    else if reached (s.reg (CT_WIN_CLOSE n)).toNat s.now then (s.setFld (CT_WIN_STAT_MISSED n) 1).winDead n
    else if s.winPerBad n then (s.setFld (CT_WIN_STAT_EMPTY n) 1).winDead n
    else s.setWin n { s.win n with
      armed := true, occ := true, occOpen := s.reg (CT_WIN_OPEN n), occClose := s.reg (CT_WIN_CLOSE n) }
  else s

theorem State.writeWinCtl_eq (i : Initiator) (n : Nat) (v : Word) :
    s.writeWinCtl i n v = ((s.quietClose n).plainWrite i (CT_WIN_CTL n) v).armWin n := rfl

theorem State.armed_winDead (n : Nat) : ((s.winDead n).win n).armed = (s.win n).armed := by
  rw [State.winDead, State.win_setWin]

/-- What a refused arming does: it sets a status bit beside ACTIVE and leaves the window disarmed. -/
structure WinRefused (n : Nat) (f : Fld) (s t : State) : Prop where
  frame : WinFrame n s t
  set : t.fld f = 1
  active : t.fld (CT_WIN_STAT_ACTIVE n) = s.fld (CT_WIN_STAT_ACTIVE n)
  armed : (t.win n).armed = (s.win n).armed

theorem winRefused (f : Fld) (ha : f.addr = CT_WIN_STAT n) (hlo : 1 ≤ f.lo) (hf : f.lo + f.width ≤ 32) (hw : f.width = 1) :
    WinRefused n f s ((s.setFld f 1).winDead n) where
  frame := (winFrame_setStat s f 1 ha).trans (winFrame_setWin _ _)
  set := s.fld_setFld_one f hf hw
  active := s.fld_setFld_ne f (CT_WIN_STAT_ACTIVE n) 1 hf (.inr (.inr (by simpa [CT_WIN_STAT_ACTIVE] using hlo)))
  armed := (s.setFld f 1).armed_winDead n

theorem winRefused_empty (n : Nat) : WinRefused n (CT_WIN_STAT_EMPTY n) s ((s.setFld (CT_WIN_STAT_EMPTY n) 1).winDead n) :=
  winRefused s _ rfl (by simp [CT_WIN_STAT_EMPTY]) (by simp [CT_WIN_STAT_EMPTY]) rfl

theorem winRefused_missed (n : Nat) : WinRefused n (CT_WIN_STAT_MISSED n) s ((s.setFld (CT_WIN_STAT_MISSED n) 1).winDead n) :=
  winRefused s _ rfl (by simp [CT_WIN_STAT_MISSED]) (by simp [CT_WIN_STAT_MISSED]) rfl

/-- Armed or not, the write leaves the rest, and ACTIVE. -/
theorem State.armWin_frame (n : Nat) :
    WinFrame n s (s.armWin n) ∧ (s.armWin n).fld (CT_WIN_STAT_ACTIVE n) = s.fld (CT_WIN_STAT_ACTIVE n) := by
  have hempty := winRefused_empty s n
  have hmissed := winRefused_missed s n
  unfold State.armWin
  split
  · split
    · exact ⟨hempty.frame, hempty.active⟩
    · split
      · exact ⟨hmissed.frame, hmissed.active⟩
      · split
        · exact ⟨hempty.frame, hempty.active⟩
        · exact ⟨winFrame_setWin s _, rfl⟩
  · exact ⟨WinFrame.refl, rfl⟩

/-- The test of the period (R46). -/
theorem State.winPerBad_iff (n : Nat) : s.winPerBad n = true ↔
    s.fld (CT_WIN_CTL_PER n) * 8 ≠ 0 ∧ ((s.fld (CT_WIN_CTL_PER n) * 8 : Nat) : Int) ≤ s.winLen n := by
  simp only [State.winPerBad, State.flag, Bool.and_eq_true, bne_iff_ne, decide_eq_true_eq]
  push_cast
  constructor <;> rintro ⟨h, hl⟩ <;> exact ⟨by omega, hl⟩

/-- The arming by its tests, in their order (R45, R46). -/
theorem State.armWin_cases (n : Nat) (hdis : (s.win n).armed = false) :
    let t := s.armWin n
    (s.flag (CT_WIN_CTL_EN n) = false → (t.win n).armed = false) ∧
    (s.flag (CT_WIN_CTL_EN n) = true →
      (s.winLen n ≤ 0 → (t.win n).armed = false ∧ t.fld (CT_WIN_STAT_EMPTY n) = 1) ∧
      (0 < s.winLen n → reached (s.reg (CT_WIN_CLOSE n)).toNat s.now = true →
        (t.win n).armed = false ∧ t.fld (CT_WIN_STAT_MISSED n) = 1) ∧
      (0 < s.winLen n → reached (s.reg (CT_WIN_CLOSE n)).toNat s.now = false → s.winPerBad n = true →
        (t.win n).armed = false ∧ t.fld (CT_WIN_STAT_EMPTY n) = 1) ∧
      (0 < s.winLen n → reached (s.reg (CT_WIN_CLOSE n)).toNat s.now = false → s.winPerBad n = false →
        t.win n = { s.win n with
          armed := true, occ := true, occOpen := s.reg (CT_WIN_OPEN n), occClose := s.reg (CT_WIN_CLOSE n) })) := by
  have hempty := winRefused_empty s n
  have hmissed := winRefused_missed s n
  refine ⟨fun hen => ?_, fun hen => ⟨fun hl => ?_, fun hl hr => ?_, fun hl hr hp => ?_, fun hl hr hp => ?_⟩⟩
  · simp only [State.armWin, hen]
    exact hdis
  · simp only [State.armWin, hen, hl, if_true]
    exact ⟨hempty.armed.trans hdis, hempty.set⟩
  · simp only [State.armWin, hen, Int.not_le.2 hl, hr, if_true, if_false]
    exact ⟨hmissed.armed.trans hdis, hmissed.set⟩
  · simp only [State.armWin, hen, Int.not_le.2 hl, hr, hp, if_true, if_false, Bool.false_eq_true]
    exact ⟨hempty.armed.trans hdis, hempty.set⟩
  · simp only [State.armWin, hen, Int.not_le.2 hl, hr, hp, if_true, if_false, Bool.false_eq_true]
    exact s.win_setWin n _

/-! ### Opening (R45) -/

/-- Whether a window opens now. -/
def State.winOpens (n : Nat) : Bool :=
  (s.win n).armed && !s.flag (CT_WIN_STAT_ACTIVE n) && reached (s.win n).occOpen.toNat s.now

/-- The halyard event of an opening. -/
def State.announceOpen (n arg1 : Nat) : State :=
  if s.flag (CT_WIN_CTL_HALOPEN n) then
    s.hwPost (.win n) (s.fld (HAL_CTSRC_FLOW (16 + n))) (s.fld (HAL_CTSRC_PRIO (16 + n))) 3 n arg1
  else s

theorem State.openWin_eq (n : Nat) : s.openWin n =
    if s.winOpens n then (s.setFld (CT_WIN_STAT_ACTIVE n) 1).announceOpen n (s.win n).occOpen.toNat else s := rfl

theorem announced_announceOpen (n arg1 : Nat) : Announced (s.flag (CT_WIN_CTL_HALOPEN n)) false s (s.announceOpen n arg1) :=
  Announced.ite fun hc => announced_hwPost s hc _ _ _ _ _ _

/-- The status of a window written leaves its control register's fields. -/
theorem State.flag_setStat (n : Nat) (f g : Fld) (v : Nat) (hf : f.addr = CT_WIN_STAT n) (hg : g.addr = CT_WIN_CTL n) :
    (s.setFld f v).flag g = s.flag g :=
  State.flag_of_fld s _ g (State.fld_of_reg s _ g (s.reg_setFld_ne f v _ (by rw [hf, hg]; exact (winReg_ne n).2.2.2.2.1)))

theorem State.openWin_opens (n : Nat) (hn : n < 8) (h : s.winOpens n = true) :
    let t := s.openWin n
    t.fld (CT_WIN_STAT_ACTIVE n) = 1 ∧ t.win n = s.win n ∧ t.mem = s.mem ∧
      (s.fld (CT_WIN_CTL_HALOPEN n) = 0 → t = s.setFld (CT_WIN_STAT_ACTIVE n) 1) := by
  intro t
  let u := s.setFld (CT_WIN_STAT_ACTIVE n) 1
  have ht : t = u.announceOpen n (s.win n).occOpen.toNat := (s.openWin_eq n).trans (if_pos h)
  have hann := announced_announceOpen u n (s.win n).occOpen.toNat
  rw [ht]
  refine ⟨?_, State.win_of_time s _ hann.time n, hann.mem, fun hoff => ?_⟩
  · rw [hann.ctFld (winReg_ct n hn).2.2.2]
    exact s.fld_setFld_one _ (by simp [CT_WIN_STAT_ACTIVE]) rfl
  · have hflag : u.flag (CT_WIN_CTL_HALOPEN n) = false :=
      (s.flag_setStat n (CT_WIN_STAT_ACTIVE n) _ 1 rfl rfl).trans (s.flag_of_fld_zero _ hoff)
    exact if_neg (by simp [hflag])

/-! ### Closing, and the advance of a periodic window (R45, R46) -/

/-- Whether a window closes now. -/
def State.winCloses (n : Nat) : Bool :=
  (s.win n).armed && s.flag (CT_WIN_STAT_ACTIVE n) && reached (s.win n).occClose.toNat s.now

/-- The halyard event of a closing. -/
def State.announceClose (n arg1 : Nat) : State :=
  if s.flag (CT_WIN_CTL_HALCLOSE n) then
    s.hwPost (.win n) (s.fld (HAL_CTSRC_FLOW (16 + n))) (s.fld (HAL_CTSRC_PRIO (16 + n))) 3 (n + 256) arg1
  else s

/-- The window `w` with its occurrence ended at its close. -/
def State.endedWin (w : Window) : Window :=
  { w with armed := false, occ := false, lastOcc := true, lastOpen := w.occOpen, lastClose := w.occClose, lastAt := s.nowNs }

/-- The end of an occurrence of window `w`: disarmed, stopped with EMPTY, or advanced by the period. -/
def State.advanceWin (n : Nat) (w : Window) : State :=
  let per := s.fld (CT_WIN_CTL_PER n) * 8
  if per = 0 then s.setWin n (s.endedWin w)
  else if s.winPerBad n then (s.setFld (CT_WIN_STAT_EMPTY n) 1).setWin n (s.endedWin w)
  else
    let o := s.reg (CT_WIN_OPEN n) + BitVec.ofNat 32 per
    let c := s.reg (CT_WIN_CLOSE n) + BitVec.ofNat 32 per
    ((s.setReg (CT_WIN_OPEN n) o).setReg (CT_WIN_CLOSE n) c).setWin n
      { s.endedWin w with armed := true, occ := true, occOpen := o, occClose := c }

theorem State.closeWin_eq (n : Nat) : s.closeWin n =
    if s.winCloses n then
      ((s.setFld (CT_WIN_STAT_ACTIVE n) 0).announceClose n (s.win n).occClose.toNat).advanceWin n (s.win n)
    else s := rfl

theorem announced_announceClose (n arg1 : Nat) : Announced (s.flag (CT_WIN_CTL_HALCLOSE n)) false s (s.announceClose n arg1) :=
  Announced.ite fun hc => announced_hwPost s hc _ _ _ _ _ _

/-- What the end of an occurrence leaves: ACTIVE, memory, halyard, every register but OPEN, CLOSE and STAT. -/
theorem State.advanceWin_frame (n : Nat) (w : Window) :
    let t := s.advanceWin n w
    t.fld (CT_WIN_STAT_ACTIVE n) = s.fld (CT_WIN_STAT_ACTIVE n) ∧ t.mem = s.mem ∧ t.hal = s.hal ∧
      (∀ a, a ≠ CT_WIN_STAT n → a ≠ CT_WIN_OPEN n → a ≠ CT_WIN_CLOSE n → t.reg a = s.reg a) := by
  obtain ⟨-, -, -, -, -, -, hso, hsc, -⟩ := winReg_ne n
  simp only [State.advanceWin]
  split
  · exact ⟨rfl, rfl, rfl, fun _ _ _ _ => rfl⟩
  · split
    · exact ⟨s.fld_setFld_ne (CT_WIN_STAT_EMPTY n) (CT_WIN_STAT_ACTIVE n) 1 (by simp [CT_WIN_STAT_EMPTY])
        (.inr (.inr (by simp [CT_WIN_STAT_ACTIVE, CT_WIN_STAT_EMPTY]))), rfl, rfl,
        fun a ha _ _ => s.reg_setFld_ne (CT_WIN_STAT_EMPTY n) 1 a ha⟩
    · refine ⟨?_, rfl, rfl, fun a _ ho hc => ?_⟩
      · exact (State.fld_setReg_ne _ (CT_WIN_CLOSE n) _ (CT_WIN_STAT_ACTIVE n) hsc).trans
          (s.fld_setReg_ne (CT_WIN_OPEN n) _ (CT_WIN_STAT_ACTIVE n) hso)
      · exact (State.reg_setReg_ne _ _ a _ hc).trans (s.reg_setReg_ne _ a _ ho)

/-- The three ends of an occurrence. -/
theorem State.advanceWin_cases (n : Nat) (w : Window) :
    let t := s.advanceWin n w
    let per := s.fld (CT_WIN_CTL_PER n) * 8
    (per = 0 → (t.win n).armed = false ∧ t.reg (CT_WIN_OPEN n) = s.reg (CT_WIN_OPEN n) ∧
      t.reg (CT_WIN_CLOSE n) = s.reg (CT_WIN_CLOSE n)) ∧
    (per ≠ 0 → s.winPerBad n = true → (t.win n).armed = false ∧ t.fld (CT_WIN_STAT_EMPTY n) = 1) ∧
    (per ≠ 0 → s.winPerBad n = false → (t.win n).armed = true ∧
      t.reg (CT_WIN_OPEN n) = s.reg (CT_WIN_OPEN n) + BitVec.ofNat 32 per ∧
      t.reg (CT_WIN_CLOSE n) = s.reg (CT_WIN_CLOSE n) + BitVec.ofNat 32 per ∧
      (t.win n).occOpen = t.reg (CT_WIN_OPEN n) ∧ (t.win n).occClose = t.reg (CT_WIN_CLOSE n)) := by
  obtain ⟨-, -, -, -, -, -, -, -, hoc⟩ := winReg_ne n
  refine ⟨fun hp => ?_, fun hp hb => ?_, fun hp hb => ?_⟩
  · simp only [State.advanceWin, hp, if_true]
    exact ⟨congrArg Window.armed (s.win_setWin n _), rfl, rfl⟩
  · simp only [State.advanceWin, hp, hb, if_true, if_false]
    exact ⟨congrArg Window.armed (State.win_setWin _ n _),
      s.fld_setFld_one (CT_WIN_STAT_EMPTY n) (by simp [CT_WIN_STAT_EMPTY]) rfl⟩
  · simp only [State.advanceWin, hp, hb, if_false, Bool.false_eq_true, State.win_setWin]
    have hopen : ∀ o c : Word, ((s.setReg (CT_WIN_OPEN n) o).setReg (CT_WIN_CLOSE n) c).reg (CT_WIN_OPEN n) = o :=
      fun o c => (State.reg_setReg_ne _ _ _ c hoc).trans (s.reg_setReg _ o)
    exact ⟨trivial, hopen _ _, State.reg_setReg _ _ _, (hopen _ _).symm, (State.reg_setReg _ _ _).symm⟩

/-- The state `c` at the end of an occurrence: ACTIVE 0, the halyard event posted. -/
theorem State.closeWin_parts (n : Nat) (hn : n < 8) (h : s.winCloses n = true) : ∃ c : State,
    s.closeWin n = c.advanceWin n (s.win n) ∧ c.fld (CT_WIN_STAT_ACTIVE n) = 0 ∧ c.mem = s.mem ∧
    (∀ a, 0x10000 ≤ a ∧ a < 0x20000 → a ≠ CT_WIN_STAT n → c.reg a = s.reg a) ∧
    (s.fld (CT_WIN_CTL_HALCLOSE n) = 0 → c.hal = s.hal ∧ ∀ a, a ≠ CT_WIN_STAT n → c.reg a = s.reg a) := by
  let u := s.setFld (CT_WIN_STAT_ACTIVE n) 0
  have hu (a : Nat) (ha : a ≠ CT_WIN_STAT n) : u.reg a = s.reg a := s.reg_setFld_ne (CT_WIN_STAT_ACTIVE n) 0 a ha
  have hann := announced_announceClose u n (s.win n).occClose.toNat
  refine ⟨_, (s.closeWin_eq n).trans (if_pos h), ?_, hann.mem, fun a hct ha => (hann.ctReg hct).trans (hu a ha), fun hoff => ?_⟩
  · rw [hann.ctFld (winReg_ct n hn).2.2.2]
    exact s.fld_setFld_zero _ (by simp [CT_WIN_STAT_ACTIVE])
  · have hflag : u.flag (CT_WIN_CTL_HALCLOSE n) = false :=
      (s.flag_setStat n (CT_WIN_STAT_ACTIVE n) _ 0 rfl rfl).trans (s.flag_of_fld_zero _ hoff)
    rw [hflag] at hann
    exact ⟨hann.hal rfl, fun a ha => (hann.reg a nofun nofun).trans (hu a ha)⟩

/-- What a closing does (R45, R46). -/
theorem State.closeWin_closes (n : Nat) (hn : n < 8) (h : s.winCloses n = true) :
    let t := s.closeWin n
    let per := s.fld (CT_WIN_CTL_PER n) * 8
    t.fld (CT_WIN_STAT_ACTIVE n) = 0 ∧ t.mem = s.mem ∧
      (per = 0 → (t.win n).armed = false ∧ t.reg (CT_WIN_OPEN n) = s.reg (CT_WIN_OPEN n) ∧
        t.reg (CT_WIN_CLOSE n) = s.reg (CT_WIN_CLOSE n)) ∧
      (per ≠ 0 → (per : Int) ≤ s.winLen n → (t.win n).armed = false ∧ t.fld (CT_WIN_STAT_EMPTY n) = 1) ∧
      (per ≠ 0 → s.winLen n < (per : Int) → (t.win n).armed = true ∧
        t.reg (CT_WIN_OPEN n) = s.reg (CT_WIN_OPEN n) + BitVec.ofNat 32 per ∧
        t.reg (CT_WIN_CLOSE n) = s.reg (CT_WIN_CLOSE n) + BitVec.ofNat 32 per ∧
        (t.win n).occOpen = t.reg (CT_WIN_OPEN n) ∧ (t.win n).occClose = t.reg (CT_WIN_CLOSE n)) ∧
      (s.fld (CT_WIN_CTL_HALCLOSE n) = 0 → t.hal = s.hal ∧
        ∀ a, a ≠ CT_WIN_STAT n → a ≠ CT_WIN_OPEN n → a ≠ CT_WIN_CLOSE n → t.reg a = s.reg a) := by
  intro t per
  obtain ⟨c, ht, hactive, hmem, hreg, hquiet⟩ := s.closeWin_parts n hn h
  obtain ⟨hctOpen, hctClose, hctCtl, -⟩ := winReg_ct n hn
  obtain ⟨-, hos, -, hcs, hctlStat, -⟩ := winReg_ne n
  have hopen := hreg _ hctOpen hos
  have hclose := hreg _ hctClose hcs
  have hper : c.fld (CT_WIN_CTL_PER n) = s.fld (CT_WIN_CTL_PER n) := State.fld_of_reg s c _ (hreg _ hctCtl hctlStat)
  have hlen : c.winLen n = s.winLen n := by rw [State.winLen, State.winLen, hopen, hclose]
  obtain ⟨hfactive, hfmem, hfhal, hfreg⟩ := c.advanceWin_frame n (s.win n)
  obtain ⟨hzero, hbad, hgood⟩ := c.advanceWin_cases n (s.win n)
  have hiff := c.winPerBad_iff n
  rw [hper, hlen] at hiff
  rw [hper, hopen, hclose] at hzero hgood
  rw [hper] at hbad
  have ht' : t = c.advanceWin n (s.win n) := ht
  rw [ht']
  refine ⟨hfactive.trans hactive, hfmem.trans hmem, hzero, fun hp hl => hbad hp (hiff.2 ⟨hp, hl⟩),
    fun hp hl => hgood hp (Bool.eq_false_iff.2 fun hb => Int.not_le.2 hl (hiff.1 hb).2), fun hoff => ?_⟩
  obtain ⟨hhal, hregs⟩ := hquiet hoff
  exact ⟨hfhal.trans hhal, fun a ha ho hc => (hfreg a ha ho hc).trans (hregs a ha)⟩

/-! ### The commands -/

/-- WINDOW_ARM, by what the write of the control register leaves and the tests of the arming (R45, R46). -/
theorem State.writeWinCtl_spec (i : Initiator) (n : Fin 8) (v : Word) :
    let len := diff32 (s.reg (CT_WIN_CLOSE n)).toNat (s.reg (CT_WIN_OPEN n)).toNat
    let per : Nat := v.toNat / 2 ^ 13 * 8
    let t := s.writeWinCtl i n v
    t.fld (CT_WIN_STAT_ACTIVE n) = 0 ∧ t.mem = s.mem ∧ t.hal = s.hal ∧
      (∀ a, a ≠ CT_WIN_CTL n → a ≠ CT_WIN_STAT n → t.reg a = s.reg a) ∧ (∀ m, m ≠ n.val → t.win m = s.win m) ∧
      (v.getLsbD 0 = false → (t.win n).armed = false) ∧
      (v.getLsbD 0 = true →
        (len ≤ 0 → (t.win n).armed = false ∧ t.fld (CT_WIN_STAT_EMPTY n) = 1) ∧
        (0 < len → reached (s.reg (CT_WIN_CLOSE n)).toNat s.now = true → (t.win n).armed = false ∧ t.fld (CT_WIN_STAT_MISSED n) = 1) ∧
        (0 < len → reached (s.reg (CT_WIN_CLOSE n)).toNat s.now = false → per ≠ 0 → (per : Int) ≤ len →
          (t.win n).armed = false ∧ t.fld (CT_WIN_STAT_EMPTY n) = 1) ∧
        (0 < len → reached (s.reg (CT_WIN_CLOSE n)).toNat s.now = false → (per = 0 ∨ len < (per : Int)) →
          (t.win n).armed = true ∧ (t.win n).occ = true ∧ (t.win n).occOpen = s.reg (CT_WIN_OPEN n) ∧
            (t.win n).occClose = s.reg (CT_WIN_CLOSE n))) := by
  intro len per t
  let u := (s.quietClose n).plainWrite i (CT_WIN_CTL n) v
  obtain ⟨hframe, hactive, hdis, hen, hper⟩ : WinWritten n v s u := s.winWritten i n v
  obtain ⟨hoc, hos, hcc, hcs, -⟩ := winReg_ne n
  have hopen := hframe.reg _ hoc hos
  have hclose := hframe.reg _ hcc hcs
  have hlen : u.winLen n = len := hframe.winLen
  have hiff := u.winPerBad_iff n
  rw [hper, hlen] at hiff
  obtain ⟨haframe, haactive⟩ := u.armWin_frame n
  obtain ⟨hoff, hon⟩ := u.armWin_cases n hdis
  rw [hen, hlen, hopen, hclose, hframe.now] at hon
  have hall := hframe.trans haframe
  have ht : t = u.armWin n := s.writeWinCtl_eq i n v
  rw [ht]
  refine ⟨haactive.trans hactive, hall.mem, hall.hal, hall.reg, hall.others, fun h => hoff (hen.trans h), fun h => ?_⟩
  obtain ⟨hempty, hmissed, hbad, hgood⟩ := hon h
  refine ⟨hempty, hmissed, fun hl hr hp hle => hbad hl hr (hiff.2 ⟨hp, hle⟩), fun hl hr hp => ?_⟩
  have hwin := hgood hl hr (Bool.eq_false_iff.2 fun hb => by
    obtain ⟨hne, hle⟩ := hiff.1 hb
    exact hp.elim hne (Int.not_lt.2 hle))
  exact ⟨congrArg Window.armed hwin, congrArg Window.occ hwin, congrArg Window.occOpen hwin, congrArg Window.occClose hwin⟩

theorem State.windowOpen_eq (n : Fin 8) (hu : s.underWay = true) : exec (.windowOpen n) s = .next (s.openWin n) :=
  congrArg Host.Outcome.next (if_pos hu)

theorem State.windowClose_eq (n : Fin 8) (hu : s.underWay = true) : exec (.windowClose n) s = .next (s.closeWin n) :=
  congrArg Host.Outcome.next (if_pos hu)

/-- A window that is not armed, or open already, or whose OPEN is not reached stays. -/
theorem State.openWin_stays (n : Nat)
    (h : (s.win n).armed = false ∨ s.fld (CT_WIN_STAT_ACTIVE n) = 1 ∨ reached (s.win n).occOpen.toNat s.now = false) :
    s.openWin n = s := by
  rw [s.openWin_eq n, if_neg]
  rcases h with h | h | h
  · simp [State.winOpens, h]
  · simp [State.winOpens, s.flag_of_fld_one _ h]
  · simp [State.winOpens, h]

/-- One that is not armed, or closed, or whose CLOSE is not reached stays. -/
theorem State.closeWin_stays (n : Nat)
    (h : (s.win n).armed = false ∨ s.fld (CT_WIN_STAT_ACTIVE n) = 0 ∨ reached (s.win n).occClose.toNat s.now = false) :
    s.closeWin n = s := by
  rw [s.closeWin_eq n, if_neg]
  rcases h with h | h | h
  · simp [State.winCloses, h]
  · simp [State.winCloses, s.flag_of_fld_zero _ h]
  · simp [State.winCloses, h]

/-- Settles O16: each command by what its operation does, timers by `Fired` and `retarget`, windows by `armWin`, `openWin` and
`advanceWin`. -/
theorem timersAndWindowsArmAndFire : Obligations.TimersAndWindowsArmAndFire := by
  unfold Obligations.TimersAndWindowsArmAndFire
  refine ⟨⟨fun s i n v hd => ?_, fun s i n v hd => ?_, fun s n hu ha hr => ?_, fun s n h => s.timerFire_notDue n h⟩,
    fun s i n v hd => ?_, fun s n hu => ⟨fun ha hact hr => ?_, fun h => ?_⟩, fun s n hu => ⟨fun ha hact hr => ?_, fun h => ?_⟩⟩
  · exact ⟨_, congrArg Host.Outcome.next (s.gated_on i (CT_TMR_CTL n) _ hd), s.writeTmrCtl_spec i n v⟩
  · exact ⟨_, congrArg Host.Outcome.next (s.gated_on i (CT_TMR_TGT n) _ hd), s.writeTmrTgt_spec n n.isLt v⟩
  · have hf := s.fireTimer_fired n n.isLt
    refine ⟨_, s.timerFire_due n hu ha hr, hf.fired, hf.overruns, hf.ctl n.isLt, hf.oneShot, hf.periodic, hf.irq, hf.others, hf.mem,
      hf.hal, fun hh hq a hat has => hf.reg a hat has (fun h => ?_) (fun h => ?_)⟩
    · simp [s.flag_of_fld_zero _ hh] at h
    · simp [s.flag_of_fld_zero _ hq] at h
  · exact ⟨_, congrArg Host.Outcome.next (s.gated_on i (CT_WIN_CTL n) _ hd), s.writeWinCtl_spec i n v⟩
  · exact ⟨_, s.windowOpen_eq n hu, s.openWin_opens n n.isLt (by simp [State.winOpens, ha, s.flag_of_fld_zero _ hact, hr])⟩
  · rw [s.windowOpen_eq n hu, s.openWin_stays n h]
  · exact ⟨_, s.windowClose_eq n hu, s.closeWin_closes n n.isLt (by simp [State.winCloses, ha, s.flag_of_fld_one _ hact, hr])⟩
  · rw [s.windowClose_eq n hu, s.closeWin_stays n h]

end Sys2Proof.Machine
end

section
/-! Latches: which edges they see, what a capture writes, and its release (R40, R47 to R49). -/

namespace Sys2Proof.Machine

variable (s : State)

/-! ### The latches' registers -/

theorem latReg_ne (n : Nat) : CT_LAT_NS n ≠ CT_LAT_FRAC n ∧ CT_LAT_NS n ≠ CT_LAT_STAT n ∧ CT_LAT_FRAC n ≠ CT_LAT_STAT n := by
  simp only [CT_LAT_NS, CT_LAT_FRAC, CT_LAT_STAT]
  omega

/-! ### A capture (R47) -/

/-- Whether a latch takes an edge: enabled, its polarity, and with WINEN inside an occurrence of its window (R47, R48). -/
def State.latchSees (n : Nat) (falling : Bool) (ns : Word) : Bool :=
  s.flag (CT_LAT_CTL_EN n) && edgeTakes (s.fld (CT_LAT_CTL_EDGE n)) falling &&
    (!s.flag (CT_LAT_CTL_WINEN n) || s.winPasses (s.fld (CT_LAT_CTL_WIN n)) ns)

/-- Whether an edge comes less than 5 ns after the one before it (R49). -/
def State.tooClose (n : Nat) (ts : Stamp) : Bool :=
  match (s.lat n).last with
  | some l => decide ((s.full16 ts - l).natAbs < 5 * 65536)
  | none => false

/-- The state with an edge noted as the latest one; a close one draws the free bit of its loss. -/
def State.noteEdge (n : Nat) (ts : Stamp) : State :=
  let t := s.setLat n ⟨some (s.full16 ts)⟩
  if s.tooClose n ts then (t.draw 1).2 else t

theorem State.noteEdge_regs (n : Nat) (ts : Stamp) : (s.noteEdge n ts).regs = s.regs := by
  simp only [State.noteEdge]
  split <;> rfl

theorem State.noteEdge_mem (n : Nat) (ts : Stamp) : (s.noteEdge n ts).mem = s.mem := by
  simp only [State.noteEdge]
  split <;> rfl

/-- An edge is noted, and captured where the latch takes it and it is not lost. -/
theorem State.latchEdge_eq (n : Nat) (falling : Bool) (ts : Stamp) :
    s.latchEdge n falling ts =
      if s.latchSees n falling ts.ns && !(s.tooClose n ts && ((s.setLat n ⟨some (s.full16 ts)⟩).draw 1).1.getLsbD 0) then
        (s.noteEdge n ts).captureEdge n falling ts
      else s.noteEdge n ts := by
  cases hl : (s.lat n).last with
  | none => simp only [State.latchEdge, State.noteEdge, State.tooClose, hl]; rfl
  | some l =>
    by_cases hc : (s.full16 ts - l).natAbs < 5 * 65536
    · simp only [State.latchEdge, State.noteEdge, State.tooClose, hl, hc]; rfl
    · simp only [State.latchEdge, State.noteEdge, State.tooClose, hl, hc]; rfl

/-- An edge that the latch takes, at least 5 ns after the one before it, is captured. -/
theorem State.latchEdge_sees (n : Nat) (falling : Bool) (ts : Stamp) (hsees : s.latchSees n falling ts.ns = true)
    (hfar : ∀ l, (s.lat n).last = some l → 5 * 65536 ≤ (s.full16 ts - l).natAbs) :
    s.latchEdge n falling ts = (s.noteEdge n ts).captureEdge n falling ts := by
  have hclose : s.tooClose n ts = false := by
    unfold State.tooClose
    split
    · next l hl => exact decide_eq_false (Nat.not_lt.2 (hfar l hl))
    · rfl
  simp [s.latchEdge_eq, hsees, hclose]

/-- An edge that it does not take is noted, nothing more. -/
theorem State.latchEdge_ignores (n : Nat) (falling : Bool) (ts : Stamp) (hsees : s.latchSees n falling ts.ns = false) :
    s.latchEdge n falling ts = s.noteEdge n ts := by
  simp [s.latchEdge_eq, hsees]

/-- With VALID 0 a capture writes the timestamp, VALID and POL. -/
theorem State.captureEdge_free (n : Nat) (falling : Bool) (ts : Stamp) (hv : s.fld (CT_LAT_STAT_VALID n) = 0) :
    s.captureEdge n falling ts = (((s.setReg (CT_LAT_NS n) ts.ns).setFld (CT_LAT_FRAC_FRAC n) ts.frac.toNat).setFld
      (CT_LAT_STAT_VALID n) 1).setFld (CT_LAT_STAT_POL n) (b2n falling) := by
  simp [State.captureEdge, s.flag_of_fld_zero _ hv, State.setFlag]

/-- With VALID 1 it sets OVERRUN alone. -/
theorem State.captureEdge_held (n : Nat) (falling : Bool) (ts : Stamp) (hv : s.fld (CT_LAT_STAT_VALID n) = 1) :
    s.captureEdge n falling ts = s.setFld (CT_LAT_STAT_OVERRUN n) 1 := by
  simp [State.captureEdge, s.flag_of_fld_one _ hv]

/-- What a capture by a latch with VALID 0 leaves in its registers. -/
theorem State.captureEdge_free_spec (n : Nat) (falling : Bool) (ts : Stamp) (hv : s.fld (CT_LAT_STAT_VALID n) = 0) :
    let t := s.captureEdge n falling ts
    t.reg (CT_LAT_NS n) = ts.ns ∧ t.fld (CT_LAT_FRAC_FRAC n) = ts.frac.toNat ∧ t.fld (CT_LAT_STAT_VALID n) = 1 ∧
      t.fld (CT_LAT_STAT_POL n) = b2n falling ∧
      (∀ a, a ≠ CT_LAT_NS n → a ≠ CT_LAT_FRAC n → a ≠ CT_LAT_STAT n → t.reg a = s.reg a) ∧ t.mem = s.mem := by
  intro t
  obtain ⟨hnf, hns, hfs⟩ := latReg_ne n
  let u := (s.setReg (CT_LAT_NS n) ts.ns).setFld (CT_LAT_FRAC_FRAC n) ts.frac.toNat
  have ht : t = (u.setFld (CT_LAT_STAT_VALID n) 1).setFld (CT_LAT_STAT_POL n) (b2n falling) := s.captureEdge_free n falling ts hv
  have hstat (a : Nat) (ha : a ≠ CT_LAT_STAT n) : t.reg a = u.reg a := by
    rw [ht]
    exact (State.reg_setFld_ne _ (CT_LAT_STAT_POL n) _ a ha).trans (State.reg_setFld_ne _ (CT_LAT_STAT_VALID n) _ a ha)
  have hfrac : u.fld (CT_LAT_FRAC_FRAC n) = ts.frac.toNat :=
    (State.fld_setFld _ _ _ (by simp [CT_LAT_FRAC_FRAC])).trans (Nat.mod_eq_of_lt ts.frac.isLt)
  refine ⟨?_, ?_, ?_, ?_, fun a ha hb hc => ?_, ?_⟩
  · rw [hstat _ hns]
    exact (State.reg_setFld_ne _ (CT_LAT_FRAC_FRAC n) _ _ hnf).trans (s.reg_setReg _ _)
  · rw [State.fld_of_reg u t _ (hstat _ hfs), hfrac]
  · rw [ht, State.fld_setFld_ne _ _ _ _ (by simp [CT_LAT_STAT_POL]) (.inr (.inr (by simp [CT_LAT_STAT_VALID, CT_LAT_STAT_POL]))),
      State.fld_setFld _ _ _ (by simp [CT_LAT_STAT_VALID])]
    rfl
  · rw [ht, State.fld_setFld _ _ _ (by simp [CT_LAT_STAT_POL])]
    cases falling <;> rfl
  · rw [hstat a hc]
    exact (State.reg_setFld_ne _ (CT_LAT_FRAC_FRAC n) _ a hb).trans (s.reg_setReg_ne _ _ _ ha)
  · rw [ht]
    rfl

/-- What an edge on a latch with VALID 1 leaves in its registers. -/
theorem State.captureEdge_held_spec (n : Nat) (falling : Bool) (ts : Stamp) (hv : s.fld (CT_LAT_STAT_VALID n) = 1) :
    let t := s.captureEdge n falling ts
    t.fld (CT_LAT_STAT_OVERRUN n) = 1 ∧ (∀ a, a ≠ CT_LAT_STAT n → t.reg a = s.reg a) ∧ t.mem = s.mem := by
  intro t
  have ht : t = s.setFld (CT_LAT_STAT_OVERRUN n) 1 := s.captureEdge_held n falling ts hv
  rw [ht]
  exact ⟨s.fld_setFld _ _ (by simp [CT_LAT_STAT_OVERRUN]), fun a ha => s.reg_setFld_ne (CT_LAT_STAT_OVERRUN n) _ a ha, rfl⟩

/-- What a latch takes, by its fields. -/
theorem State.latchSees_iff (n : Nat) (falling : Bool) (ns : Word) : s.latchSees n falling ns = true ↔
    s.fld (CT_LAT_CTL_EN n) ≠ 0 ∧ edgeTakes (s.fld (CT_LAT_CTL_EDGE n)) falling = true ∧
      (s.fld (CT_LAT_CTL_WINEN n) = 0 ∨ s.winPasses (s.fld (CT_LAT_CTL_WIN n)) ns = true) := by
  simp [State.latchSees, State.flag, and_assoc]

/-- What LATCH_CAPTURE does under way: the edge, its timestamp corrected by the net's pin delay (R40). -/
theorem State.latchCapture_eq (n : Fin 32) (falling : Bool) (ts : Stamp) (hu : s.underWay = true) :
    exec (.latchCapture n falling ts) s =
      .next (s.latchEdge n falling (s.stampOn (s.netLine (s.fld (CT_LAT_CTL_NET n))) ts)) :=
  congrArg Host.Outcome.next (if_pos hu)

/-- Settles O17: an edge that the latch takes goes to `captureEdge`, one that it does not is only noted. -/
theorem latchesCaptureAndRelease : Obligations.LatchesCaptureAndRelease := by
  unfold Obligations.LatchesCaptureAndRelease
  refine ⟨fun s n falling ts hu hen => ?_, fun s n falling ts hu hno => ?_, fun s i n hd => ?_⟩
  · intro u htakes hwin hfar
    have hsees : s.latchSees n falling u.ns = true :=
      (s.latchSees_iff n falling u.ns).2 ⟨by omega, htakes, hwin⟩
    have hexec : exec (.latchCapture n falling ts) s = .next ((s.noteEdge n u).captureEdge n falling u) := by
      rw [s.latchCapture_eq n falling ts hu, s.latchEdge_sees n falling u hsees hfar]
    have hregs := s.noteEdge_regs n u
    have hvalid := State.fld_of_regs s (s.noteEdge n u) hregs (CT_LAT_STAT_VALID n)
    have hreg (a : Nat) := State.reg_of_regs s (s.noteEdge n u) hregs a
    have hmem := s.noteEdge_mem n u
    refine ⟨fun hv => ?_, fun hv => ?_⟩
    · obtain ⟨hns, hfrac, hval, hpol, hkeep, hm⟩ := (s.noteEdge n u).captureEdge_free_spec n falling u (hvalid.trans hv)
      exact ⟨_, hexec, hns, hfrac, hval, hpol, fun a ha hb hc => (hkeep a ha hb hc).trans (hreg a), hm.trans hmem⟩
    · obtain ⟨hover, hkeep, hm⟩ := (s.noteEdge n u).captureEdge_held_spec n falling u (hvalid.trans hv)
      obtain ⟨-, hns, hfs⟩ := latReg_ne n
      exact ⟨_, hexec, (hkeep _ hns).trans (hreg _), State.fld_of_reg s _ _ ((hkeep _ hfs).trans (hreg _)), hover,
        fun a ha => (hkeep a ha).trans (hreg a), hm.trans hmem⟩
  · have hsees : s.latchSees n falling (s.stampOn (s.netLine (s.fld (CT_LAT_CTL_NET n))) ts).ns = false := by
      rw [Bool.eq_false_iff, ne_eq, State.latchSees_iff]
      rintro ⟨hen, htakes, hwin⟩
      rcases hno with h | h | ⟨h, hout⟩
      · exact hen h
      · simp [h] at htakes
      · simp [h, hout] at hwin
    refine ⟨_, s.latchCapture_eq n falling ts hu, ?_⟩
    rw [s.latchEdge_ignores n falling _ hsees]
    exact ⟨s.noteEdge_regs _ _, s.noteEdge_mem _ _⟩
  · refine ⟨s.readLatFrac n, congrArg Host.Outcome.next (s.gated_on i (CT_LAT_FRAC n) _ hd), rfl, ?_,
      fun a ha => State.reg_setFld_ne _ (CT_LAT_STAT_VALID n) _ a ha, rfl⟩
    exact State.fld_setFld _ (CT_LAT_STAT_VALID n) 0 (by simp [CT_LAT_STAT_VALID])

end Sys2Proof.Machine
end
